-- ==== Sys2Proof/Word.lean ====
section
/-! DEFINITION. The word types of the DG-384 (R3, R16, R23, R47).

A general register and every word of code is 32 bits wide.  Register pairs are 64 bits wide and
quads 128.  A program counter holds a 56-bit virtual address. -/

namespace Sys2Proof

/-- One byte of memory. -/
abbrev Byte := BitVec 8

/-- A general register, a header, an instruction word or a modifier word (R16, R47). -/
abbrev Word := BitVec 32

/-- A register pair or a 64-bit special register (R16). -/
abbrev DWord := BitVec 64

/-- A 56-bit virtual address, as the program counter holds it (R23). -/
abbrev VAddr := BitVec 56

/-- The number of a general register, g0 to g127 (R16). -/
abbrev Reg := Fin 128

/-- The number of a predicate, p0 to p7 (R18). -/
abbrev Pred := Fin 8

end Sys2Proof
end

