-- ==== Sys2Proof/Config.lean ====
section
/-! DEFINITION. What the manual leaves to an implementation, and the free values.

Every free value is an opaque constant: nothing in Lean can evaluate it or prove which value it has,
so a claim holds whatever it is.  The named constants are choices of the model, each with its log
entry. -/

namespace Sys2Proof

/-- R53: an instruction that reads a register less than 4 cycles after the instruction that writes it
may read either value.  Arguments: the count of free choices, the register, and the tick at which the write is
due.  Log entry 4. -/
opaque Config.readsEarly : Nat → Nat → Nat → Bool

/-- R56: which of the values that a word has had since its launch was placed a fetch gives.  Arguments: the count
of free choices, and the word.  Log entry 6. -/
opaque Config.fetchChoice : Nat → Nat → Nat

/-- The result of an approximate function, which R151 bounds without fixing it: a candidate encoding,
taken when it lies within the bound.  Arguments: the operation's code and the operand.  Log entry 7. -/
opaque Config.transResult : Nat → BitVec 32 → BitVec 32

/-- The second neighbour a reciprocal square root may return (R151).  Log entry 7. -/
opaque Config.rsqUpper : BitVec 32 → Bool

/-- The summation order of shape SS3, which is in implementation order (R175, R182): the sum of the
terms, given as the exact sum's encoding and the terms.  Log entry 8. -/
opaque Config.ss3Error : Nat → Nat → Int

/-- A byte of the scratch of a team of the cluster that has ended, by the count of free choices and the
offset: the manual gives its allocation no contents (R13, R43).  Log entry 18. -/
opaque Config.goneScratch : Nat → Nat → BitVec 8

/-- The set that a line takes in an L1, below 512, and in its home slice of the memory-side cache, below 4,096
(R256, R262): the manual gives neither function.  Log entry 10. -/
opaque Config.l1Set : Nat → Nat

/-- The set of a line in its home slice.  Log entry 10. -/
opaque Config.mscSet : Nat → Nat

/-- Which entry of a full TLB or layout cache makes room (R265, R266).  Arguments: the count of free choices, and
which cache.  Log entry 11. -/
opaque Config.evicted : Nat → Nat → Nat

/-- Whether a walk takes a non-leaf entry that the walker cache holds, at a level (R266).  Log entry 11. -/
opaque Config.walkerHit : Nat → Nat → Bool

/-- The cycles that a memory operation takes beyond one: the manual gives typical latencies, which are not bounds
(R248).  Log entry 12. -/
opaque Config.latency : Nat → Nat

/-- An element of the result of a step that closes in replay with no entry at all: R371 gives it no value.
Argument: the element's index.  Log entry 23. -/
opaque Config.noEntries : Nat → BitVec 32

/-- Which half of a 128-bit access to host memory is performed first (R190).  Log entry 72. -/
opaque Config.highFirst : Nat → Bool

/-- The NX, UF and OF, from bit 0 upwards, of the intermediate roundings of an element's sum in shape SS3 (R182).
Arguments: the count of free choices, and the element.  Log entry 8. -/
opaque Config.ss3Flags : Nat → Nat → BitVec 3

/-- Whether the home package of a pod-remote request refuses it, because it lies in no export window there (R388).
Log entry 21. -/
opaque Config.homeRefuses : Nat → Bool

/-- Whether a pod-remote request of an engine, of the front end or of a write-back fails by its deadline or is refused
at its home (R388, R391).  Arguments: the count of free choices, and the line.  Log entry 21. -/
opaque Config.requestFails : Nat → Nat → Bool

/-- What the home package's directory answers for a page of another member's memory (R298, R301): nothing when the
page has no entry there, else its VTIMEOUT and the step of each VALID frame.  Arguments: the count of free choices,
and the key of frame 0.  Log entry 3. -/
opaque Config.homeEntry : Nat → Nat → Option (Nat × List (Option (BitVec 32)))

/-- Whether a pod-remote write that fails by its deadline was performed at its home (R391, R293).  Log
entry 21. -/
opaque Config.remoteDone : Nat → Bool

/-- The random number of issues before a sample tag (R433), below twice its mean.  Log entry 14. -/
opaque Config.sampleDraw : Nat → Nat

/-- The source number of a record that a host access posts: R430 names no agent of it (R398).  Log entry
24. -/
opaque Config.hostSource : Nat

/-- The cycles of a stage of a tagged instruction, from 0 for FETCH to 3 for WB (R434).  Arguments: the count
of free choices, and the stage.  Log entry 14. -/
opaque Config.sampleStage : Nat → Nat → Nat

/-- SM3 of a byte string, a named standard the manual gives no formula of (R418).  Log entry 15. -/
opaque Config.sm3 : List (BitVec 8) → List (BitVec 8)

/-- The vendor signature check over header bytes 0 to 47 (R418).  Log entry 15. -/
opaque Config.vendorSigned : List (BitVec 8) → List (BitVec 8) → Bool

/-- The owner signature check, true when the owner-key fuse is not set (R418).  Log entry 15. -/
opaque Config.ownerSigned : List (BitVec 8) → List (BitVec 8) → Bool

/-- The fused minimum SVN (R418).  Log entry 15. -/
opaque Config.fusedSvn : Nat

/-- The image that lies in a firmware bank at package reset (R418): the boot ROM checks it.  Log entry 15. -/
opaque Config.flash : Bool → List (BitVec 8)

/-- The identity public key of the device, derived from a fused seed (R419).  Log entry 15. -/
opaque Config.identityKey : List (BitVec 8)

/-- The signature with the identity key over an SM3 digest (R419).  Log entry 15. -/
opaque Config.identitySign : List (BitVec 8) → List (BitVec 8)

/-- A byte of a near segment that is powered off while its partition is in Lull (R407, R408): the manual gives it no
contents.  Arguments: the count of free choices, and the address.  Log entry 96. -/
opaque Config.poweredOff : Nat → Nat → BitVec 8

/-- The version and the policy state Penen writes into its state block (R420, R421).  Log entry 15. -/
opaque Config.stateBlock : Nat → List (BitVec 8)

/-- What the event record of a team that the destruction of its device ends holds for the trap that it did not take:
PC, CODE, REASON and group (R379, R404).  Arguments: the count of free choices, and the team.  Log entry 76. -/
opaque Config.destroyedTeam : Nat → Nat → Nat

/-- The physical base of the save area that firmware gives a new virtual device (R405, R413).  Log
entry 13. -/
opaque Config.saveBase : Nat → BitVec 64

end Sys2Proof
end

