-- ==== Sys2Proof/Fields.lean ====
section
/-! DEFINITION. The types of the operand fields of an instruction, and of the modifier words
(R58, R61, R67 to R73).  The codes that stand for them in an encoding are in Decode. -/

namespace Sys2Proof

/-- The rounding codes of the vector prefix (R58); code 110 is reserved. -/
inductive Rnd where
  | rne | rtz | rup | rdn | rna | sr | fpcsr
  deriving DecidableEq, Repr

/-- The conditions of the compares (R67); 0xE and 0xF are reserved. -/
inductive Cond where
  | eq | ne | lt | le | gt | ge | num | nan | ueq | une | ult | ule | ugt | uge
  deriving DecidableEq, Repr

/-- The TYPE field of major 0x0C (R67); 111 is reserved. -/
inductive CmpType where
  | s32 | u32 | s64 | u64 | f32 | f16 | bf16
  deriving DecidableEq, Repr

/-- The TYPE2 field of major 0x0D (R67). -/
inductive IntType where
  | s32 | u32 | s64 | u64
  deriving DecidableEq, Repr

/-- FN[4] of major 0x19 (R69): the 16-bit float format. -/
inductive HalfFmt where
  | f16 | bf16
  deriving DecidableEq, Repr

/-- The TO and FROM fields of the conversion (R69). -/
inductive Fmt where
  | f32 | f16 | bf16 | e4m3 | e5m2 | s8 | u8 | s16 | u16 | s32 | u32 | s64 | u64
  deriving DecidableEq, Repr

/-- The MODE field of the lane exchange (R70). -/
inductive XMode where
  | pick | rotup | rotdn | mirror
  deriving DecidableEq, Repr

/-- The OP field of the group reduction and scan (R70). -/
inductive GroupOp where
  | add | mins | minu | maxs | maxu | and | or | xor
  deriving DecidableEq, Repr

/-- The FMT field of major 0x28 (R71). -/
inductive MmaFmt where
  | bf16 | f16 | e4m3 | e5m2
  deriving DecidableEq, Repr

/-- The FMT field of major 0x29 (R71). -/
inductive Fp8Fmt where
  | e4m3 | e5m2
  deriving DecidableEq, Repr

/-- The SPACE field of the memory forms (R72). -/
inductive Space where
  | gl | sc | cl | pv
  deriving DecidableEq, Repr

/-- The SPACE field of the atomics, which have no private form (R72). -/
inductive AtomSpace where
  | gl | sc | cl
  deriving DecidableEq, Repr

/-- The WIDTH field of the memory forms (R72); 111 is reserved. -/
inductive MemWidth where
  | b8 | b16 | b32 | b64 | b128 | s8 | s16
  deriving DecidableEq, Repr

/-- The WIDTH field of major 0x2F (R72). -/
inductive GranWidth where
  | b32 | b64 | b128
  deriving DecidableEq, Repr

/-- The WIDTH2 field of major 0x36 (R73); 11 is reserved. -/
inductive VerWidth where
  | b32 | b64 | b128
  deriving DecidableEq, Repr

/-- The SCOPE field (R72); 110 and 111 are reserved. -/
inductive Scope where
  | grp | team | clu | dev | pod | sys
  deriving DecidableEq, Repr

/-- The OP field of the atomics (R72). -/
inductive AtomOp where
  | add | mins | minu | maxs | maxu | and | or | xor | xchg | cas | fadd
  deriving DecidableEq, Repr

/-- The ORD field of the atomics (R72). -/
inductive MemOrd where
  | rlx | acq | rel | ar
  deriving DecidableEq, Repr

/-- A predicate input of the agreement forms: predicate n, inverted when neg holds (R70). -/
structure PredSel where
  p : Pred
  neg : Bool
  deriving DecidableEq, Repr

/-- The contents of a hint word (R61). -/
structure Hint where
  sub : Fin 16
  arg : BitVec 22
  deriving DecidableEq, Repr

/-- The contents of a vector prefix (R58). -/
structure Pre where
  pred : Pred
  neg : Bool
  zero : Bool
  rnd : Rnd
  opd4 : Reg
  sat : Bool
  deriving DecidableEq, Repr

/-- The modifier chain that stands before an instruction word (R57): at most one hint, one vector
prefix and one wide immediate. -/
structure Mods where
  hint : Option Hint
  pre : Option Pre
  wide : Option (BitVec 26)
  deriving DecidableEq, Repr

/-- The empty modifier chain. -/
def Mods.empty : Mods := { hint := none, pre := none, wide := none }

/-- Why a word or a chain is no instruction where it stands (R76): `clause` holds for
ILLEGAL_CLAUSE and fails for ILLEGAL_INSN; the other fields are those of XINFO. -/
structure Reject where
  clause : Bool
  kind : BitVec 3
  pos : BitVec 3
  word : Word
  deriving DecidableEq, Repr

/-- The agents that write management registers (R5, R401, R405, R414): Penen firmware on its RV64 core and on its
packet cores (R412), the physical function's host driver, and the function driver or level-S code of one virtual
device. -/
inductive Agent where
  | penen
  | packet (core : Fin 6)
  | pf
  | vf (vd : Nat)
  deriving DecidableEq, Repr

/-- A pod-remote request that reaches this package from a peer (R301, R388, R393): a load, a store of the
given bytes (least significant first), an atomic with its operands, or a versioned access of one of the peer's teams,
the last of which ends the team's pin on the page. -/
inductive RemoteReq where
  | load (bytes : Nat)
  | store (bytes : Nat) (value : Nat)
  | atomic (op : AtomOp) (w : Bool) (a : Nat) (b : Nat)
  | ldvMin (bytes : Nat) (team : Nat) (least : Word)
  | ldvAt (bytes : Nat) (step : Word)
  | vpin (team : Nat) (least : Word)
  | vunpin (team : Nat)
  | unpin (team : Nat)
  deriving DecidableEq, Repr

/-- What a soft error strikes (R249): a general register of a thread, a scratch granule of a team, the 16-byte
granule of memory that holds a physical address, the granule of a core's L1 that holds a key, the line of the
memory-side cache that holds a physical address, or a single bit, a TLB, a layout cache of a core or one of a die,
which are corrected or refetched. -/
inductive ErrTarget where
  | reg (thread : Nat) (r : Reg)
  | scratch (team : Nat) (granule : Nat)
  | granule (pa : Nat)
  | l1 (core : Nat) (key : Nat)
  | corrected
  | tlb (core : Nat)
  | layout (core : Nat)
  | layoutDie (die : Nat)
  | msc (pa : Nat)
  deriving DecidableEq, Repr

/-- Energy that was measured (R428): of each core, and of each die's share of the uncore (4 for the I/O die). -/
structure Measured where
  cores : List (Nat × Nat)
  dies : List (Nat × Nat)
  deriving DecidableEq, Repr

/-- Who switches a bank (R240, R250): a CARVE instruction, by its operation, or firmware on behalf of a virtual device. -/
inductive CarveBy where
  | insn (op : Nat)
  | firmware (dev core bank mode : Nat)
  deriving DecidableEq, Repr

/-- Where a host access through BAR0 or BAR2 lands (R398): a physical address that the physical function reaches, or an
offset in BAR0 of a virtual function. -/
inductive HostPlace where
  | pf (pa : Nat)
  | vf (vd off : Nat)
  deriving DecidableEq, Repr

/-- A contribution as it travels to the root (R367 to R370): the collective, the descriptor values the
root compares, the contributing member, the step, and the elements. -/
structure Contribution where
  job : Nat
  cid : Nat
  q : Nat
  t : Nat
  d : Nat
  k : Nat
  mode : Bool
  member : Nat
  step : Nat
  data : List Word
  deriving DecidableEq, Repr

/-- A step result as it travels to a member (R371 to R373): the record's fields, its entries (member,
staleness) and the combined elements. -/
structure StepResult where
  job : Nat
  cid : Nat
  step : Nat
  ctick : Nat
  cause : Nat
  fresh : Nat
  wsum : Word
  check : Word
  latedrop : Nat
  dups : Nat
  entries : List (Nat × Nat)
  data : List Word
  deriving DecidableEq, Repr

end Sys2Proof
end

