-- ==== Sys2Proof/Syntax.lean ====
section
/-! DEFINITION. The instructions: one constructor for each row of the opcode table.

A row with an encoding is an instruction word with the modifier chain before it (R57): `m` is the
chain and the other arguments are the fields of R65, named as the table names them.  A row without
an encoding is a step that another agent of the package takes (the front end, an engine, Penen, a
completion); its arguments are what the manual leaves to the outside, or name what is stepped. -/

namespace Sys2Proof

/-- The instructions and the package's own steps. -/
inductive Instr where
  /-- ADD (R116). -/
  | add (m : Mods) (d : Reg) (a : Reg) (b : Reg)
  /-- SUB (R116). -/
  | sub (m : Mods) (d : Reg) (a : Reg) (b : Reg)
  /-- MUL (R116). -/
  | mul (m : Mods) (d : Reg) (a : Reg) (b : Reg)
  /-- MULHS (R116). -/
  | mulhs (m : Mods) (d : Reg) (a : Reg) (b : Reg)
  /-- MULHU (R116). -/
  | mulhu (m : Mods) (d : Reg) (a : Reg) (b : Reg)
  /-- MINS (R116). -/
  | mins (m : Mods) (d : Reg) (a : Reg) (b : Reg)
  /-- MINU (R116). -/
  | minu (m : Mods) (d : Reg) (a : Reg) (b : Reg)
  /-- MAXS (R116). -/
  | maxs (m : Mods) (d : Reg) (a : Reg) (b : Reg)
  /-- MAXU (R116). -/
  | maxu (m : Mods) (d : Reg) (a : Reg) (b : Reg)
  /-- AND (R116). -/
  | and (m : Mods) (d : Reg) (a : Reg) (b : Reg)
  /-- OR (R116). -/
  | or (m : Mods) (d : Reg) (a : Reg) (b : Reg)
  /-- XOR (R116). -/
  | xor (m : Mods) (d : Reg) (a : Reg) (b : Reg)
  /-- ANDN (R116). -/
  | andn (m : Mods) (d : Reg) (a : Reg) (b : Reg)
  /-- SHL (R116). -/
  | shl (m : Mods) (d : Reg) (a : Reg) (b : Reg)
  /-- SHR (R116). -/
  | shr (m : Mods) (d : Reg) (a : Reg) (b : Reg)
  /-- SAR (R116). -/
  | sar (m : Mods) (d : Reg) (a : Reg) (b : Reg)
  /-- ROL (R116). -/
  | rol (m : Mods) (d : Reg) (a : Reg) (b : Reg)
  /-- ROR (R116). -/
  | ror (m : Mods) (d : Reg) (a : Reg) (b : Reg)
  /-- CLZ (R116). -/
  | clz (m : Mods) (d : Reg) (a : Reg)
  /-- FFS (R116). -/
  | ffs (m : Mods) (d : Reg) (a : Reg)
  /-- POPC (R116). -/
  | popc (m : Mods) (d : Reg) (a : Reg)
  /-- BREV (R116). -/
  | brev (m : Mods) (d : Reg) (a : Reg)
  /-- ABS (R116). -/
  | abs (m : Mods) (d : Reg) (a : Reg)
  /-- NEG (R116). -/
  | neg (m : Mods) (d : Reg) (a : Reg)
  /-- ADDUS (R116). -/
  | addus (m : Mods) (d : Reg) (a : Reg) (b : Reg)
  /-- SUBUS (R116). -/
  | subus (m : Mods) (d : Reg) (a : Reg) (b : Reg)
  /-- MULWS (R116). -/
  | mulws (m : Mods) (d : Reg) (a : Reg) (b : Reg)
  /-- MULWU (R116). -/
  | mulwu (m : Mods) (d : Reg) (a : Reg) (b : Reg)
  /-- ADD_X2 (R116). -/
  | addX2 (m : Mods) (d : Reg) (a : Reg) (b : Reg)
  /-- SUB_X2 (R116). -/
  | subX2 (m : Mods) (d : Reg) (a : Reg) (b : Reg)
  /-- MUL_X2 (R116). -/
  | mulX2 (m : Mods) (d : Reg) (a : Reg) (b : Reg)
  /-- MULHS_X2 (R116). -/
  | mulhsX2 (m : Mods) (d : Reg) (a : Reg) (b : Reg)
  /-- MULHU_X2 (R116). -/
  | mulhuX2 (m : Mods) (d : Reg) (a : Reg) (b : Reg)
  /-- MINS_X2 (R116). -/
  | minsX2 (m : Mods) (d : Reg) (a : Reg) (b : Reg)
  /-- MINU_X2 (R116). -/
  | minuX2 (m : Mods) (d : Reg) (a : Reg) (b : Reg)
  /-- MAXS_X2 (R116). -/
  | maxsX2 (m : Mods) (d : Reg) (a : Reg) (b : Reg)
  /-- MAXU_X2 (R116). -/
  | maxuX2 (m : Mods) (d : Reg) (a : Reg) (b : Reg)
  /-- AND_X2 (R116). -/
  | andX2 (m : Mods) (d : Reg) (a : Reg) (b : Reg)
  /-- OR_X2 (R116). -/
  | orX2 (m : Mods) (d : Reg) (a : Reg) (b : Reg)
  /-- XOR_X2 (R116). -/
  | xorX2 (m : Mods) (d : Reg) (a : Reg) (b : Reg)
  /-- ANDN_X2 (R116). -/
  | andnX2 (m : Mods) (d : Reg) (a : Reg) (b : Reg)
  /-- SHL_X2 (R116). -/
  | shlX2 (m : Mods) (d : Reg) (a : Reg) (b : Reg)
  /-- SHR_X2 (R116). -/
  | shrX2 (m : Mods) (d : Reg) (a : Reg) (b : Reg)
  /-- SAR_X2 (R116). -/
  | sarX2 (m : Mods) (d : Reg) (a : Reg) (b : Reg)
  /-- ROL_X2 (R116). -/
  | rolX2 (m : Mods) (d : Reg) (a : Reg) (b : Reg)
  /-- ROR_X2 (R116). -/
  | rorX2 (m : Mods) (d : Reg) (a : Reg) (b : Reg)
  /-- CLZ_X2 (R116). -/
  | clzX2 (m : Mods) (d : Reg) (a : Reg)
  /-- FFS_X2 (R116). -/
  | ffsX2 (m : Mods) (d : Reg) (a : Reg)
  /-- POPC_X2 (R116). -/
  | popcX2 (m : Mods) (d : Reg) (a : Reg)
  /-- BREV_X2 (R116). -/
  | brevX2 (m : Mods) (d : Reg) (a : Reg)
  /-- ABS_X2 (R116). -/
  | absX2 (m : Mods) (d : Reg) (a : Reg)
  /-- NEG_X2 (R116). -/
  | negX2 (m : Mods) (d : Reg) (a : Reg)
  /-- ADDUS_X2 (R116). -/
  | addusX2 (m : Mods) (d : Reg) (a : Reg) (b : Reg)
  /-- SUBUS_X2 (R116). -/
  | subusX2 (m : Mods) (d : Reg) (a : Reg) (b : Reg)
  /-- ADD_X4 (R116). -/
  | addX4 (m : Mods) (d : Reg) (a : Reg) (b : Reg)
  /-- SUB_X4 (R116). -/
  | subX4 (m : Mods) (d : Reg) (a : Reg) (b : Reg)
  /-- MUL_X4 (R116). -/
  | mulX4 (m : Mods) (d : Reg) (a : Reg) (b : Reg)
  /-- MULHS_X4 (R116). -/
  | mulhsX4 (m : Mods) (d : Reg) (a : Reg) (b : Reg)
  /-- MULHU_X4 (R116). -/
  | mulhuX4 (m : Mods) (d : Reg) (a : Reg) (b : Reg)
  /-- MINS_X4 (R116). -/
  | minsX4 (m : Mods) (d : Reg) (a : Reg) (b : Reg)
  /-- MINU_X4 (R116). -/
  | minuX4 (m : Mods) (d : Reg) (a : Reg) (b : Reg)
  /-- MAXS_X4 (R116). -/
  | maxsX4 (m : Mods) (d : Reg) (a : Reg) (b : Reg)
  /-- MAXU_X4 (R116). -/
  | maxuX4 (m : Mods) (d : Reg) (a : Reg) (b : Reg)
  /-- AND_X4 (R116). -/
  | andX4 (m : Mods) (d : Reg) (a : Reg) (b : Reg)
  /-- OR_X4 (R116). -/
  | orX4 (m : Mods) (d : Reg) (a : Reg) (b : Reg)
  /-- XOR_X4 (R116). -/
  | xorX4 (m : Mods) (d : Reg) (a : Reg) (b : Reg)
  /-- ANDN_X4 (R116). -/
  | andnX4 (m : Mods) (d : Reg) (a : Reg) (b : Reg)
  /-- SHL_X4 (R116). -/
  | shlX4 (m : Mods) (d : Reg) (a : Reg) (b : Reg)
  /-- SHR_X4 (R116). -/
  | shrX4 (m : Mods) (d : Reg) (a : Reg) (b : Reg)
  /-- SAR_X4 (R116). -/
  | sarX4 (m : Mods) (d : Reg) (a : Reg) (b : Reg)
  /-- ROL_X4 (R116). -/
  | rolX4 (m : Mods) (d : Reg) (a : Reg) (b : Reg)
  /-- ROR_X4 (R116). -/
  | rorX4 (m : Mods) (d : Reg) (a : Reg) (b : Reg)
  /-- CLZ_X4 (R116). -/
  | clzX4 (m : Mods) (d : Reg) (a : Reg)
  /-- FFS_X4 (R116). -/
  | ffsX4 (m : Mods) (d : Reg) (a : Reg)
  /-- POPC_X4 (R116). -/
  | popcX4 (m : Mods) (d : Reg) (a : Reg)
  /-- BREV_X4 (R116). -/
  | brevX4 (m : Mods) (d : Reg) (a : Reg)
  /-- ABS_X4 (R116). -/
  | absX4 (m : Mods) (d : Reg) (a : Reg)
  /-- NEG_X4 (R116). -/
  | negX4 (m : Mods) (d : Reg) (a : Reg)
  /-- ADDUS_X4 (R116). -/
  | addusX4 (m : Mods) (d : Reg) (a : Reg) (b : Reg)
  /-- SUBUS_X4 (R116). -/
  | subusX4 (m : Mods) (d : Reg) (a : Reg) (b : Reg)
  /-- ADD_64 (R116). -/
  | add64 (m : Mods) (d : Reg) (a : Reg) (b : Reg)
  /-- SUB_64 (R116). -/
  | sub64 (m : Mods) (d : Reg) (a : Reg) (b : Reg)
  /-- MUL_64 (R116). -/
  | mul64 (m : Mods) (d : Reg) (a : Reg) (b : Reg)
  /-- MULHS_64 (R116). -/
  | mulhs64 (m : Mods) (d : Reg) (a : Reg) (b : Reg)
  /-- MULHU_64 (R116). -/
  | mulhu64 (m : Mods) (d : Reg) (a : Reg) (b : Reg)
  /-- MINS_64 (R116). -/
  | mins64 (m : Mods) (d : Reg) (a : Reg) (b : Reg)
  /-- MINU_64 (R116). -/
  | minu64 (m : Mods) (d : Reg) (a : Reg) (b : Reg)
  /-- MAXS_64 (R116). -/
  | maxs64 (m : Mods) (d : Reg) (a : Reg) (b : Reg)
  /-- MAXU_64 (R116). -/
  | maxu64 (m : Mods) (d : Reg) (a : Reg) (b : Reg)
  /-- AND_64 (R116). -/
  | and64 (m : Mods) (d : Reg) (a : Reg) (b : Reg)
  /-- OR_64 (R116). -/
  | or64 (m : Mods) (d : Reg) (a : Reg) (b : Reg)
  /-- XOR_64 (R116). -/
  | xor64 (m : Mods) (d : Reg) (a : Reg) (b : Reg)
  /-- ANDN_64 (R116). -/
  | andn64 (m : Mods) (d : Reg) (a : Reg) (b : Reg)
  /-- SHL_64 (R116). -/
  | shl64 (m : Mods) (d : Reg) (a : Reg) (b : Reg)
  /-- SHR_64 (R116). -/
  | shr64 (m : Mods) (d : Reg) (a : Reg) (b : Reg)
  /-- SAR_64 (R116). -/
  | sar64 (m : Mods) (d : Reg) (a : Reg) (b : Reg)
  /-- ROL_64 (R116). -/
  | rol64 (m : Mods) (d : Reg) (a : Reg) (b : Reg)
  /-- ROR_64 (R116). -/
  | ror64 (m : Mods) (d : Reg) (a : Reg) (b : Reg)
  /-- CLZ_64 (R116). -/
  | clz64 (m : Mods) (d : Reg) (a : Reg)
  /-- FFS_64 (R116). -/
  | ffs64 (m : Mods) (d : Reg) (a : Reg)
  /-- POPC_64 (R116). -/
  | popc64 (m : Mods) (d : Reg) (a : Reg)
  /-- BREV_64 (R116). -/
  | brev64 (m : Mods) (d : Reg) (a : Reg)
  /-- ABS_64 (R116). -/
  | abs64 (m : Mods) (d : Reg) (a : Reg)
  /-- NEG_64 (R116). -/
  | neg64 (m : Mods) (d : Reg) (a : Reg)
  /-- ADDUS_64 (R116). -/
  | addus64 (m : Mods) (d : Reg) (a : Reg) (b : Reg)
  /-- SUBUS_64 (R116). -/
  | subus64 (m : Mods) (d : Reg) (a : Reg) (b : Reg)
  /-- ADDI (R118). -/
  | addi (m : Mods) (d : Reg) (a : Reg) (i : BitVec 9)
  /-- MULI (R118). -/
  | muli (m : Mods) (d : Reg) (a : Reg) (i : BitVec 9)
  /-- ANDI (R118). -/
  | andi (m : Mods) (d : Reg) (a : Reg) (i : BitVec 9)
  /-- ORI (R118). -/
  | ori (m : Mods) (d : Reg) (a : Reg) (i : BitVec 9)
  /-- XORI (R118). -/
  | xori (m : Mods) (d : Reg) (a : Reg) (i : BitVec 9)
  /-- SHLI (R118). -/
  | shli (m : Mods) (d : Reg) (a : Reg) (i : BitVec 9)
  /-- SHRI (R118). -/
  | shri (m : Mods) (d : Reg) (a : Reg) (i : BitVec 9)
  /-- SARI (R118). -/
  | sari (m : Mods) (d : Reg) (a : Reg) (i : BitVec 9)
  /-- ADDI_64 (R118). -/
  | addi64 (m : Mods) (d : Reg) (a : Reg) (i : BitVec 9)
  /-- MULI_64 (R118). -/
  | muli64 (m : Mods) (d : Reg) (a : Reg) (i : BitVec 9)
  /-- ANDI_64 (R118). -/
  | andi64 (m : Mods) (d : Reg) (a : Reg) (i : BitVec 9)
  /-- ORI_64 (R118). -/
  | ori64 (m : Mods) (d : Reg) (a : Reg) (i : BitVec 9)
  /-- XORI_64 (R118). -/
  | xori64 (m : Mods) (d : Reg) (a : Reg) (i : BitVec 9)
  /-- SHLI_64 (R118). -/
  | shli64 (m : Mods) (d : Reg) (a : Reg) (i : BitVec 9)
  /-- SHRI_64 (R118). -/
  | shri64 (m : Mods) (d : Reg) (a : Reg) (i : BitVec 9)
  /-- SARI_64 (R118). -/
  | sari64 (m : Mods) (d : Reg) (a : Reg) (i : BitVec 9)
  /-- BFEZ (R119). -/
  | bfez (m : Mods) (d : Reg) (a : Reg) (p : Fin 32) (l : Fin 32)
  /-- BFES (R119). -/
  | bfes (m : Mods) (d : Reg) (a : Reg) (p : Fin 32) (l : Fin 32)
  /-- BFI (R119). -/
  | bfi (m : Mods) (d : Reg) (a : Reg) (p : Fin 32) (l : Fin 32)
  /-- MOVI (R120). -/
  | movi (m : Mods) (d : Reg) (i : BitVec 9)
  /-- MOVDI (R120). -/
  | movdi (m : Mods) (d : Reg) (i : BitVec 9)
  /-- LEAI (R120). -/
  | leai (m : Mods) (d : Reg) (a : Reg) (i : BitVec 9)
  /-- MOV (R120). -/
  | mov (m : Mods) (d : Reg) (a : Reg)
  /-- MOVD (R120). -/
  | movd (m : Mods) (d : Reg) (a : Reg)
  /-- MOVQ (R120). -/
  | movq (m : Mods) (d : Reg) (a : Reg)
  /-- LEAS (R121). -/
  | leas (m : Mods) (d : Reg) (a : Reg) (b : Reg) (s : Fin 4)
  /-- LEAZ (R121). -/
  | leaz (m : Mods) (d : Reg) (a : Reg) (b : Reg) (s : Fin 4)
  /-- MAD (R122). -/
  | mad (m : Mods) (d : Reg) (a : Reg) (b : Reg)
  /-- MADWS (R122). -/
  | madws (m : Mods) (d : Reg) (a : Reg) (b : Reg)
  /-- MADWU (R122). -/
  | madwu (m : Mods) (d : Reg) (a : Reg) (b : Reg)
  /-- DP4S (R122). -/
  | dp4s (m : Mods) (d : Reg) (a : Reg) (b : Reg)
  /-- DP4U (R122). -/
  | dp4u (m : Mods) (d : Reg) (a : Reg) (b : Reg)
  /-- CMP (R124). -/
  | cmp (m : Mods) (p : Pred) (a : Reg) (b : Reg) (c : Cond) (t : CmpType)
  /-- CMP_IMM (R124). -/
  | cmpImm (m : Mods) (p : Pred) (a : Reg) (c : Cond) (t : IntType) (i : BitVec 10)
  /-- SEL (R125). -/
  | sel (m : Mods) (d : Reg) (a : Reg) (b : Reg) (s : Pred) (n : Bool) (w : Bool)
  /-- PAND (R126). -/
  | pand (m : Mods) (p : Pred) (a : Pred) (mk : Bool) (b : Pred) (o : Bool)
  /-- POR (R126). -/
  | por (m : Mods) (p : Pred) (a : Pred) (mk : Bool) (b : Pred) (o : Bool)
  /-- PXOR (R126). -/
  | pxor (m : Mods) (p : Pred) (a : Pred) (mk : Bool) (b : Pred) (o : Bool)
  /-- P2G (R126). -/
  | p2g (m : Mods) (g : Reg)
  /-- G2P (R126). -/
  | g2p (m : Mods) (g : Reg)
  /-- BRA (R131). -/
  | bra (m : Mods) (p : Pred) (n : Bool) (i : BitVec 19)
  /-- CALL (R133). -/
  | call (m : Mods) (p : Pred) (n : Bool) (i : BitVec 19)
  /-- LOOP (R135). -/
  | loop (m : Mods) (l : Bool) (a : Reg) (o : BitVec 16)
  /-- LBRK (R137). -/
  | lbrk (m : Mods) (l : Bool)
  /-- JMP (R133). -/
  | jmp (m : Mods) (p : Pred) (n : Bool) (a : Reg)
  /-- CALLI (R133). -/
  | calli (m : Mods) (p : Pred) (n : Bool) (a : Reg)
  /-- RET (R133). -/
  | ret (m : Mods) (p : Pred) (n : Bool)
  /-- JOIN (R139). -/
  | join (m : Mods) (p : Pred) (n : Bool)
  /-- YIELD (R140). -/
  | yield (m : Mods) (p : Pred) (n : Bool)
  /-- SLEEP (R140). -/
  | sleep (m : Mods) (p : Pred) (n : Bool) (i : BitVec 19)
  /-- EXIT (R141). -/
  | exit (m : Mods) (p : Pred) (n : Bool)
  /-- BEQ (R131). -/
  | beq (m : Mods) (a : Reg) (b : Reg) (o : BitVec 9)
  /-- BNE (R131). -/
  | bne (m : Mods) (a : Reg) (b : Reg) (o : BitVec 9)
  /-- BLT (R131). -/
  | blt (m : Mods) (a : Reg) (b : Reg) (o : BitVec 9)
  /-- BGE (R131). -/
  | bge (m : Mods) (a : Reg) (b : Reg) (o : BitVec 9)
  /-- BLTU (R131). -/
  | bltu (m : Mods) (a : Reg) (b : Reg) (o : BitVec 9)
  /-- BGEU (R131). -/
  | bgeu (m : Mods) (a : Reg) (b : Reg) (o : BitVec 9)
  /-- FADD (R146). -/
  | fadd (m : Mods) (d : Reg) (a : Reg) (b : Reg)
  /-- FSUB (R146). -/
  | fsub (m : Mods) (d : Reg) (a : Reg) (b : Reg)
  /-- FMUL (R146). -/
  | fmul (m : Mods) (d : Reg) (a : Reg) (b : Reg)
  /-- FMA (R146). -/
  | fma (m : Mods) (d : Reg) (a : Reg) (b : Reg)
  /-- FMIN (R147). -/
  | fmin (m : Mods) (d : Reg) (a : Reg) (b : Reg)
  /-- FMAX (R147). -/
  | fmax (m : Mods) (d : Reg) (a : Reg) (b : Reg)
  /-- FMINNUM (R147). -/
  | fminnum (m : Mods) (d : Reg) (a : Reg) (b : Reg)
  /-- FMAXNUM (R147). -/
  | fmaxnum (m : Mods) (d : Reg) (a : Reg) (b : Reg)
  /-- FABS (R145). -/
  | fabs (m : Mods) (d : Reg) (a : Reg)
  /-- FNEG (R145). -/
  | fneg (m : Mods) (d : Reg) (a : Reg)
  /-- FCLASS (R148). -/
  | fclass (m : Mods) (d : Reg) (a : Reg)
  /-- FCOPYSIGN (R145). -/
  | fcopysign (m : Mods) (d : Reg) (a : Reg) (b : Reg)
  /-- FSCALE (R146). -/
  | fscale (m : Mods) (d : Reg) (a : Reg) (b : Reg)
  /-- FADD_X2 (R149). -/
  | faddX2 (m : Mods) (d : Reg) (a : Reg) (b : Reg) (f : HalfFmt)
  /-- FSUB_X2 (R149). -/
  | fsubX2 (m : Mods) (d : Reg) (a : Reg) (b : Reg) (f : HalfFmt)
  /-- FMUL_X2 (R149). -/
  | fmulX2 (m : Mods) (d : Reg) (a : Reg) (b : Reg) (f : HalfFmt)
  /-- FMA_X2 (R149). -/
  | fmaX2 (m : Mods) (d : Reg) (a : Reg) (b : Reg) (f : HalfFmt)
  /-- FMIN_X2 (R149). -/
  | fminX2 (m : Mods) (d : Reg) (a : Reg) (b : Reg) (f : HalfFmt)
  /-- FMAX_X2 (R149). -/
  | fmaxX2 (m : Mods) (d : Reg) (a : Reg) (b : Reg) (f : HalfFmt)
  /-- FABS_X2 (R149). -/
  | fabsX2 (m : Mods) (d : Reg) (a : Reg) (f : HalfFmt)
  /-- FNEG_X2 (R149). -/
  | fnegX2 (m : Mods) (d : Reg) (a : Reg) (f : HalfFmt)
  /-- DOT2 (R150). -/
  | dot2 (m : Mods) (d : Reg) (a : Reg) (b : Reg) (f : HalfFmt)
  /-- RCP (R151). -/
  | rcp (m : Mods) (d : Reg) (a : Reg)
  /-- RSQ (R151). -/
  | rsq (m : Mods) (d : Reg) (a : Reg)
  /-- SQRT (R151). -/
  | sqrt (m : Mods) (d : Reg) (a : Reg)
  /-- EX2 (R151). -/
  | ex2 (m : Mods) (d : Reg) (a : Reg)
  /-- LG2 (R151). -/
  | lg2 (m : Mods) (d : Reg) (a : Reg)
  /-- SIN (R151). -/
  | sin (m : Mods) (d : Reg) (a : Reg)
  /-- COS (R151). -/
  | cos (m : Mods) (d : Reg) (a : Reg)
  /-- TANH (R151). -/
  | tanh (m : Mods) (d : Reg) (a : Reg)
  /-- DIV (R151). -/
  | div (m : Mods) (d : Reg) (a : Reg) (b : Reg)
  /-- CVT (R155). -/
  | cvt (m : Mods) (d : Reg) (a : Reg) (t : Fmt) (f : Fmt) (p : Fin 4) (s : Fin 4)
  /-- QC4 (R156). -/
  | qc4 (m : Mods) (d : Reg) (a : Reg) (b : Reg)
  /-- DQC4 (R157). -/
  | dqc4 (m : Mods) (d : Reg) (a : Reg) (b : Reg)
  /-- RAND (R160). -/
  | rand (m : Mods) (d : Reg) (a : Reg) (b : Reg)
  /-- RANDF (R160). -/
  | randf (m : Mods) (d : Reg) (a : Reg) (b : Reg)
  /-- XLANE (R163). -/
  | xlane (m : Mods) (d : Reg) (a : Reg) (mk : XMode) (i : Bool) (l : Fin 32) (c : Fin 16)
  /-- AGREE_ALL (R164). -/
  | agreeAll (m : Mods) (a : PredSel) (p : Pred) (c : Fin 16)
  /-- AGREE_SOME (R164). -/
  | agreeSome (m : Mods) (a : PredSel) (p : Pred) (c : Fin 16)
  /-- AGREE_SAME (R164). -/
  | agreeSame (m : Mods) (a : PredSel) (p : Pred) (c : Fin 16)
  /-- AGREE_MASK (R164). -/
  | agreeMask (m : Mods) (d : Reg) (a : PredSel) (c : Fin 16)
  /-- PEERS (R164). -/
  | peers (m : Mods) (d : Reg) (a : Reg) (c : Fin 16)
  /-- PEERS_ALL (R164). -/
  | peersAll (m : Mods) (d : Reg) (a : Reg) (p : Pred) (c : Fin 16)
  /-- AGREE_COUNT (R164). -/
  | agreeCount (m : Mods) (d : Reg) (a : PredSel) (c : Fin 16)
  /-- GRED (R165). -/
  | gred (m : Mods) (d : Reg) (a : Reg) (p : Pred) (o : GroupOp) (f : Bool) (c : Fin 16)
  /-- GSCAN (R165). -/
  | gscan (m : Mods) (d : Reg) (a : Reg) (p : Pred) (o : GroupOp) (f : Bool) (c : Fin 16)
  /-- GSCANX (R165). -/
  | gscanx (m : Mods) (d : Reg) (a : Reg) (p : Pred) (o : GroupOp) (f : Bool) (c : Fin 16)
  /-- MMA (R183). -/
  | mma (m : Mods) (d : Fin 16) (a : Fin 32) (b : Fin 32) (h : Fin 32) (f : MmaFmt) (c : Fin 16) (z : Bool)
  /-- MMA_PART (R184). -/
  | mmaPart (m : Mods) (d : Fin 16) (a : Fin 32) (b : Fin 32) (h : Fin 32) (f : Fp8Fmt) (s : Bool) (c : Fin 16)
  /-- MMA_C4 (R185). -/
  | mmaC4 (m : Mods) (d : Fin 16) (a : Fin 32) (b : Fin 32) (h : Fin 32) (s : Bool) (c : Fin 16)
  /-- SCACC (R186). -/
  | scacc (m : Mods) (d : Fin 16) (p : Fin 16) (a : Fin 32) (b : Fin 32) (c : Fin 16)
  /-- ACCMOV (R186). -/
  | accmov (m : Mods) (d : Fin 16) (p : Fin 16) (c : Fin 16)
  /-- ACCZERO (R186). -/
  | acczero (m : Mods) (d : Fin 16) (c : Fin 16)
  /-- ACCADD (R186). -/
  | accadd (m : Mods) (d : Fin 16) (p : Fin 16) (c : Fin 16)
  /-- LD (R194). -/
  | ld (m : Mods) (v : Reg) (b : Reg) (s : Space) (w : MemWidth) (o : BitVec 7)
  /-- ST (R194). -/
  | st (m : Mods) (v : Reg) (b : Reg) (s : Space) (w : MemWidth) (o : BitVec 7)
  /-- LD_ACQ (R195). -/
  | ldAcq (m : Mods) (v : Reg) (b : Reg) (s : Space) (w : MemWidth) (c : Scope)
  /-- ST_REL (R195). -/
  | stRel (m : Mods) (v : Reg) (b : Reg) (s : Space) (w : MemWidth) (c : Scope)
  /-- LDFE (R198). -/
  | ldfe (m : Mods) (v : Reg) (b : Reg) (w : GranWidth) (o : BitVec 6)
  /-- LDFEC (R198). -/
  | ldfec (m : Mods) (v : Reg) (b : Reg) (w : GranWidth) (o : BitVec 6)
  /-- STFULL (R198). -/
  | stfull (m : Mods) (v : Reg) (b : Reg) (w : GranWidth) (o : BitVec 6)
  /-- LDFIFO (R200). -/
  | ldfifo (m : Mods) (v : Reg) (w : GranWidth) (o : BitVec 6)
  /-- STFIFO (R200). -/
  | stfifo (m : Mods) (v : Reg) (w : GranWidth) (o : BitVec 6)
  /-- PF_L1 (R202). -/
  | pfL1 (m : Mods) (b : Reg) (o : BitVec 12)
  /-- PF_MSC (R202). -/
  | pfMsc (m : Mods) (b : Reg) (o : BitVec 12)
  /-- WB (R202). -/
  | wb (m : Mods) (s : Scope) (b : Reg) (o : BitVec 12)
  /-- INV (R202). -/
  | inv (m : Mods) (s : Scope) (b : Reg) (o : BitVec 12)
  /-- WBINV (R202). -/
  | wbinv (m : Mods) (s : Scope) (b : Reg) (o : BitVec 12)
  /-- ATOM (R205). -/
  | atom (m : Mods) (v : Reg) (b : Reg) (o : AtomOp) (w : Bool) (s : AtomSpace) (c : Scope) (r : MemOrd)
  /-- RED (R205). -/
  | red (m : Mods) (v : Reg) (b : Reg) (o : AtomOp) (w : Bool) (s : AtomSpace) (c : Scope) (r : MemOrd)
  /-- FENCE (R207). -/
  | fence (m : Mods) (s : Scope)
  /-- FENCE_ACQ (R207). -/
  | fenceAcq (m : Mods) (s : Scope)
  /-- FENCE_REL (R207). -/
  | fenceRel (m : Mods) (s : Scope)
  /-- TLFENCE (R208). -/
  | tlfence (m : Mods) (s : Scope)
  /-- BAR_INIT_IMM (R210). -/
  | barInitImm (m : Mods) (n : Fin 16) (i : BitVec 11)
  /-- BAR_INIT_REG (R210). -/
  | barInitReg (m : Mods) (n : Fin 16) (a : Reg)
  /-- BAR_ARR (R210). -/
  | barArr (m : Mods) (n : Fin 16)
  /-- BAR_WAIT (R210). -/
  | barWait (m : Mods) (n : Fin 16)
  /-- BAR_SYNC (R210). -/
  | barSync (m : Mods) (n : Fin 16)
  /-- CVDECL_IMM (R213). -/
  | cvdeclImm (m : Mods) (n : Fin 16) (i : BitVec 11)
  /-- CVDECL_REG (R213). -/
  | cvdeclReg (m : Mods) (n : Fin 16) (a : Reg)
  /-- CVSYNC (R215). -/
  | cvsync (m : Mods) (n : Fin 16)
  /-- ELECT (R216). -/
  | elect (m : Mods) (n : Fin 16) (k : Pred)
  /-- RELEASE (R216). -/
  | release (m : Mods) (n : Fin 16)
  /-- LDV_MIN (R221). -/
  | ldvMin (m : Mods) (d : Reg) (b : Reg) (s : Reg) (w : VerWidth)
  /-- LDV_AT (R221). -/
  | ldvAt (m : Mods) (d : Reg) (b : Reg) (s : Reg) (w : VerWidth)
  /-- VPIN (R221). -/
  | vpin (m : Mods) (d : Reg) (b : Reg) (s : Reg)
  /-- VUNPIN (R221). -/
  | vunpin (m : Mods) (b : Reg)
  /-- STEP_ADV (R224). -/
  | stepAdv (m : Mods) (a : Reg)
  /-- RGN_B (R227). -/
  | rgnB (m : Mods) (a : Reg) (mk : BitVec 16)
  /-- RGN_E (R383). -/
  | rgnE (m : Mods)
  /-- TKWAIT (R231). -/
  | tkwait (m : Mods)
  /-- TKPASS (R231). -/
  | tkpass (m : Mods)
  /-- TCOPY (R234). -/
  | tcopy (m : Mods) (d : Reg) (r : Fin 16)
  /-- QPUT (R235). -/
  | qput (m : Mods) (d : Reg) (a : Reg)
  /-- COLL (R368). -/
  | coll (m : Mods) (d : Reg) (a : Reg) (r : Fin 16)
  /-- SPAWN (R237). -/
  | spawn (m : Mods) (d : Reg) (a : Reg)
  /-- BIN (R239). -/
  | bin (m : Mods) (d : Reg) (a : Reg) (b : Reg)
  /-- BINREL (R239). -/
  | binrel (m : Mods) (a : Reg)
  /-- CARVE (R240). -/
  | carve (m : Mods) (d : Reg) (a : Reg) (b : Reg)
  /-- MFS (R242). -/
  | mfs (m : Mods) (r : Reg) (n : BitVec 10)
  /-- MTS (R242). -/
  | mts (m : Mods) (r : Reg) (n : BitVec 10)
  /-- TRAP (R243). -/
  | trap (m : Mods) (n : BitVec 10)
  /-- TRET (R244). -/
  | tret (m : Mods)
  /-- TRET_SKIP (R244). -/
  | tretSkip (m : Mods)
  /-- ENRD (R245). -/
  | enrd (m : Mods) (r : Reg) (n : BitVec 10)
  /-- BRK (R243). -/
  | brk (m : Mods) (n : BitVec 10)
  /-- CLAUSE_START (R50). -/
  | clauseStart (th : Nat)
  /-- LANE_RESULT_WRITE (R51). -/
  | laneResultWrite (th : Nat)
  /-- EJECT_HANDOVER (R346). -/
  | ejectHandover (th : Nat)
  /-- RECALL (R350). -/
  | recall (th : Nat)
  /-- RECALL_COMPLETE (R350). -/
  | recallComplete (th : Nat)
  /-- JOIN_TIMEOUT (R139). -/
  | joinTimeout (th : Nat)
  /-- SLEEP_EXPIRE (R140). -/
  | sleepExpire (th : Nat)
  /-- MEMORY_OP_COMPLETE (R192). -/
  | memoryOpComplete (op : Nat)
  /-- TRANSCENDENTAL_COMPLETE (R153). -/
  | transcendentalComplete (op : Nat)
  /-- MATRIX_ISSUE (R171). -/
  | matrixIssue (team : Nat) (cv : Nat)
  /-- MATRIX_COMPLETE (R170). -/
  | matrixComplete (op : Nat)
  /-- TEAM_FREEZE (R379). -/
  | teamFreeze (team : Nat)
  /-- ACCESS_FAILURE (R382). -/
  | accessFailure (th : Nat)
  /-- REGION_RESTART (R229). -/
  | regionRestart (th : Nat)
  /-- PAGE_WALK (R269). -/
  | pageWalk (th : Nat)
  /-- XLINV (R272). -/
  | xlinv (q : Nat)
  /-- XLINV_COMPLETE (R272). -/
  | xlinvComplete (inv : Nat)
  /-- PREEMPTION (R339). -/
  | preemption (pl : Nat)
  /-- TEAM_SAVE (R339). -/
  | teamSave (team : Nat)
  /-- TEAM_RESTORE (R386). -/
  | teamRestore (team : Nat)
  /-- VERSION_TIMEOUT (R221). -/
  | versionTimeout (th : Nat)
  /-- INSTALL_FRAME_TAKE (R300). -/
  | installFrameTake (inst : Nat)
  /-- INSTALL_COMPLETE (R300). -/
  | installComplete (inst : Nat)
  /-- INSTALL_STALL (R300). -/
  | installStall (inst : Nat)
  /-- VCREATE (R298). -/
  | vcreate (q : Nat)
  /-- VDESTROY (R298). -/
  | vdestroy (q : Nat)
  /-- VDESTROY_COMPLETE (R298). -/
  | vdestroyComplete (entry : Nat)
  /-- WORKER (R304). -/
  | worker (q : Nat)
  /-- PROGRESS_MESSAGE (R307). -/
  | progressMessage (job : Nat) (widx : Nat) (stp : Nat)
  /-- LEAVE_MESSAGE (R307). -/
  | leaveMessage (job : Nat) (widx : Nat)
  /-- HEARTBEAT (R306). -/
  | heartbeat (l : Nat)
  /-- PEER_SILENT (R308). -/
  | peerSilent (entry : Nat)
  /-- KICK (R317). -/
  | kick (dev : Nat) (num : Nat) (value : Nat)
  /-- QUEUE_REREAD (R318). -/
  | queueReread (q : Nat)
  /-- LAUNCH (R321). -/
  | launch (q : Nat)
  /-- NOP (R316). -/
  | nop (q : Nat)
  /-- COPY (R361). -/
  | copy (q : Nat)
  /-- QCREATE (R323). -/
  | qcreate (q : Nat)
  /-- PLACEMENT (R331). -/
  | placement (pl : Nat)
  /-- SPAWN_DESCRIPTOR (R328). -/
  | spawnDescriptor (op : Nat)
  /-- LAUNCH_COMPLETE (R329). -/
  | launchComplete (l : Nat)
  /-- QPUT_SLOT_WRITE (R235). -/
  | qputSlotWrite (op : Nat)
  /-- CARVE_COMPLETE (R253). -/
  | carveComplete (by_ : CarveBy)
  /-- DIRTY_WRITEBACK (R286). -/
  | dirtyWriteback (core : Nat) (line : Nat)
  /-- HOST_ACCESS (R293). -/
  | hostAccess (place : HostPlace) (bytes : Nat) (wr : Option Nat)
  /-- HOST_BAR2_ACCESS (R398). -/
  | hostBar2Access (vd : Nat) (off : Nat) (bytes : Nat) (wr : Option Nat)
  /-- HOST_SNOOP (R397). -/
  | hostSnoop (hpa : Nat) (inval : Bool)
  /-- POD_REMOTE_REQUEST (R388). -/
  | podRemoteRequest (src : Nat) (pa : Nat) (req : RemoteReq) (late : Bool)
  /-- REMOTE_DEADLINE (R391). -/
  | remoteDeadline (op : Nat)
  /-- PLANE_DOWN (R392). -/
  | planeDown (p : Nat)
  /-- PLMAP_WRITE (R392). -/
  | plmapWrite (v : BitVec 24)
  /-- PLMAP_EFFECT (R392). -/
  | plmapEffect
  /-- TRANSPORT_ABANDON (R394). -/
  | transportAbandon (stage : Nat)
  /-- TCOPY_ACCEPT (R355). -/
  | tcopyAccept (op : Nat)
  /-- TCOPY_COMPLETE (R358). -/
  | tcopyComplete (copy : Nat)
  /-- QUEUE_COPY_COMPLETE (R362). -/
  | queueCopyComplete (copy : Nat)
  /-- BINREL_RELEASE (R366). -/
  | binrelRelease (op : Nat)
  /-- COLL_CONTRIBUTION_READ (R236). -/
  | collContributionRead (stage : Nat)
  /-- CONTRIBUTION_ARRIVAL (R369). -/
  | contributionArrival (c : Contribution)
  /-- STEP_TIMER (R369). -/
  | stepTimer (coll : Nat)
  /-- COLLECTIVE_RESULT (R373). -/
  | collectiveResult (r : StepResult)
  /-- REPLAY_MISSING (R437). -/
  | replayMissing (coll : Nat)
  /-- PARTITION_WRITE (R413). -/
  | partitionWrite
  /-- VDEV_CREATE (R404). -/
  | vdevCreate
  /-- VDEV_DESTROY (R404). -/
  | vdevDestroy
  /-- ATTEST (R419). -/
  | attest
  /-- STAGE_IMAGE (R420). -/
  | stageImage
  /-- HANDOVER (R420). -/
  | handover
  /-- SET_PCAP (R423). -/
  | setPcap
  /-- REGISTER_PF_QUEUE (R324). -/
  | registerPfQueue
  /-- HOK (R421). -/
  | hok
  /-- HANDOVER_TIMEOUT (R422). -/
  | handoverTimeout
  /-- PENRST (R416). -/
  | penrst
  /-- LULL_REQUEST (R406). -/
  | lullRequest (vd : Nat)
  /-- WAKE_WRITE (R406). -/
  | wakeWrite (vd : Nat)
  /-- IDLE_TIMEOUT (R406). -/
  | idleTimeout (vd : Nat)
  /-- COLLAPSE_COMPLETE (R407). -/
  | collapseComplete (vd : Nat)
  /-- WAKE_COMPLETE (R409). -/
  | wakeComplete (vd : Nat)
  /-- POWER_CONTROL (R423). -/
  | powerControl (mean : Nat)
  /-- RAMP_STEP (R426). -/
  | rampStep (core : Nat)
  /-- THERMAL_TRIP (R427). -/
  | thermalTrip (temp : Nat)
  /-- TRIP_CLEAR (R427). -/
  | tripClear (temp : Nat)
  /-- ENERGY_UPDATE (R428). -/
  | energyUpdate (spent : Measured) (lull : List (Nat × Nat))
  /-- STOP_TICK (R435). -/
  | stopTick
  /-- PACKAGE_RESET (R13). -/
  | packageReset
  /-- REGISTER_WRITE (R5). -/
  | registerWrite (who : Agent) (pa : Nat) (value : DWord)
  /-- ILLEGAL_INSN (R75). -/
  | illegalInsn (r : Reject)
  /-- BAD_TYPE_PACKET (R316). -/
  | badTypePacket (q : Nat)
  /-- MAILBOX_REFUSED (R412). -/
  | mailboxRefused
  /-- CONTRIBUTION_ACK (R368). -/
  | contributionAck (stage : Nat)
  /-- PLANE_UP (R390). -/
  | planeUp (p : Nat)
  /-- BIN_COMPLETE (R239). -/
  | binComplete (op : Nat)
  /-- UNCORRECTABLE_ERROR (R249). -/
  | uncorrectableError (at_ : ErrTarget)
  deriving DecidableEq, Repr

end Sys2Proof
end

