-- ==== Sys2Proof/Machine/Encoding.lean ====
section
/-! DEFINITION. The encoding table (R64 to R73): the codes of every field, one row for each
encoded instruction of the opcode table, and what may stand before it (R57, R64). -/

namespace Sys2Proof

/-- The code of each name of Rnd. -/
def Rnd.code : Rnd → Nat
  | .rne => 0
  | .rtz => 1
  | .rup => 2
  | .rdn => 3
  | .rna => 4
  | .sr => 5
  | .fpcsr => 7

/-- The name a code of Rnd stands for; none for a reserved code (R63). -/
def Rnd.ofCode : Nat → Option Rnd
  | 0 => some .rne
  | 1 => some .rtz
  | 2 => some .rup
  | 3 => some .rdn
  | 4 => some .rna
  | 5 => some .sr
  | 7 => some .fpcsr
  | _ => none

/-- The code of each name of Cond. -/
def Cond.code : Cond → Nat
  | .eq => 0
  | .ne => 1
  | .lt => 2
  | .le => 3
  | .gt => 4
  | .ge => 5
  | .num => 6
  | .nan => 7
  | .ueq => 8
  | .une => 9
  | .ult => 10
  | .ule => 11
  | .ugt => 12
  | .uge => 13

/-- The name a code of Cond stands for; none for a reserved code (R63). -/
def Cond.ofCode : Nat → Option Cond
  | 0 => some .eq
  | 1 => some .ne
  | 2 => some .lt
  | 3 => some .le
  | 4 => some .gt
  | 5 => some .ge
  | 6 => some .num
  | 7 => some .nan
  | 8 => some .ueq
  | 9 => some .une
  | 10 => some .ult
  | 11 => some .ule
  | 12 => some .ugt
  | 13 => some .uge
  | _ => none

/-- The code of each name of CmpType. -/
def CmpType.code : CmpType → Nat
  | .s32 => 0
  | .u32 => 1
  | .s64 => 2
  | .u64 => 3
  | .f32 => 4
  | .f16 => 5
  | .bf16 => 6

/-- The name a code of CmpType stands for; none for a reserved code (R63). -/
def CmpType.ofCode : Nat → Option CmpType
  | 0 => some .s32
  | 1 => some .u32
  | 2 => some .s64
  | 3 => some .u64
  | 4 => some .f32
  | 5 => some .f16
  | 6 => some .bf16
  | _ => none

/-- The code of each name of IntType. -/
def IntType.code : IntType → Nat
  | .s32 => 0
  | .u32 => 1
  | .s64 => 2
  | .u64 => 3

/-- The name a code of IntType stands for; none for a reserved code (R63). -/
def IntType.ofCode : Nat → Option IntType
  | 0 => some .s32
  | 1 => some .u32
  | 2 => some .s64
  | 3 => some .u64
  | _ => none

/-- The code of each name of HalfFmt. -/
def HalfFmt.code : HalfFmt → Nat
  | .f16 => 0
  | .bf16 => 1

/-- The name a code of HalfFmt stands for; none for a reserved code (R63). -/
def HalfFmt.ofCode : Nat → Option HalfFmt
  | 0 => some .f16
  | 1 => some .bf16
  | _ => none

/-- The code of each name of Fmt. -/
def Fmt.code : Fmt → Nat
  | .f32 => 0
  | .f16 => 1
  | .bf16 => 2
  | .e4m3 => 3
  | .e5m2 => 4
  | .s8 => 5
  | .u8 => 6
  | .s16 => 7
  | .u16 => 8
  | .s32 => 9
  | .u32 => 10
  | .s64 => 11
  | .u64 => 12

/-- The name a code of Fmt stands for; none for a reserved code (R63). -/
def Fmt.ofCode : Nat → Option Fmt
  | 0 => some .f32
  | 1 => some .f16
  | 2 => some .bf16
  | 3 => some .e4m3
  | 4 => some .e5m2
  | 5 => some .s8
  | 6 => some .u8
  | 7 => some .s16
  | 8 => some .u16
  | 9 => some .s32
  | 10 => some .u32
  | 11 => some .s64
  | 12 => some .u64
  | _ => none

/-- The code of each name of XMode. -/
def XMode.code : XMode → Nat
  | .pick => 0
  | .rotup => 1
  | .rotdn => 2
  | .mirror => 3

/-- The name a code of XMode stands for; none for a reserved code (R63). -/
def XMode.ofCode : Nat → Option XMode
  | 0 => some .pick
  | 1 => some .rotup
  | 2 => some .rotdn
  | 3 => some .mirror
  | _ => none

/-- The code of each name of GroupOp. -/
def GroupOp.code : GroupOp → Nat
  | .add => 0
  | .mins => 1
  | .minu => 2
  | .maxs => 3
  | .maxu => 4
  | .and => 5
  | .or => 6
  | .xor => 7

/-- The name a code of GroupOp stands for; none for a reserved code (R63). -/
def GroupOp.ofCode : Nat → Option GroupOp
  | 0 => some .add
  | 1 => some .mins
  | 2 => some .minu
  | 3 => some .maxs
  | 4 => some .maxu
  | 5 => some .and
  | 6 => some .or
  | 7 => some .xor
  | _ => none

/-- The code of each name of MmaFmt. -/
def MmaFmt.code : MmaFmt → Nat
  | .bf16 => 0
  | .f16 => 1
  | .e4m3 => 2
  | .e5m2 => 3

/-- The name a code of MmaFmt stands for; none for a reserved code (R63). -/
def MmaFmt.ofCode : Nat → Option MmaFmt
  | 0 => some .bf16
  | 1 => some .f16
  | 2 => some .e4m3
  | 3 => some .e5m2
  | _ => none

/-- The code of each name of Fp8Fmt. -/
def Fp8Fmt.code : Fp8Fmt → Nat
  | .e4m3 => 0
  | .e5m2 => 1

/-- The name a code of Fp8Fmt stands for; none for a reserved code (R63). -/
def Fp8Fmt.ofCode : Nat → Option Fp8Fmt
  | 0 => some .e4m3
  | 1 => some .e5m2
  | _ => none

/-- The code of each name of Space. -/
def Space.code : Space → Nat
  | .gl => 0
  | .sc => 1
  | .cl => 2
  | .pv => 3

/-- The name a code of Space stands for; none for a reserved code (R63). -/
def Space.ofCode : Nat → Option Space
  | 0 => some .gl
  | 1 => some .sc
  | 2 => some .cl
  | 3 => some .pv
  | _ => none

/-- The code of each name of AtomSpace. -/
def AtomSpace.code : AtomSpace → Nat
  | .gl => 0
  | .sc => 1
  | .cl => 2

/-- The name a code of AtomSpace stands for; none for a reserved code (R63). -/
def AtomSpace.ofCode : Nat → Option AtomSpace
  | 0 => some .gl
  | 1 => some .sc
  | 2 => some .cl
  | _ => none

/-- The code of each name of MemWidth. -/
def MemWidth.code : MemWidth → Nat
  | .b8 => 0
  | .b16 => 1
  | .b32 => 2
  | .b64 => 3
  | .b128 => 4
  | .s8 => 5
  | .s16 => 6

/-- The name a code of MemWidth stands for; none for a reserved code (R63). -/
def MemWidth.ofCode : Nat → Option MemWidth
  | 0 => some .b8
  | 1 => some .b16
  | 2 => some .b32
  | 3 => some .b64
  | 4 => some .b128
  | 5 => some .s8
  | 6 => some .s16
  | _ => none

/-- The code of each name of GranWidth. -/
def GranWidth.code : GranWidth → Nat
  | .b32 => 2
  | .b64 => 3
  | .b128 => 4

/-- The name a code of GranWidth stands for; none for a reserved code (R63). -/
def GranWidth.ofCode : Nat → Option GranWidth
  | 2 => some .b32
  | 3 => some .b64
  | 4 => some .b128
  | _ => none

/-- The code of each name of VerWidth. -/
def VerWidth.code : VerWidth → Nat
  | .b32 => 0
  | .b64 => 1
  | .b128 => 2

/-- The name a code of VerWidth stands for; none for a reserved code (R63). -/
def VerWidth.ofCode : Nat → Option VerWidth
  | 0 => some .b32
  | 1 => some .b64
  | 2 => some .b128
  | _ => none

/-- The code of each name of Scope. -/
def Scope.code : Scope → Nat
  | .grp => 0
  | .team => 1
  | .clu => 2
  | .dev => 3
  | .pod => 4
  | .sys => 5

/-- The name a code of Scope stands for; none for a reserved code (R63). -/
def Scope.ofCode : Nat → Option Scope
  | 0 => some .grp
  | 1 => some .team
  | 2 => some .clu
  | 3 => some .dev
  | 4 => some .pod
  | 5 => some .sys
  | _ => none

/-- The code of each name of AtomOp. -/
def AtomOp.code : AtomOp → Nat
  | .add => 0
  | .mins => 1
  | .minu => 2
  | .maxs => 3
  | .maxu => 4
  | .and => 5
  | .or => 6
  | .xor => 7
  | .xchg => 8
  | .cas => 9
  | .fadd => 10

/-- The name a code of AtomOp stands for; none for a reserved code (R63). -/
def AtomOp.ofCode : Nat → Option AtomOp
  | 0 => some .add
  | 1 => some .mins
  | 2 => some .minu
  | 3 => some .maxs
  | 4 => some .maxu
  | 5 => some .and
  | 6 => some .or
  | 7 => some .xor
  | 8 => some .xchg
  | 9 => some .cas
  | 10 => some .fadd
  | _ => none

/-- The code of each name of MemOrd. -/
def MemOrd.code : MemOrd → Nat
  | .rlx => 0
  | .acq => 1
  | .rel => 2
  | .ar => 3

/-- The name a code of MemOrd stands for; none for a reserved code (R63). -/
def MemOrd.ofCode : Nat → Option MemOrd
  | 0 => some .rlx
  | 1 => some .acq
  | 2 => some .rel
  | 3 => some .ar
  | _ => none

/-- How a field type is encoded: a code for every value, and the value a code stands for. -/
structure Codec (α : Type) where
  code : α → Nat
  ofCode : Nat → Option α

/-- Numbers below n. -/
def finCodec (n : Nat) : Codec (Fin n) :=
  ⟨Fin.val, fun c => if h : c < n then some ⟨c, h⟩ else none⟩

/-- General register numbers (R62). -/
def regCodec : Codec Reg := finCodec 128

/-- Predicate numbers (R18). -/
def predCodec : Codec Pred := finCodec 8

/-- Uninterpreted bits. -/
def bitsCodec (n : Nat) : Codec (BitVec n) :=
  ⟨BitVec.toNat, fun c => if c < 2 ^ n then some (BitVec.ofNat n c) else none⟩

/-- One bit. -/
def boolCodec : Codec Bool :=
  ⟨fun b => if b then 1 else 0, fun c => if c = 0 then some false else if c = 1 then some true else none⟩

/-- SA[6:3] of the agreement forms: the predicate above, the negation in the low bit (R70). -/
def predSelCodec : Codec PredSel :=
  ⟨fun s => s.p.val * 2 + (if s.neg then 1 else 0),
   fun c => if h : c / 2 < 8 then some ⟨⟨c / 2, h⟩, decide (c % 2 = 1)⟩ else none⟩

/-- The codec of Rnd. -/
def rndCodec : Codec Rnd := ⟨Rnd.code, Rnd.ofCode⟩

/-- The codec of Cond. -/
def condCodec : Codec Cond := ⟨Cond.code, Cond.ofCode⟩

/-- The codec of CmpType. -/
def cmpTypeCodec : Codec CmpType := ⟨CmpType.code, CmpType.ofCode⟩

/-- The codec of IntType. -/
def intTypeCodec : Codec IntType := ⟨IntType.code, IntType.ofCode⟩

/-- The codec of HalfFmt. -/
def halfFmtCodec : Codec HalfFmt := ⟨HalfFmt.code, HalfFmt.ofCode⟩

/-- The codec of Fmt. -/
def fmtCodec : Codec Fmt := ⟨Fmt.code, Fmt.ofCode⟩

/-- The codec of XMode. -/
def xModeCodec : Codec XMode := ⟨XMode.code, XMode.ofCode⟩

/-- The codec of GroupOp. -/
def groupOpCodec : Codec GroupOp := ⟨GroupOp.code, GroupOp.ofCode⟩

/-- The codec of MmaFmt. -/
def mmaFmtCodec : Codec MmaFmt := ⟨MmaFmt.code, MmaFmt.ofCode⟩

/-- The codec of Fp8Fmt. -/
def fp8FmtCodec : Codec Fp8Fmt := ⟨Fp8Fmt.code, Fp8Fmt.ofCode⟩

/-- The codec of Space. -/
def spaceCodec : Codec Space := ⟨Space.code, Space.ofCode⟩

/-- The codec of AtomSpace. -/
def atomSpaceCodec : Codec AtomSpace := ⟨AtomSpace.code, AtomSpace.ofCode⟩

/-- The codec of MemWidth. -/
def memWidthCodec : Codec MemWidth := ⟨MemWidth.code, MemWidth.ofCode⟩

/-- The codec of GranWidth. -/
def granWidthCodec : Codec GranWidth := ⟨GranWidth.code, GranWidth.ofCode⟩

/-- The codec of VerWidth. -/
def verWidthCodec : Codec VerWidth := ⟨VerWidth.code, VerWidth.ofCode⟩

/-- The codec of Scope. -/
def scopeCodec : Codec Scope := ⟨Scope.code, Scope.ofCode⟩

/-- The codec of AtomOp. -/
def atomOpCodec : Codec AtomOp := ⟨AtomOp.code, AtomOp.ofCode⟩

/-- The codec of MemOrd. -/
def memOrdCodec : Codec MemOrd := ⟨MemOrd.code, MemOrd.ofCode⟩

/-- One row of the encoding table: an instruction word w is of this row when w and `mask` is
`pat`; `fields` gives the lowest bit and the width of each operand field, and `build` makes the
instruction from the chain before it and the field codes. -/
structure Row where
  pat : Nat
  mask : Nat
  fields : List (Nat × Nat)
  build : Mods → List Nat → Option Instr

/-- Builds an instruction of 0 fields. -/
def build0 (c : Mods → Instr) : Mods → List Nat → Option Instr
  | m, [] => some (c m)
  | _, _ => none

/-- Builds an instruction of 1 fields. -/
def build1 {α0 : Type} (c : Mods → α0 → Instr) (k0 : Codec α0) : Mods → List Nat → Option Instr
  | m, [x0] => (k0.ofCode x0).bind fun y0 => some (c m y0)
  | _, _ => none

/-- Builds an instruction of 2 fields. -/
def build2 {α0 α1 : Type} (c : Mods → α0 → α1 → Instr) (k0 : Codec α0) (k1 : Codec α1) : Mods → List Nat → Option Instr
  | m, [x0, x1] => (k0.ofCode x0).bind fun y0 => (k1.ofCode x1).bind fun y1 => some (c m y0 y1)
  | _, _ => none

/-- Builds an instruction of 3 fields. -/
def build3 {α0 α1 α2 : Type} (c : Mods → α0 → α1 → α2 → Instr) (k0 : Codec α0) (k1 : Codec α1) (k2 : Codec α2) : Mods → List Nat → Option Instr
  | m, [x0, x1, x2] => (k0.ofCode x0).bind fun y0 => (k1.ofCode x1).bind fun y1 => (k2.ofCode x2).bind fun y2 => some (c m y0 y1 y2)
  | _, _ => none

/-- Builds an instruction of 4 fields. -/
def build4 {α0 α1 α2 α3 : Type} (c : Mods → α0 → α1 → α2 → α3 → Instr) (k0 : Codec α0) (k1 : Codec α1) (k2 : Codec α2) (k3 : Codec α3) : Mods → List Nat → Option Instr
  | m, [x0, x1, x2, x3] => (k0.ofCode x0).bind fun y0 => (k1.ofCode x1).bind fun y1 => (k2.ofCode x2).bind fun y2 => (k3.ofCode x3).bind fun y3 => some (c m y0 y1 y2 y3)
  | _, _ => none

/-- Builds an instruction of 5 fields. -/
def build5 {α0 α1 α2 α3 α4 : Type} (c : Mods → α0 → α1 → α2 → α3 → α4 → Instr) (k0 : Codec α0) (k1 : Codec α1) (k2 : Codec α2) (k3 : Codec α3) (k4 : Codec α4) : Mods → List Nat → Option Instr
  | m, [x0, x1, x2, x3, x4] => (k0.ofCode x0).bind fun y0 => (k1.ofCode x1).bind fun y1 => (k2.ofCode x2).bind fun y2 => (k3.ofCode x3).bind fun y3 => (k4.ofCode x4).bind fun y4 => some (c m y0 y1 y2 y3 y4)
  | _, _ => none

/-- Builds an instruction of 6 fields. -/
def build6 {α0 α1 α2 α3 α4 α5 : Type} (c : Mods → α0 → α1 → α2 → α3 → α4 → α5 → Instr) (k0 : Codec α0) (k1 : Codec α1) (k2 : Codec α2) (k3 : Codec α3) (k4 : Codec α4) (k5 : Codec α5) : Mods → List Nat → Option Instr
  | m, [x0, x1, x2, x3, x4, x5] => (k0.ofCode x0).bind fun y0 => (k1.ofCode x1).bind fun y1 => (k2.ofCode x2).bind fun y2 => (k3.ofCode x3).bind fun y3 => (k4.ofCode x4).bind fun y4 => (k5.ofCode x5).bind fun y5 => some (c m y0 y1 y2 y3 y4 y5)
  | _, _ => none

/-- Builds an instruction of 7 fields. -/
def build7 {α0 α1 α2 α3 α4 α5 α6 : Type} (c : Mods → α0 → α1 → α2 → α3 → α4 → α5 → α6 → Instr) (k0 : Codec α0) (k1 : Codec α1) (k2 : Codec α2) (k3 : Codec α3) (k4 : Codec α4) (k5 : Codec α5) (k6 : Codec α6) : Mods → List Nat → Option Instr
  | m, [x0, x1, x2, x3, x4, x5, x6] => (k0.ofCode x0).bind fun y0 => (k1.ofCode x1).bind fun y1 => (k2.ofCode x2).bind fun y2 => (k3.ofCode x3).bind fun y3 => (k4.ofCode x4).bind fun y4 => (k5.ofCode x5).bind fun y5 => (k6.ofCode x6).bind fun y6 => some (c m y0 y1 y2 y3 y4 y5 y6)
  | _, _ => none

/-- Builds an instruction of 8 fields. -/
def build8 {α0 α1 α2 α3 α4 α5 α6 α7 : Type} (c : Mods → α0 → α1 → α2 → α3 → α4 → α5 → α6 → α7 → Instr) (k0 : Codec α0) (k1 : Codec α1) (k2 : Codec α2) (k3 : Codec α3) (k4 : Codec α4) (k5 : Codec α5) (k6 : Codec α6) (k7 : Codec α7) : Mods → List Nat → Option Instr
  | m, [x0, x1, x2, x3, x4, x5, x6, x7] => (k0.ofCode x0).bind fun y0 => (k1.ofCode x1).bind fun y1 => (k2.ofCode x2).bind fun y2 => (k3.ofCode x3).bind fun y3 => (k4.ofCode x4).bind fun y4 => (k5.ofCode x5).bind fun y5 => (k6.ofCode x6).bind fun y6 => (k7.ofCode x7).bind fun y7 => some (c m y0 y1 y2 y3 y4 y5 y6 y7)
  | _, _ => none

noncomputable section

/-- ADD. -/
def rowAdd : Row := ⟨0x04000000, 0xFC00001F, [(19, 7), (12, 7), (5, 7)], build3 .add regCodec regCodec regCodec⟩
/-- SUB. -/
def rowSub : Row := ⟨0x04000001, 0xFC00001F, [(19, 7), (12, 7), (5, 7)], build3 .sub regCodec regCodec regCodec⟩
/-- MUL. -/
def rowMul : Row := ⟨0x04000002, 0xFC00001F, [(19, 7), (12, 7), (5, 7)], build3 .mul regCodec regCodec regCodec⟩
/-- MULHS. -/
def rowMulhs : Row := ⟨0x04000003, 0xFC00001F, [(19, 7), (12, 7), (5, 7)], build3 .mulhs regCodec regCodec regCodec⟩
/-- MULHU. -/
def rowMulhu : Row := ⟨0x04000004, 0xFC00001F, [(19, 7), (12, 7), (5, 7)], build3 .mulhu regCodec regCodec regCodec⟩
/-- MINS. -/
def rowMins : Row := ⟨0x04000005, 0xFC00001F, [(19, 7), (12, 7), (5, 7)], build3 .mins regCodec regCodec regCodec⟩
/-- MINU. -/
def rowMinu : Row := ⟨0x04000006, 0xFC00001F, [(19, 7), (12, 7), (5, 7)], build3 .minu regCodec regCodec regCodec⟩
/-- MAXS. -/
def rowMaxs : Row := ⟨0x04000007, 0xFC00001F, [(19, 7), (12, 7), (5, 7)], build3 .maxs regCodec regCodec regCodec⟩
/-- MAXU. -/
def rowMaxu : Row := ⟨0x04000008, 0xFC00001F, [(19, 7), (12, 7), (5, 7)], build3 .maxu regCodec regCodec regCodec⟩
/-- AND. -/
def rowAnd : Row := ⟨0x04000009, 0xFC00001F, [(19, 7), (12, 7), (5, 7)], build3 .and regCodec regCodec regCodec⟩
/-- OR. -/
def rowOr : Row := ⟨0x0400000A, 0xFC00001F, [(19, 7), (12, 7), (5, 7)], build3 .or regCodec regCodec regCodec⟩
/-- XOR. -/
def rowXor : Row := ⟨0x0400000B, 0xFC00001F, [(19, 7), (12, 7), (5, 7)], build3 .xor regCodec regCodec regCodec⟩
/-- ANDN. -/
def rowAndn : Row := ⟨0x0400000C, 0xFC00001F, [(19, 7), (12, 7), (5, 7)], build3 .andn regCodec regCodec regCodec⟩
/-- SHL. -/
def rowShl : Row := ⟨0x0400000D, 0xFC00001F, [(19, 7), (12, 7), (5, 7)], build3 .shl regCodec regCodec regCodec⟩
/-- SHR. -/
def rowShr : Row := ⟨0x0400000E, 0xFC00001F, [(19, 7), (12, 7), (5, 7)], build3 .shr regCodec regCodec regCodec⟩
/-- SAR. -/
def rowSar : Row := ⟨0x0400000F, 0xFC00001F, [(19, 7), (12, 7), (5, 7)], build3 .sar regCodec regCodec regCodec⟩
/-- ROL. -/
def rowRol : Row := ⟨0x04000010, 0xFC00001F, [(19, 7), (12, 7), (5, 7)], build3 .rol regCodec regCodec regCodec⟩
/-- ROR. -/
def rowRor : Row := ⟨0x04000011, 0xFC00001F, [(19, 7), (12, 7), (5, 7)], build3 .ror regCodec regCodec regCodec⟩
/-- CLZ. -/
def rowClz : Row := ⟨0x04000012, 0xFC000FFF, [(19, 7), (12, 7)], build2 .clz regCodec regCodec⟩
/-- FFS. -/
def rowFfs : Row := ⟨0x04000013, 0xFC000FFF, [(19, 7), (12, 7)], build2 .ffs regCodec regCodec⟩
/-- POPC. -/
def rowPopc : Row := ⟨0x04000014, 0xFC000FFF, [(19, 7), (12, 7)], build2 .popc regCodec regCodec⟩
/-- BREV. -/
def rowBrev : Row := ⟨0x04000015, 0xFC000FFF, [(19, 7), (12, 7)], build2 .brev regCodec regCodec⟩
/-- ABS. -/
def rowAbs : Row := ⟨0x04000016, 0xFC000FFF, [(19, 7), (12, 7)], build2 .abs regCodec regCodec⟩
/-- NEG. -/
def rowNeg : Row := ⟨0x04000017, 0xFC000FFF, [(19, 7), (12, 7)], build2 .neg regCodec regCodec⟩
/-- ADDUS. -/
def rowAddus : Row := ⟨0x04000018, 0xFC00001F, [(19, 7), (12, 7), (5, 7)], build3 .addus regCodec regCodec regCodec⟩
/-- SUBUS. -/
def rowSubus : Row := ⟨0x04000019, 0xFC00001F, [(19, 7), (12, 7), (5, 7)], build3 .subus regCodec regCodec regCodec⟩
/-- MULWS. -/
def rowMulws : Row := ⟨0x0400001A, 0xFC00001F, [(19, 7), (12, 7), (5, 7)], build3 .mulws regCodec regCodec regCodec⟩
/-- MULWU. -/
def rowMulwu : Row := ⟨0x0400001B, 0xFC00001F, [(19, 7), (12, 7), (5, 7)], build3 .mulwu regCodec regCodec regCodec⟩
/-- ADD_X2. -/
def rowAddX2 : Row := ⟨0x08000000, 0xFC00001F, [(19, 7), (12, 7), (5, 7)], build3 .addX2 regCodec regCodec regCodec⟩
/-- SUB_X2. -/
def rowSubX2 : Row := ⟨0x08000001, 0xFC00001F, [(19, 7), (12, 7), (5, 7)], build3 .subX2 regCodec regCodec regCodec⟩
/-- MUL_X2. -/
def rowMulX2 : Row := ⟨0x08000002, 0xFC00001F, [(19, 7), (12, 7), (5, 7)], build3 .mulX2 regCodec regCodec regCodec⟩
/-- MULHS_X2. -/
def rowMulhsX2 : Row := ⟨0x08000003, 0xFC00001F, [(19, 7), (12, 7), (5, 7)], build3 .mulhsX2 regCodec regCodec regCodec⟩
/-- MULHU_X2. -/
def rowMulhuX2 : Row := ⟨0x08000004, 0xFC00001F, [(19, 7), (12, 7), (5, 7)], build3 .mulhuX2 regCodec regCodec regCodec⟩
/-- MINS_X2. -/
def rowMinsX2 : Row := ⟨0x08000005, 0xFC00001F, [(19, 7), (12, 7), (5, 7)], build3 .minsX2 regCodec regCodec regCodec⟩
/-- MINU_X2. -/
def rowMinuX2 : Row := ⟨0x08000006, 0xFC00001F, [(19, 7), (12, 7), (5, 7)], build3 .minuX2 regCodec regCodec regCodec⟩
/-- MAXS_X2. -/
def rowMaxsX2 : Row := ⟨0x08000007, 0xFC00001F, [(19, 7), (12, 7), (5, 7)], build3 .maxsX2 regCodec regCodec regCodec⟩
/-- MAXU_X2. -/
def rowMaxuX2 : Row := ⟨0x08000008, 0xFC00001F, [(19, 7), (12, 7), (5, 7)], build3 .maxuX2 regCodec regCodec regCodec⟩
/-- AND_X2. -/
def rowAndX2 : Row := ⟨0x08000009, 0xFC00001F, [(19, 7), (12, 7), (5, 7)], build3 .andX2 regCodec regCodec regCodec⟩
/-- OR_X2. -/
def rowOrX2 : Row := ⟨0x0800000A, 0xFC00001F, [(19, 7), (12, 7), (5, 7)], build3 .orX2 regCodec regCodec regCodec⟩
/-- XOR_X2. -/
def rowXorX2 : Row := ⟨0x0800000B, 0xFC00001F, [(19, 7), (12, 7), (5, 7)], build3 .xorX2 regCodec regCodec regCodec⟩
/-- ANDN_X2. -/
def rowAndnX2 : Row := ⟨0x0800000C, 0xFC00001F, [(19, 7), (12, 7), (5, 7)], build3 .andnX2 regCodec regCodec regCodec⟩
/-- SHL_X2. -/
def rowShlX2 : Row := ⟨0x0800000D, 0xFC00001F, [(19, 7), (12, 7), (5, 7)], build3 .shlX2 regCodec regCodec regCodec⟩
/-- SHR_X2. -/
def rowShrX2 : Row := ⟨0x0800000E, 0xFC00001F, [(19, 7), (12, 7), (5, 7)], build3 .shrX2 regCodec regCodec regCodec⟩
/-- SAR_X2. -/
def rowSarX2 : Row := ⟨0x0800000F, 0xFC00001F, [(19, 7), (12, 7), (5, 7)], build3 .sarX2 regCodec regCodec regCodec⟩
/-- ROL_X2. -/
def rowRolX2 : Row := ⟨0x08000010, 0xFC00001F, [(19, 7), (12, 7), (5, 7)], build3 .rolX2 regCodec regCodec regCodec⟩
/-- ROR_X2. -/
def rowRorX2 : Row := ⟨0x08000011, 0xFC00001F, [(19, 7), (12, 7), (5, 7)], build3 .rorX2 regCodec regCodec regCodec⟩
/-- CLZ_X2. -/
def rowClzX2 : Row := ⟨0x08000012, 0xFC000FFF, [(19, 7), (12, 7)], build2 .clzX2 regCodec regCodec⟩
/-- FFS_X2. -/
def rowFfsX2 : Row := ⟨0x08000013, 0xFC000FFF, [(19, 7), (12, 7)], build2 .ffsX2 regCodec regCodec⟩
/-- POPC_X2. -/
def rowPopcX2 : Row := ⟨0x08000014, 0xFC000FFF, [(19, 7), (12, 7)], build2 .popcX2 regCodec regCodec⟩
/-- BREV_X2. -/
def rowBrevX2 : Row := ⟨0x08000015, 0xFC000FFF, [(19, 7), (12, 7)], build2 .brevX2 regCodec regCodec⟩
/-- ABS_X2. -/
def rowAbsX2 : Row := ⟨0x08000016, 0xFC000FFF, [(19, 7), (12, 7)], build2 .absX2 regCodec regCodec⟩
/-- NEG_X2. -/
def rowNegX2 : Row := ⟨0x08000017, 0xFC000FFF, [(19, 7), (12, 7)], build2 .negX2 regCodec regCodec⟩
/-- ADDUS_X2. -/
def rowAddusX2 : Row := ⟨0x08000018, 0xFC00001F, [(19, 7), (12, 7), (5, 7)], build3 .addusX2 regCodec regCodec regCodec⟩
/-- SUBUS_X2. -/
def rowSubusX2 : Row := ⟨0x08000019, 0xFC00001F, [(19, 7), (12, 7), (5, 7)], build3 .subusX2 regCodec regCodec regCodec⟩
/-- ADD_X4. -/
def rowAddX4 : Row := ⟨0x0C000000, 0xFC00001F, [(19, 7), (12, 7), (5, 7)], build3 .addX4 regCodec regCodec regCodec⟩
/-- SUB_X4. -/
def rowSubX4 : Row := ⟨0x0C000001, 0xFC00001F, [(19, 7), (12, 7), (5, 7)], build3 .subX4 regCodec regCodec regCodec⟩
/-- MUL_X4. -/
def rowMulX4 : Row := ⟨0x0C000002, 0xFC00001F, [(19, 7), (12, 7), (5, 7)], build3 .mulX4 regCodec regCodec regCodec⟩
/-- MULHS_X4. -/
def rowMulhsX4 : Row := ⟨0x0C000003, 0xFC00001F, [(19, 7), (12, 7), (5, 7)], build3 .mulhsX4 regCodec regCodec regCodec⟩
/-- MULHU_X4. -/
def rowMulhuX4 : Row := ⟨0x0C000004, 0xFC00001F, [(19, 7), (12, 7), (5, 7)], build3 .mulhuX4 regCodec regCodec regCodec⟩
/-- MINS_X4. -/
def rowMinsX4 : Row := ⟨0x0C000005, 0xFC00001F, [(19, 7), (12, 7), (5, 7)], build3 .minsX4 regCodec regCodec regCodec⟩
/-- MINU_X4. -/
def rowMinuX4 : Row := ⟨0x0C000006, 0xFC00001F, [(19, 7), (12, 7), (5, 7)], build3 .minuX4 regCodec regCodec regCodec⟩
/-- MAXS_X4. -/
def rowMaxsX4 : Row := ⟨0x0C000007, 0xFC00001F, [(19, 7), (12, 7), (5, 7)], build3 .maxsX4 regCodec regCodec regCodec⟩
/-- MAXU_X4. -/
def rowMaxuX4 : Row := ⟨0x0C000008, 0xFC00001F, [(19, 7), (12, 7), (5, 7)], build3 .maxuX4 regCodec regCodec regCodec⟩
/-- AND_X4. -/
def rowAndX4 : Row := ⟨0x0C000009, 0xFC00001F, [(19, 7), (12, 7), (5, 7)], build3 .andX4 regCodec regCodec regCodec⟩
/-- OR_X4. -/
def rowOrX4 : Row := ⟨0x0C00000A, 0xFC00001F, [(19, 7), (12, 7), (5, 7)], build3 .orX4 regCodec regCodec regCodec⟩
/-- XOR_X4. -/
def rowXorX4 : Row := ⟨0x0C00000B, 0xFC00001F, [(19, 7), (12, 7), (5, 7)], build3 .xorX4 regCodec regCodec regCodec⟩
/-- ANDN_X4. -/
def rowAndnX4 : Row := ⟨0x0C00000C, 0xFC00001F, [(19, 7), (12, 7), (5, 7)], build3 .andnX4 regCodec regCodec regCodec⟩
/-- SHL_X4. -/
def rowShlX4 : Row := ⟨0x0C00000D, 0xFC00001F, [(19, 7), (12, 7), (5, 7)], build3 .shlX4 regCodec regCodec regCodec⟩
/-- SHR_X4. -/
def rowShrX4 : Row := ⟨0x0C00000E, 0xFC00001F, [(19, 7), (12, 7), (5, 7)], build3 .shrX4 regCodec regCodec regCodec⟩
/-- SAR_X4. -/
def rowSarX4 : Row := ⟨0x0C00000F, 0xFC00001F, [(19, 7), (12, 7), (5, 7)], build3 .sarX4 regCodec regCodec regCodec⟩
/-- ROL_X4. -/
def rowRolX4 : Row := ⟨0x0C000010, 0xFC00001F, [(19, 7), (12, 7), (5, 7)], build3 .rolX4 regCodec regCodec regCodec⟩
/-- ROR_X4. -/
def rowRorX4 : Row := ⟨0x0C000011, 0xFC00001F, [(19, 7), (12, 7), (5, 7)], build3 .rorX4 regCodec regCodec regCodec⟩
/-- CLZ_X4. -/
def rowClzX4 : Row := ⟨0x0C000012, 0xFC000FFF, [(19, 7), (12, 7)], build2 .clzX4 regCodec regCodec⟩
/-- FFS_X4. -/
def rowFfsX4 : Row := ⟨0x0C000013, 0xFC000FFF, [(19, 7), (12, 7)], build2 .ffsX4 regCodec regCodec⟩
/-- POPC_X4. -/
def rowPopcX4 : Row := ⟨0x0C000014, 0xFC000FFF, [(19, 7), (12, 7)], build2 .popcX4 regCodec regCodec⟩
/-- BREV_X4. -/
def rowBrevX4 : Row := ⟨0x0C000015, 0xFC000FFF, [(19, 7), (12, 7)], build2 .brevX4 regCodec regCodec⟩
/-- ABS_X4. -/
def rowAbsX4 : Row := ⟨0x0C000016, 0xFC000FFF, [(19, 7), (12, 7)], build2 .absX4 regCodec regCodec⟩
/-- NEG_X4. -/
def rowNegX4 : Row := ⟨0x0C000017, 0xFC000FFF, [(19, 7), (12, 7)], build2 .negX4 regCodec regCodec⟩
/-- ADDUS_X4. -/
def rowAddusX4 : Row := ⟨0x0C000018, 0xFC00001F, [(19, 7), (12, 7), (5, 7)], build3 .addusX4 regCodec regCodec regCodec⟩
/-- SUBUS_X4. -/
def rowSubusX4 : Row := ⟨0x0C000019, 0xFC00001F, [(19, 7), (12, 7), (5, 7)], build3 .subusX4 regCodec regCodec regCodec⟩
/-- ADD_64. -/
def rowAdd64 : Row := ⟨0x10000000, 0xFC00001F, [(19, 7), (12, 7), (5, 7)], build3 .add64 regCodec regCodec regCodec⟩
/-- SUB_64. -/
def rowSub64 : Row := ⟨0x10000001, 0xFC00001F, [(19, 7), (12, 7), (5, 7)], build3 .sub64 regCodec regCodec regCodec⟩
/-- MUL_64. -/
def rowMul64 : Row := ⟨0x10000002, 0xFC00001F, [(19, 7), (12, 7), (5, 7)], build3 .mul64 regCodec regCodec regCodec⟩
/-- MULHS_64. -/
def rowMulhs64 : Row := ⟨0x10000003, 0xFC00001F, [(19, 7), (12, 7), (5, 7)], build3 .mulhs64 regCodec regCodec regCodec⟩
/-- MULHU_64. -/
def rowMulhu64 : Row := ⟨0x10000004, 0xFC00001F, [(19, 7), (12, 7), (5, 7)], build3 .mulhu64 regCodec regCodec regCodec⟩
/-- MINS_64. -/
def rowMins64 : Row := ⟨0x10000005, 0xFC00001F, [(19, 7), (12, 7), (5, 7)], build3 .mins64 regCodec regCodec regCodec⟩
/-- MINU_64. -/
def rowMinu64 : Row := ⟨0x10000006, 0xFC00001F, [(19, 7), (12, 7), (5, 7)], build3 .minu64 regCodec regCodec regCodec⟩
/-- MAXS_64. -/
def rowMaxs64 : Row := ⟨0x10000007, 0xFC00001F, [(19, 7), (12, 7), (5, 7)], build3 .maxs64 regCodec regCodec regCodec⟩
/-- MAXU_64. -/
def rowMaxu64 : Row := ⟨0x10000008, 0xFC00001F, [(19, 7), (12, 7), (5, 7)], build3 .maxu64 regCodec regCodec regCodec⟩
/-- AND_64. -/
def rowAnd64 : Row := ⟨0x10000009, 0xFC00001F, [(19, 7), (12, 7), (5, 7)], build3 .and64 regCodec regCodec regCodec⟩
/-- OR_64. -/
def rowOr64 : Row := ⟨0x1000000A, 0xFC00001F, [(19, 7), (12, 7), (5, 7)], build3 .or64 regCodec regCodec regCodec⟩
/-- XOR_64. -/
def rowXor64 : Row := ⟨0x1000000B, 0xFC00001F, [(19, 7), (12, 7), (5, 7)], build3 .xor64 regCodec regCodec regCodec⟩
/-- ANDN_64. -/
def rowAndn64 : Row := ⟨0x1000000C, 0xFC00001F, [(19, 7), (12, 7), (5, 7)], build3 .andn64 regCodec regCodec regCodec⟩
/-- SHL_64. -/
def rowShl64 : Row := ⟨0x1000000D, 0xFC00001F, [(19, 7), (12, 7), (5, 7)], build3 .shl64 regCodec regCodec regCodec⟩
/-- SHR_64. -/
def rowShr64 : Row := ⟨0x1000000E, 0xFC00001F, [(19, 7), (12, 7), (5, 7)], build3 .shr64 regCodec regCodec regCodec⟩
/-- SAR_64. -/
def rowSar64 : Row := ⟨0x1000000F, 0xFC00001F, [(19, 7), (12, 7), (5, 7)], build3 .sar64 regCodec regCodec regCodec⟩
/-- ROL_64. -/
def rowRol64 : Row := ⟨0x10000010, 0xFC00001F, [(19, 7), (12, 7), (5, 7)], build3 .rol64 regCodec regCodec regCodec⟩
/-- ROR_64. -/
def rowRor64 : Row := ⟨0x10000011, 0xFC00001F, [(19, 7), (12, 7), (5, 7)], build3 .ror64 regCodec regCodec regCodec⟩
/-- CLZ_64. -/
def rowClz64 : Row := ⟨0x10000012, 0xFC000FFF, [(19, 7), (12, 7)], build2 .clz64 regCodec regCodec⟩
/-- FFS_64. -/
def rowFfs64 : Row := ⟨0x10000013, 0xFC000FFF, [(19, 7), (12, 7)], build2 .ffs64 regCodec regCodec⟩
/-- POPC_64. -/
def rowPopc64 : Row := ⟨0x10000014, 0xFC000FFF, [(19, 7), (12, 7)], build2 .popc64 regCodec regCodec⟩
/-- BREV_64. -/
def rowBrev64 : Row := ⟨0x10000015, 0xFC000FFF, [(19, 7), (12, 7)], build2 .brev64 regCodec regCodec⟩
/-- ABS_64. -/
def rowAbs64 : Row := ⟨0x10000016, 0xFC000FFF, [(19, 7), (12, 7)], build2 .abs64 regCodec regCodec⟩
/-- NEG_64. -/
def rowNeg64 : Row := ⟨0x10000017, 0xFC000FFF, [(19, 7), (12, 7)], build2 .neg64 regCodec regCodec⟩
/-- ADDUS_64. -/
def rowAddus64 : Row := ⟨0x10000018, 0xFC00001F, [(19, 7), (12, 7), (5, 7)], build3 .addus64 regCodec regCodec regCodec⟩
/-- SUBUS_64. -/
def rowSubus64 : Row := ⟨0x10000019, 0xFC00001F, [(19, 7), (12, 7), (5, 7)], build3 .subus64 regCodec regCodec regCodec⟩
/-- ADDI. -/
def rowAddi : Row := ⟨0x14000000, 0xFC000E00, [(19, 7), (12, 7), (0, 9)], build3 .addi regCodec regCodec (bitsCodec 9)⟩
/-- MULI. -/
def rowMuli : Row := ⟨0x14000200, 0xFC000E00, [(19, 7), (12, 7), (0, 9)], build3 .muli regCodec regCodec (bitsCodec 9)⟩
/-- ANDI. -/
def rowAndi : Row := ⟨0x14000400, 0xFC000E00, [(19, 7), (12, 7), (0, 9)], build3 .andi regCodec regCodec (bitsCodec 9)⟩
/-- ORI. -/
def rowOri : Row := ⟨0x14000600, 0xFC000E00, [(19, 7), (12, 7), (0, 9)], build3 .ori regCodec regCodec (bitsCodec 9)⟩
/-- XORI. -/
def rowXori : Row := ⟨0x14000800, 0xFC000E00, [(19, 7), (12, 7), (0, 9)], build3 .xori regCodec regCodec (bitsCodec 9)⟩
/-- SHLI. -/
def rowShli : Row := ⟨0x14000A00, 0xFC000E00, [(19, 7), (12, 7), (0, 9)], build3 .shli regCodec regCodec (bitsCodec 9)⟩
/-- SHRI. -/
def rowShri : Row := ⟨0x14000C00, 0xFC000E00, [(19, 7), (12, 7), (0, 9)], build3 .shri regCodec regCodec (bitsCodec 9)⟩
/-- SARI. -/
def rowSari : Row := ⟨0x14000E00, 0xFC000E00, [(19, 7), (12, 7), (0, 9)], build3 .sari regCodec regCodec (bitsCodec 9)⟩
/-- ADDI_64. -/
def rowAddi64 : Row := ⟨0x18000000, 0xFC000E00, [(19, 7), (12, 7), (0, 9)], build3 .addi64 regCodec regCodec (bitsCodec 9)⟩
/-- MULI_64. -/
def rowMuli64 : Row := ⟨0x18000200, 0xFC000E00, [(19, 7), (12, 7), (0, 9)], build3 .muli64 regCodec regCodec (bitsCodec 9)⟩
/-- ANDI_64. -/
def rowAndi64 : Row := ⟨0x18000400, 0xFC000E00, [(19, 7), (12, 7), (0, 9)], build3 .andi64 regCodec regCodec (bitsCodec 9)⟩
/-- ORI_64. -/
def rowOri64 : Row := ⟨0x18000600, 0xFC000E00, [(19, 7), (12, 7), (0, 9)], build3 .ori64 regCodec regCodec (bitsCodec 9)⟩
/-- XORI_64. -/
def rowXori64 : Row := ⟨0x18000800, 0xFC000E00, [(19, 7), (12, 7), (0, 9)], build3 .xori64 regCodec regCodec (bitsCodec 9)⟩
/-- SHLI_64. -/
def rowShli64 : Row := ⟨0x18000A00, 0xFC000E00, [(19, 7), (12, 7), (0, 9)], build3 .shli64 regCodec regCodec (bitsCodec 9)⟩
/-- SHRI_64. -/
def rowShri64 : Row := ⟨0x18000C00, 0xFC000E00, [(19, 7), (12, 7), (0, 9)], build3 .shri64 regCodec regCodec (bitsCodec 9)⟩
/-- SARI_64. -/
def rowSari64 : Row := ⟨0x18000E00, 0xFC000E00, [(19, 7), (12, 7), (0, 9)], build3 .sari64 regCodec regCodec (bitsCodec 9)⟩
/-- BFEZ. -/
def rowBfez : Row := ⟨0x1C000000, 0xFC000003, [(19, 7), (12, 7), (7, 5), (2, 5)], build4 .bfez regCodec regCodec (finCodec 32) (finCodec 32)⟩
/-- BFES. -/
def rowBfes : Row := ⟨0x1C000001, 0xFC000003, [(19, 7), (12, 7), (7, 5), (2, 5)], build4 .bfes regCodec regCodec (finCodec 32) (finCodec 32)⟩
/-- BFI. -/
def rowBfi : Row := ⟨0x1C000002, 0xFC000003, [(19, 7), (12, 7), (7, 5), (2, 5)], build4 .bfi regCodec regCodec (finCodec 32) (finCodec 32)⟩
/-- MOVI. -/
def rowMovi : Row := ⟨0x20000000, 0xFC07FE00, [(19, 7), (0, 9)], build2 .movi regCodec (bitsCodec 9)⟩
/-- MOVDI. -/
def rowMovdi : Row := ⟨0x20000200, 0xFC07FE00, [(19, 7), (0, 9)], build2 .movdi regCodec (bitsCodec 9)⟩
/-- LEAI. -/
def rowLeai : Row := ⟨0x20000400, 0xFC000E00, [(19, 7), (12, 7), (0, 9)], build3 .leai regCodec regCodec (bitsCodec 9)⟩
/-- MOV. -/
def rowMov : Row := ⟨0x20000600, 0xFC000FFF, [(19, 7), (12, 7)], build2 .mov regCodec regCodec⟩
/-- MOVD. -/
def rowMovd : Row := ⟨0x20000800, 0xFC000FFF, [(19, 7), (12, 7)], build2 .movd regCodec regCodec⟩
/-- MOVQ. -/
def rowMovq : Row := ⟨0x20000A00, 0xFC000FFF, [(19, 7), (12, 7)], build2 .movq regCodec regCodec⟩
/-- LEAS. -/
def rowLeas : Row := ⟨0x24000000, 0xFC00001C, [(19, 7), (12, 7), (5, 7), (0, 2)], build4 .leas regCodec regCodec regCodec (finCodec 4)⟩
/-- LEAZ. -/
def rowLeaz : Row := ⟨0x24000004, 0xFC00001C, [(19, 7), (12, 7), (5, 7), (0, 2)], build4 .leaz regCodec regCodec regCodec (finCodec 4)⟩
/-- MAD. -/
def rowMad : Row := ⟨0x28000000, 0xFC00001F, [(19, 7), (12, 7), (5, 7)], build3 .mad regCodec regCodec regCodec⟩
/-- MADWS. -/
def rowMadws : Row := ⟨0x28000001, 0xFC00001F, [(19, 7), (12, 7), (5, 7)], build3 .madws regCodec regCodec regCodec⟩
/-- MADWU. -/
def rowMadwu : Row := ⟨0x28000002, 0xFC00001F, [(19, 7), (12, 7), (5, 7)], build3 .madwu regCodec regCodec regCodec⟩
/-- DP4S. -/
def rowDp4s : Row := ⟨0x28000003, 0xFC00001F, [(19, 7), (12, 7), (5, 7)], build3 .dp4s regCodec regCodec regCodec⟩
/-- DP4U. -/
def rowDp4u : Row := ⟨0x28000004, 0xFC00001F, [(19, 7), (12, 7), (5, 7)], build3 .dp4u regCodec regCodec regCodec⟩
/-- CMP. -/
def rowCmp : Row := ⟨0x30000000, 0xFC000003, [(23, 3), (16, 7), (9, 7), (5, 4), (2, 3)], build5 .cmp predCodec regCodec regCodec condCodec cmpTypeCodec⟩
/-- CMP_IMM. -/
def rowCmpImm : Row := ⟨0x34000000, 0xFC000000, [(23, 3), (16, 7), (12, 4), (10, 2), (0, 10)], build5 .cmpImm predCodec regCodec condCodec intTypeCodec (bitsCodec 10)⟩
/-- SEL. -/
def rowSel : Row := ⟨0x38000000, 0xFC000000, [(19, 7), (12, 7), (5, 7), (2, 3), (1, 1), (0, 1)], build6 .sel regCodec regCodec regCodec predCodec boolCodec boolCodec⟩
/-- PAND. -/
def rowPand : Row := ⟨0x3C000000, 0xFC007FFF, [(23, 3), (20, 3), (19, 1), (16, 3), (15, 1)], build5 .pand predCodec predCodec boolCodec predCodec boolCodec⟩
/-- POR. -/
def rowPor : Row := ⟨0x3C001000, 0xFC007FFF, [(23, 3), (20, 3), (19, 1), (16, 3), (15, 1)], build5 .por predCodec predCodec boolCodec predCodec boolCodec⟩
/-- PXOR. -/
def rowPxor : Row := ⟨0x3C002000, 0xFC007FFF, [(23, 3), (20, 3), (19, 1), (16, 3), (15, 1)], build5 .pxor predCodec predCodec boolCodec predCodec boolCodec⟩
/-- P2G. -/
def rowP2g : Row := ⟨0x3C003000, 0xFFFFF01F, [(5, 7)], build1 .p2g regCodec⟩
/-- G2P. -/
def rowG2p : Row := ⟨0x3C004000, 0xFFFFF01F, [(5, 7)], build1 .g2p regCodec⟩
/-- BRA. -/
def rowBra : Row := ⟨0x40000000, 0xFC380000, [(23, 3), (22, 1), (0, 19)], build3 .bra predCodec boolCodec (bitsCodec 19)⟩
/-- CALL. -/
def rowCall : Row := ⟨0x40080000, 0xFC380000, [(23, 3), (22, 1), (0, 19)], build3 .call predCodec boolCodec (bitsCodec 19)⟩
/-- LOOP. -/
def rowLoop : Row := ⟨0x44000000, 0xFF000000, [(23, 1), (16, 7), (0, 16)], build3 .loop boolCodec regCodec (bitsCodec 16)⟩
/-- LBRK. -/
def rowLbrk : Row := ⟨0x45000000, 0xFF7FFFFF, [(23, 1)], build1 .lbrk boolCodec⟩
/-- JMP. -/
def rowJmp : Row := ⟨0x48000000, 0xFC380FFF, [(23, 3), (22, 1), (12, 7)], build3 .jmp predCodec boolCodec regCodec⟩
/-- CALLI. -/
def rowCalli : Row := ⟨0x48080000, 0xFC380FFF, [(23, 3), (22, 1), (12, 7)], build3 .calli predCodec boolCodec regCodec⟩
/-- RET. -/
def rowRet : Row := ⟨0x48100000, 0xFC3FFFFF, [(23, 3), (22, 1)], build2 .ret predCodec boolCodec⟩
/-- JOIN. -/
def rowJoin : Row := ⟨0x4C000000, 0xFC3FFFFF, [(23, 3), (22, 1)], build2 .join predCodec boolCodec⟩
/-- YIELD. -/
def rowYield : Row := ⟨0x4C080000, 0xFC3FFFFF, [(23, 3), (22, 1)], build2 .yield predCodec boolCodec⟩
/-- SLEEP. -/
def rowSleep : Row := ⟨0x4C100000, 0xFC380000, [(23, 3), (22, 1), (0, 19)], build3 .sleep predCodec boolCodec (bitsCodec 19)⟩
/-- EXIT. -/
def rowExit : Row := ⟨0x4C180000, 0xFC3FFFFF, [(23, 3), (22, 1)], build2 .exit predCodec boolCodec⟩
/-- BEQ. -/
def rowBeq : Row := ⟨0x50000000, 0xFF800000, [(16, 7), (9, 7), (0, 9)], build3 .beq regCodec regCodec (bitsCodec 9)⟩
/-- BNE. -/
def rowBne : Row := ⟨0x50800000, 0xFF800000, [(16, 7), (9, 7), (0, 9)], build3 .bne regCodec regCodec (bitsCodec 9)⟩
/-- BLT. -/
def rowBlt : Row := ⟨0x51000000, 0xFF800000, [(16, 7), (9, 7), (0, 9)], build3 .blt regCodec regCodec (bitsCodec 9)⟩
/-- BGE. -/
def rowBge : Row := ⟨0x51800000, 0xFF800000, [(16, 7), (9, 7), (0, 9)], build3 .bge regCodec regCodec (bitsCodec 9)⟩
/-- BLTU. -/
def rowBltu : Row := ⟨0x52000000, 0xFF800000, [(16, 7), (9, 7), (0, 9)], build3 .bltu regCodec regCodec (bitsCodec 9)⟩
/-- BGEU. -/
def rowBgeu : Row := ⟨0x52800000, 0xFF800000, [(16, 7), (9, 7), (0, 9)], build3 .bgeu regCodec regCodec (bitsCodec 9)⟩
/-- FADD. -/
def rowFadd : Row := ⟨0x60000000, 0xFC00001F, [(19, 7), (12, 7), (5, 7)], build3 .fadd regCodec regCodec regCodec⟩
/-- FSUB. -/
def rowFsub : Row := ⟨0x60000001, 0xFC00001F, [(19, 7), (12, 7), (5, 7)], build3 .fsub regCodec regCodec regCodec⟩
/-- FMUL. -/
def rowFmul : Row := ⟨0x60000002, 0xFC00001F, [(19, 7), (12, 7), (5, 7)], build3 .fmul regCodec regCodec regCodec⟩
/-- FMA. -/
def rowFma : Row := ⟨0x60000003, 0xFC00001F, [(19, 7), (12, 7), (5, 7)], build3 .fma regCodec regCodec regCodec⟩
/-- FMIN. -/
def rowFmin : Row := ⟨0x60000004, 0xFC00001F, [(19, 7), (12, 7), (5, 7)], build3 .fmin regCodec regCodec regCodec⟩
/-- FMAX. -/
def rowFmax : Row := ⟨0x60000005, 0xFC00001F, [(19, 7), (12, 7), (5, 7)], build3 .fmax regCodec regCodec regCodec⟩
/-- FMINNUM. -/
def rowFminnum : Row := ⟨0x60000006, 0xFC00001F, [(19, 7), (12, 7), (5, 7)], build3 .fminnum regCodec regCodec regCodec⟩
/-- FMAXNUM. -/
def rowFmaxnum : Row := ⟨0x60000007, 0xFC00001F, [(19, 7), (12, 7), (5, 7)], build3 .fmaxnum regCodec regCodec regCodec⟩
/-- FABS. -/
def rowFabs : Row := ⟨0x60000008, 0xFC000FFF, [(19, 7), (12, 7)], build2 .fabs regCodec regCodec⟩
/-- FNEG. -/
def rowFneg : Row := ⟨0x60000009, 0xFC000FFF, [(19, 7), (12, 7)], build2 .fneg regCodec regCodec⟩
/-- FCLASS. -/
def rowFclass : Row := ⟨0x6000000A, 0xFC000FFF, [(19, 7), (12, 7)], build2 .fclass regCodec regCodec⟩
/-- FCOPYSIGN. -/
def rowFcopysign : Row := ⟨0x6000000B, 0xFC00001F, [(19, 7), (12, 7), (5, 7)], build3 .fcopysign regCodec regCodec regCodec⟩
/-- FSCALE. -/
def rowFscale : Row := ⟨0x6000000C, 0xFC00001F, [(19, 7), (12, 7), (5, 7)], build3 .fscale regCodec regCodec regCodec⟩
/-- FADD_X2. -/
def rowFaddX2 : Row := ⟨0x64000000, 0xFC00000F, [(19, 7), (12, 7), (5, 7), (4, 1)], build4 .faddX2 regCodec regCodec regCodec halfFmtCodec⟩
/-- FSUB_X2. -/
def rowFsubX2 : Row := ⟨0x64000001, 0xFC00000F, [(19, 7), (12, 7), (5, 7), (4, 1)], build4 .fsubX2 regCodec regCodec regCodec halfFmtCodec⟩
/-- FMUL_X2. -/
def rowFmulX2 : Row := ⟨0x64000002, 0xFC00000F, [(19, 7), (12, 7), (5, 7), (4, 1)], build4 .fmulX2 regCodec regCodec regCodec halfFmtCodec⟩
/-- FMA_X2. -/
def rowFmaX2 : Row := ⟨0x64000003, 0xFC00000F, [(19, 7), (12, 7), (5, 7), (4, 1)], build4 .fmaX2 regCodec regCodec regCodec halfFmtCodec⟩
/-- FMIN_X2. -/
def rowFminX2 : Row := ⟨0x64000004, 0xFC00000F, [(19, 7), (12, 7), (5, 7), (4, 1)], build4 .fminX2 regCodec regCodec regCodec halfFmtCodec⟩
/-- FMAX_X2. -/
def rowFmaxX2 : Row := ⟨0x64000005, 0xFC00000F, [(19, 7), (12, 7), (5, 7), (4, 1)], build4 .fmaxX2 regCodec regCodec regCodec halfFmtCodec⟩
/-- FABS_X2. -/
def rowFabsX2 : Row := ⟨0x64000006, 0xFC000FEF, [(19, 7), (12, 7), (4, 1)], build3 .fabsX2 regCodec regCodec halfFmtCodec⟩
/-- FNEG_X2. -/
def rowFnegX2 : Row := ⟨0x64000007, 0xFC000FEF, [(19, 7), (12, 7), (4, 1)], build3 .fnegX2 regCodec regCodec halfFmtCodec⟩
/-- DOT2. -/
def rowDot2 : Row := ⟨0x64000008, 0xFC00000F, [(19, 7), (12, 7), (5, 7), (4, 1)], build4 .dot2 regCodec regCodec regCodec halfFmtCodec⟩
/-- RCP. -/
def rowRcp : Row := ⟨0x68000000, 0xFC000FFF, [(19, 7), (12, 7)], build2 .rcp regCodec regCodec⟩
/-- RSQ. -/
def rowRsq : Row := ⟨0x68000001, 0xFC000FFF, [(19, 7), (12, 7)], build2 .rsq regCodec regCodec⟩
/-- SQRT. -/
def rowSqrt : Row := ⟨0x68000002, 0xFC000FFF, [(19, 7), (12, 7)], build2 .sqrt regCodec regCodec⟩
/-- EX2. -/
def rowEx2 : Row := ⟨0x68000003, 0xFC000FFF, [(19, 7), (12, 7)], build2 .ex2 regCodec regCodec⟩
/-- LG2. -/
def rowLg2 : Row := ⟨0x68000004, 0xFC000FFF, [(19, 7), (12, 7)], build2 .lg2 regCodec regCodec⟩
/-- SIN. -/
def rowSin : Row := ⟨0x68000005, 0xFC000FFF, [(19, 7), (12, 7)], build2 .sin regCodec regCodec⟩
/-- COS. -/
def rowCos : Row := ⟨0x68000006, 0xFC000FFF, [(19, 7), (12, 7)], build2 .cos regCodec regCodec⟩
/-- TANH. -/
def rowTanh : Row := ⟨0x68000007, 0xFC000FFF, [(19, 7), (12, 7)], build2 .tanh regCodec regCodec⟩
/-- DIV. -/
def rowDiv : Row := ⟨0x68000008, 0xFC00001F, [(19, 7), (12, 7), (5, 7)], build3 .div regCodec regCodec regCodec⟩
/-- CVT. -/
def rowCvt : Row := ⟨0x80000000, 0xFC000000, [(19, 7), (12, 7), (8, 4), (4, 4), (2, 2), (0, 2)], build6 .cvt regCodec regCodec fmtCodec fmtCodec (finCodec 4) (finCodec 4)⟩
/-- QC4. -/
def rowQc4 : Row := ⟨0x84000000, 0xFC00001F, [(19, 7), (12, 7), (5, 7)], build3 .qc4 regCodec regCodec regCodec⟩
/-- DQC4. -/
def rowDqc4 : Row := ⟨0x84000001, 0xFC00001F, [(19, 7), (12, 7), (5, 7)], build3 .dqc4 regCodec regCodec regCodec⟩
/-- RAND. -/
def rowRand : Row := ⟨0x88000000, 0xFC00001F, [(19, 7), (12, 7), (5, 7)], build3 .rand regCodec regCodec regCodec⟩
/-- RANDF. -/
def rowRandf : Row := ⟨0x88000001, 0xFC00001F, [(19, 7), (12, 7), (5, 7)], build3 .randf regCodec regCodec regCodec⟩
/-- XLANE. -/
def rowXlane : Row := ⟨0x90000000, 0xFC000000, [(19, 7), (12, 7), (10, 2), (9, 1), (4, 5), (0, 4)], build6 .xlane regCodec regCodec xModeCodec boolCodec (finCodec 32) (finCodec 16)⟩
/-- AGREE_ALL. -/
def rowAgreeAll : Row := ⟨0x94000000, 0xFFF871F0, [(15, 4), (9, 3), (0, 4)], build3 .agreeAll predSelCodec predCodec (finCodec 16)⟩
/-- AGREE_SOME. -/
def rowAgreeSome : Row := ⟨0x94000040, 0xFFF871F0, [(15, 4), (9, 3), (0, 4)], build3 .agreeSome predSelCodec predCodec (finCodec 16)⟩
/-- AGREE_SAME. -/
def rowAgreeSame : Row := ⟨0x94000080, 0xFFF871F0, [(15, 4), (9, 3), (0, 4)], build3 .agreeSame predSelCodec predCodec (finCodec 16)⟩
/-- AGREE_MASK. -/
def rowAgreeMask : Row := ⟨0x940000C0, 0xFC007FF0, [(19, 7), (15, 4), (0, 4)], build3 .agreeMask regCodec predSelCodec (finCodec 16)⟩
/-- PEERS. -/
def rowPeers : Row := ⟨0x94000100, 0xFC000FF0, [(19, 7), (12, 7), (0, 4)], build3 .peers regCodec regCodec (finCodec 16)⟩
/-- PEERS_ALL. -/
def rowPeersAll : Row := ⟨0x94000140, 0xFC0001F0, [(19, 7), (12, 7), (9, 3), (0, 4)], build4 .peersAll regCodec regCodec predCodec (finCodec 16)⟩
/-- AGREE_COUNT. -/
def rowAgreeCount : Row := ⟨0x94000180, 0xFC007FF0, [(19, 7), (15, 4), (0, 4)], build3 .agreeCount regCodec predSelCodec (finCodec 16)⟩
/-- GRED. -/
def rowGred : Row := ⟨0x98000000, 0xFC000010, [(19, 7), (12, 7), (9, 3), (6, 3), (5, 1), (0, 4)], build6 .gred regCodec regCodec predCodec groupOpCodec boolCodec (finCodec 16)⟩
/-- GSCAN. -/
def rowGscan : Row := ⟨0x9C000000, 0xFC000010, [(19, 7), (12, 7), (9, 3), (6, 3), (5, 1), (0, 4)], build6 .gscan regCodec regCodec predCodec groupOpCodec boolCodec (finCodec 16)⟩
/-- GSCANX. -/
def rowGscanx : Row := ⟨0x9C000010, 0xFC000010, [(19, 7), (12, 7), (9, 3), (6, 3), (5, 1), (0, 4)], build6 .gscanx regCodec regCodec predCodec groupOpCodec boolCodec (finCodec 16)⟩
/-- MMA. -/
def rowMma : Row := ⟨0xA0000000, 0xFC000000, [(22, 4), (17, 5), (12, 5), (7, 5), (5, 2), (1, 4), (0, 1)], build7 .mma (finCodec 16) (finCodec 32) (finCodec 32) (finCodec 32) mmaFmtCodec (finCodec 16) boolCodec⟩
/-- MMA_PART. -/
def rowMmaPart : Row := ⟨0xA4000000, 0xFC000001, [(22, 4), (17, 5), (12, 5), (7, 5), (6, 1), (5, 1), (1, 4)], build7 .mmaPart (finCodec 16) (finCodec 32) (finCodec 32) (finCodec 32) fp8FmtCodec boolCodec (finCodec 16)⟩
/-- MMA_C4. -/
def rowMmaC4 : Row := ⟨0xA8000000, 0xFC000041, [(22, 4), (17, 5), (12, 5), (7, 5), (5, 1), (1, 4)], build6 .mmaC4 (finCodec 16) (finCodec 32) (finCodec 32) (finCodec 32) boolCodec (finCodec 16)⟩
/-- SCACC. -/
def rowScacc : Row := ⟨0xAC000000, 0xFC00000F, [(22, 4), (18, 4), (13, 5), (8, 5), (4, 4)], build5 .scacc (finCodec 16) (finCodec 16) (finCodec 32) (finCodec 32) (finCodec 16)⟩
/-- ACCMOV. -/
def rowAccmov : Row := ⟨0xAC000001, 0xFC03FF0F, [(22, 4), (18, 4), (4, 4)], build3 .accmov (finCodec 16) (finCodec 16) (finCodec 16)⟩
/-- ACCZERO. -/
def rowAcczero : Row := ⟨0xAC000002, 0xFC3FFF0F, [(22, 4), (4, 4)], build2 .acczero (finCodec 16) (finCodec 16)⟩
/-- ACCADD. -/
def rowAccadd : Row := ⟨0xAC000003, 0xFC03FF0F, [(22, 4), (18, 4), (4, 4)], build3 .accadd (finCodec 16) (finCodec 16) (finCodec 16)⟩
/-- LD. -/
def rowLd : Row := ⟨0xB0000000, 0xFC000000, [(19, 7), (12, 7), (10, 2), (7, 3), (0, 7)], build5 .ld regCodec regCodec spaceCodec memWidthCodec (bitsCodec 7)⟩
/-- ST. -/
def rowSt : Row := ⟨0xB4000000, 0xFC000000, [(19, 7), (12, 7), (10, 2), (7, 3), (0, 7)], build5 .st regCodec regCodec spaceCodec memWidthCodec (bitsCodec 7)⟩
/-- LD_ACQ. -/
def rowLdAcq : Row := ⟨0xB8000000, 0xFC00000F, [(19, 7), (12, 7), (10, 2), (7, 3), (4, 3)], build5 .ldAcq regCodec regCodec spaceCodec memWidthCodec scopeCodec⟩
/-- ST_REL. -/
def rowStRel : Row := ⟨0xB8000008, 0xFC00000F, [(19, 7), (12, 7), (10, 2), (7, 3), (4, 3)], build5 .stRel regCodec regCodec spaceCodec memWidthCodec scopeCodec⟩
/-- LDFE. -/
def rowLdfe : Row := ⟨0xBC000000, 0xFC000E00, [(19, 7), (12, 7), (6, 3), (0, 6)], build4 .ldfe regCodec regCodec granWidthCodec (bitsCodec 6)⟩
/-- LDFEC. -/
def rowLdfec : Row := ⟨0xBC000200, 0xFC000E00, [(19, 7), (12, 7), (6, 3), (0, 6)], build4 .ldfec regCodec regCodec granWidthCodec (bitsCodec 6)⟩
/-- STFULL. -/
def rowStfull : Row := ⟨0xBC000400, 0xFC000E00, [(19, 7), (12, 7), (6, 3), (0, 6)], build4 .stfull regCodec regCodec granWidthCodec (bitsCodec 6)⟩
/-- LDFIFO. -/
def rowLdfifo : Row := ⟨0xBC000600, 0xFC07FE00, [(19, 7), (6, 3), (0, 6)], build3 .ldfifo regCodec granWidthCodec (bitsCodec 6)⟩
/-- STFIFO. -/
def rowStfifo : Row := ⟨0xBC000800, 0xFC07FE00, [(19, 7), (6, 3), (0, 6)], build3 .stfifo regCodec granWidthCodec (bitsCodec 6)⟩
/-- PF_L1. -/
def rowPfL1 : Row := ⟨0xC0000000, 0xFFF80000, [(12, 7), (0, 12)], build2 .pfL1 regCodec (bitsCodec 12)⟩
/-- PF_MSC. -/
def rowPfMsc : Row := ⟨0xC0800000, 0xFFF80000, [(12, 7), (0, 12)], build2 .pfMsc regCodec (bitsCodec 12)⟩
/-- WB. -/
def rowWb : Row := ⟨0xC1000000, 0xFF880000, [(20, 3), (12, 7), (0, 12)], build3 .wb scopeCodec regCodec (bitsCodec 12)⟩
/-- INV. -/
def rowInv : Row := ⟨0xC1800000, 0xFF880000, [(20, 3), (12, 7), (0, 12)], build3 .inv scopeCodec regCodec (bitsCodec 12)⟩
/-- WBINV. -/
def rowWbinv : Row := ⟨0xC2000000, 0xFF880000, [(20, 3), (12, 7), (0, 12)], build3 .wbinv scopeCodec regCodec (bitsCodec 12)⟩
/-- ATOM. -/
def rowAtom : Row := ⟨0xC8000000, 0xFC000000, [(19, 7), (12, 7), (8, 4), (7, 1), (5, 2), (2, 3), (0, 2)], build7 .atom regCodec regCodec atomOpCodec boolCodec atomSpaceCodec scopeCodec memOrdCodec⟩
/-- RED. -/
def rowRed : Row := ⟨0xCC000000, 0xFC000000, [(19, 7), (12, 7), (8, 4), (7, 1), (5, 2), (2, 3), (0, 2)], build7 .red regCodec regCodec atomOpCodec boolCodec atomSpaceCodec scopeCodec memOrdCodec⟩
/-- FENCE. -/
def rowFence : Row := ⟨0xD0000000, 0xFC7FFFFF, [(23, 3)], build1 .fence scopeCodec⟩
/-- FENCE_ACQ. -/
def rowFenceAcq : Row := ⟨0xD0100000, 0xFC7FFFFF, [(23, 3)], build1 .fenceAcq scopeCodec⟩
/-- FENCE_REL. -/
def rowFenceRel : Row := ⟨0xD0200000, 0xFC7FFFFF, [(23, 3)], build1 .fenceRel scopeCodec⟩
/-- TLFENCE. -/
def rowTlfence : Row := ⟨0xD0300000, 0xFC7FFFFF, [(23, 3)], build1 .tlfence scopeCodec⟩
/-- BAR_INIT_IMM. -/
def rowBarInitImm : Row := ⟨0xD4040000, 0xFC3FF800, [(22, 4), (0, 11)], build2 .barInitImm (finCodec 16) (bitsCodec 11)⟩
/-- BAR_INIT_REG. -/
def rowBarInitReg : Row := ⟨0xD4000000, 0xFC3C07FF, [(22, 4), (11, 7)], build2 .barInitReg (finCodec 16) regCodec⟩
/-- BAR_ARR. -/
def rowBarArr : Row := ⟨0xD4080000, 0xFC3FFFFF, [(22, 4)], build1 .barArr (finCodec 16)⟩
/-- BAR_WAIT. -/
def rowBarWait : Row := ⟨0xD4100000, 0xFC3FFFFF, [(22, 4)], build1 .barWait (finCodec 16)⟩
/-- BAR_SYNC. -/
def rowBarSync : Row := ⟨0xD4180000, 0xFC3FFFFF, [(22, 4)], build1 .barSync (finCodec 16)⟩
/-- CVDECL_IMM. -/
def rowCvdeclImm : Row := ⟨0xD4240000, 0xFC3FF800, [(22, 4), (0, 11)], build2 .cvdeclImm (finCodec 16) (bitsCodec 11)⟩
/-- CVDECL_REG. -/
def rowCvdeclReg : Row := ⟨0xD4200000, 0xFC3C07FF, [(22, 4), (11, 7)], build2 .cvdeclReg (finCodec 16) regCodec⟩
/-- CVSYNC. -/
def rowCvsync : Row := ⟨0xD4280000, 0xFC3FFFFF, [(22, 4)], build1 .cvsync (finCodec 16)⟩
/-- ELECT. -/
def rowElect : Row := ⟨0xD4300000, 0xFC3FFFF8, [(22, 4), (0, 3)], build2 .elect (finCodec 16) predCodec⟩
/-- RELEASE. -/
def rowRelease : Row := ⟨0xD4380000, 0xFC3FFFFF, [(22, 4)], build1 .release (finCodec 16)⟩
/-- LDV_MIN. -/
def rowLdvMin : Row := ⟨0xD8000000, 0xFC00001C, [(19, 7), (12, 7), (5, 7), (0, 2)], build4 .ldvMin regCodec regCodec regCodec verWidthCodec⟩
/-- LDV_AT. -/
def rowLdvAt : Row := ⟨0xD8000004, 0xFC00001C, [(19, 7), (12, 7), (5, 7), (0, 2)], build4 .ldvAt regCodec regCodec regCodec verWidthCodec⟩
/-- VPIN. -/
def rowVpin : Row := ⟨0xD8000008, 0xFC00001F, [(19, 7), (12, 7), (5, 7)], build3 .vpin regCodec regCodec regCodec⟩
/-- VUNPIN. -/
def rowVunpin : Row := ⟨0xD800000C, 0xFFF80FFF, [(12, 7)], build1 .vunpin regCodec⟩
/-- STEP_ADV. -/
def rowStepAdv : Row := ⟨0xDC000000, 0xFF80FFFF, [(16, 7)], build1 .stepAdv regCodec⟩
/-- RGN_B. -/
def rowRgnB : Row := ⟨0xDC800000, 0xFF800000, [(16, 7), (0, 16)], build2 .rgnB regCodec (bitsCodec 16)⟩
/-- RGN_E. -/
def rowRgnE : Row := ⟨0xDD000000, 0xFFFFFFFF, [], build0 .rgnE⟩
/-- TKWAIT. -/
def rowTkwait : Row := ⟨0xE0000000, 0xFFFFFFFF, [], build0 .tkwait⟩
/-- TKPASS. -/
def rowTkpass : Row := ⟨0xE0800000, 0xFFFFFFFF, [], build0 .tkpass⟩
/-- TCOPY. -/
def rowTcopy : Row := ⟨0xE4000000, 0xFC07F0FF, [(19, 7), (8, 4)], build2 .tcopy regCodec (finCodec 16)⟩
/-- QPUT. -/
def rowQput : Row := ⟨0xE4000020, 0xFC000FFF, [(19, 7), (12, 7)], build2 .qput regCodec regCodec⟩
/-- COLL. -/
def rowColl : Row := ⟨0xE4000040, 0xFC0000FF, [(19, 7), (12, 7), (8, 4)], build3 .coll regCodec regCodec (finCodec 16)⟩
/-- SPAWN. -/
def rowSpawn : Row := ⟨0xE4000060, 0xFC000FFF, [(19, 7), (12, 7)], build2 .spawn regCodec regCodec⟩
/-- BIN. -/
def rowBin : Row := ⟨0xE8000000, 0xFC00001F, [(19, 7), (12, 7), (5, 7)], build3 .bin regCodec regCodec regCodec⟩
/-- BINREL. -/
def rowBinrel : Row := ⟨0xE8000004, 0xFFF80FFF, [(12, 7)], build1 .binrel regCodec⟩
/-- CARVE. -/
def rowCarve : Row := ⟨0xE8000008, 0xFC00001F, [(19, 7), (12, 7), (5, 7)], build3 .carve regCodec regCodec regCodec⟩
/-- MFS. -/
def rowMfs : Row := ⟨0xEC000000, 0xFC07801F, [(19, 7), (5, 10)], build2 .mfs regCodec (bitsCodec 10)⟩
/-- MTS. -/
def rowMts : Row := ⟨0xEC008000, 0xFC07801F, [(19, 7), (5, 10)], build2 .mts regCodec (bitsCodec 10)⟩
/-- TRAP. -/
def rowTrap : Row := ⟨0xEC010000, 0xFFFF801F, [(5, 10)], build1 .trap (bitsCodec 10)⟩
/-- TRET. -/
def rowTret : Row := ⟨0xEC018000, 0xFFFFFFFF, [], build0 .tret⟩
/-- TRET_SKIP. -/
def rowTretSkip : Row := ⟨0xEC018020, 0xFFFFFFFF, [], build0 .tretSkip⟩
/-- ENRD. -/
def rowEnrd : Row := ⟨0xEC020000, 0xFC07801F, [(19, 7), (5, 10)], build2 .enrd regCodec (bitsCodec 10)⟩
/-- BRK. -/
def rowBrk : Row := ⟨0xEC028000, 0xFFFF801F, [(5, 10)], build1 .brk (bitsCodec 10)⟩

/-- The rows of major 0x01. -/
def rows01 : List Row :=
  [rowAdd, rowSub, rowMul, rowMulhs, rowMulhu, rowMins,
   rowMinu, rowMaxs, rowMaxu, rowAnd, rowOr, rowXor,
   rowAndn, rowShl, rowShr, rowSar, rowRol, rowRor,
   rowClz, rowFfs, rowPopc, rowBrev, rowAbs, rowNeg,
   rowAddus, rowSubus, rowMulws, rowMulwu]

/-- The rows of major 0x02. -/
def rows02 : List Row :=
  [rowAddX2, rowSubX2, rowMulX2, rowMulhsX2, rowMulhuX2, rowMinsX2,
   rowMinuX2, rowMaxsX2, rowMaxuX2, rowAndX2, rowOrX2, rowXorX2,
   rowAndnX2, rowShlX2, rowShrX2, rowSarX2, rowRolX2, rowRorX2,
   rowClzX2, rowFfsX2, rowPopcX2, rowBrevX2, rowAbsX2, rowNegX2,
   rowAddusX2, rowSubusX2]

/-- The rows of major 0x03. -/
def rows03 : List Row :=
  [rowAddX4, rowSubX4, rowMulX4, rowMulhsX4, rowMulhuX4, rowMinsX4,
   rowMinuX4, rowMaxsX4, rowMaxuX4, rowAndX4, rowOrX4, rowXorX4,
   rowAndnX4, rowShlX4, rowShrX4, rowSarX4, rowRolX4, rowRorX4,
   rowClzX4, rowFfsX4, rowPopcX4, rowBrevX4, rowAbsX4, rowNegX4,
   rowAddusX4, rowSubusX4]

/-- The rows of major 0x04. -/
def rows04 : List Row :=
  [rowAdd64, rowSub64, rowMul64, rowMulhs64, rowMulhu64, rowMins64,
   rowMinu64, rowMaxs64, rowMaxu64, rowAnd64, rowOr64, rowXor64,
   rowAndn64, rowShl64, rowShr64, rowSar64, rowRol64, rowRor64,
   rowClz64, rowFfs64, rowPopc64, rowBrev64, rowAbs64, rowNeg64,
   rowAddus64, rowSubus64]

/-- The rows of major 0x05. -/
def rows05 : List Row :=
  [rowAddi, rowMuli, rowAndi, rowOri, rowXori, rowShli,
   rowShri, rowSari]

/-- The rows of major 0x06. -/
def rows06 : List Row :=
  [rowAddi64, rowMuli64, rowAndi64, rowOri64, rowXori64, rowShli64,
   rowShri64, rowSari64]

/-- The rows of major 0x07. -/
def rows07 : List Row :=
  [rowBfez, rowBfes, rowBfi]

/-- The rows of major 0x08. -/
def rows08 : List Row :=
  [rowMovi, rowMovdi, rowLeai, rowMov, rowMovd, rowMovq]

/-- The rows of major 0x09. -/
def rows09 : List Row :=
  [rowLeas, rowLeaz]

/-- The rows of major 0x0A. -/
def rows0A : List Row :=
  [rowMad, rowMadws, rowMadwu, rowDp4s, rowDp4u]

/-- The rows of major 0x0C. -/
def rows0C : List Row :=
  [rowCmp]

/-- The rows of major 0x0D. -/
def rows0D : List Row :=
  [rowCmpImm]

/-- The rows of major 0x0E. -/
def rows0E : List Row :=
  [rowSel]

/-- The rows of major 0x0F. -/
def rows0F : List Row :=
  [rowPand, rowPor, rowPxor, rowP2g, rowG2p]

/-- The rows of major 0x10. -/
def rows10 : List Row :=
  [rowBra, rowCall]

/-- The rows of major 0x11. -/
def rows11 : List Row :=
  [rowLoop, rowLbrk]

/-- The rows of major 0x12. -/
def rows12 : List Row :=
  [rowJmp, rowCalli, rowRet]

/-- The rows of major 0x13. -/
def rows13 : List Row :=
  [rowJoin, rowYield, rowSleep, rowExit]

/-- The rows of major 0x14. -/
def rows14 : List Row :=
  [rowBeq, rowBne, rowBlt, rowBge, rowBltu, rowBgeu]

/-- The rows of major 0x18. -/
def rows18 : List Row :=
  [rowFadd, rowFsub, rowFmul, rowFma, rowFmin, rowFmax,
   rowFminnum, rowFmaxnum, rowFabs, rowFneg, rowFclass, rowFcopysign,
   rowFscale]

/-- The rows of major 0x19. -/
def rows19 : List Row :=
  [rowFaddX2, rowFsubX2, rowFmulX2, rowFmaX2, rowFminX2, rowFmaxX2,
   rowFabsX2, rowFnegX2, rowDot2]

/-- The rows of major 0x1A. -/
def rows1A : List Row :=
  [rowRcp, rowRsq, rowSqrt, rowEx2, rowLg2, rowSin,
   rowCos, rowTanh, rowDiv]

/-- The rows of major 0x20. -/
def rows20 : List Row :=
  [rowCvt]

/-- The rows of major 0x21. -/
def rows21 : List Row :=
  [rowQc4, rowDqc4]

/-- The rows of major 0x22. -/
def rows22 : List Row :=
  [rowRand, rowRandf]

/-- The rows of major 0x24. -/
def rows24 : List Row :=
  [rowXlane]

/-- The rows of major 0x25. -/
def rows25 : List Row :=
  [rowAgreeAll, rowAgreeSome, rowAgreeSame, rowAgreeMask, rowPeers, rowPeersAll,
   rowAgreeCount]

/-- The rows of major 0x26. -/
def rows26 : List Row :=
  [rowGred]

/-- The rows of major 0x27. -/
def rows27 : List Row :=
  [rowGscan, rowGscanx]

/-- The rows of major 0x28. -/
def rows28 : List Row :=
  [rowMma]

/-- The rows of major 0x29. -/
def rows29 : List Row :=
  [rowMmaPart]

/-- The rows of major 0x2A. -/
def rows2A : List Row :=
  [rowMmaC4]

/-- The rows of major 0x2B. -/
def rows2B : List Row :=
  [rowScacc, rowAccmov, rowAcczero, rowAccadd]

/-- The rows of major 0x2C. -/
def rows2C : List Row :=
  [rowLd]

/-- The rows of major 0x2D. -/
def rows2D : List Row :=
  [rowSt]

/-- The rows of major 0x2E. -/
def rows2E : List Row :=
  [rowLdAcq, rowStRel]

/-- The rows of major 0x2F. -/
def rows2F : List Row :=
  [rowLdfe, rowLdfec, rowStfull, rowLdfifo, rowStfifo]

/-- The rows of major 0x30. -/
def rows30 : List Row :=
  [rowPfL1, rowPfMsc, rowWb, rowInv, rowWbinv]

/-- The rows of major 0x32. -/
def rows32 : List Row :=
  [rowAtom]

/-- The rows of major 0x33. -/
def rows33 : List Row :=
  [rowRed]

/-- The rows of major 0x34. -/
def rows34 : List Row :=
  [rowFence, rowFenceAcq, rowFenceRel, rowTlfence]

/-- The rows of major 0x35. -/
def rows35 : List Row :=
  [rowBarInitImm, rowBarInitReg, rowBarArr, rowBarWait, rowBarSync, rowCvdeclImm,
   rowCvdeclReg, rowCvsync, rowElect, rowRelease]

/-- The rows of major 0x36. -/
def rows36 : List Row :=
  [rowLdvMin, rowLdvAt, rowVpin, rowVunpin]

/-- The rows of major 0x37. -/
def rows37 : List Row :=
  [rowStepAdv, rowRgnB, rowRgnE]

/-- The rows of major 0x38. -/
def rows38 : List Row :=
  [rowTkwait, rowTkpass]

/-- The rows of major 0x39. -/
def rows39 : List Row :=
  [rowTcopy, rowQput, rowColl, rowSpawn]

/-- The rows of major 0x3A. -/
def rows3A : List Row :=
  [rowBin, rowBinrel, rowCarve]

/-- The rows of major 0x3B. -/
def rows3B : List Row :=
  [rowMfs, rowMts, rowTrap, rowTret, rowTretSkip, rowEnrd,
   rowBrk]

/-- The encoding table: every row of the opcode map that has an encoding. -/
def rows : List Row :=
  rows01 ++
  rows02 ++
  rows03 ++
  rows04 ++
  rows05 ++
  rows06 ++
  rows07 ++
  rows08 ++
  rows09 ++
  rows0A ++
  rows0C ++
  rows0D ++
  rows0E ++
  rows0F ++
  rows10 ++
  rows11 ++
  rows12 ++
  rows13 ++
  rows14 ++
  rows18 ++
  rows19 ++
  rows1A ++
  rows20 ++
  rows21 ++
  rows22 ++
  rows24 ++
  rows25 ++
  rows26 ++
  rows27 ++
  rows28 ++
  rows29 ++
  rows2A ++
  rows2B ++
  rows2C ++
  rows2D ++
  rows2E ++
  rows2F ++
  rows30 ++
  rows32 ++
  rows33 ++
  rows34 ++
  rows35 ++
  rows36 ++
  rows37 ++
  rows38 ++
  rows39 ++
  rows3A ++
  rows3B

/-- The row, the chain and the field codes of an instruction word; none for a step of the package. -/
def Instr.enc : Instr → Option (Row × Mods × List Nat)
  | .add m x0 x1 x2 => some (rowAdd, m, [regCodec.code x0, regCodec.code x1, regCodec.code x2])
  | .sub m x0 x1 x2 => some (rowSub, m, [regCodec.code x0, regCodec.code x1, regCodec.code x2])
  | .mul m x0 x1 x2 => some (rowMul, m, [regCodec.code x0, regCodec.code x1, regCodec.code x2])
  | .mulhs m x0 x1 x2 => some (rowMulhs, m, [regCodec.code x0, regCodec.code x1, regCodec.code x2])
  | .mulhu m x0 x1 x2 => some (rowMulhu, m, [regCodec.code x0, regCodec.code x1, regCodec.code x2])
  | .mins m x0 x1 x2 => some (rowMins, m, [regCodec.code x0, regCodec.code x1, regCodec.code x2])
  | .minu m x0 x1 x2 => some (rowMinu, m, [regCodec.code x0, regCodec.code x1, regCodec.code x2])
  | .maxs m x0 x1 x2 => some (rowMaxs, m, [regCodec.code x0, regCodec.code x1, regCodec.code x2])
  | .maxu m x0 x1 x2 => some (rowMaxu, m, [regCodec.code x0, regCodec.code x1, regCodec.code x2])
  | .and m x0 x1 x2 => some (rowAnd, m, [regCodec.code x0, regCodec.code x1, regCodec.code x2])
  | .or m x0 x1 x2 => some (rowOr, m, [regCodec.code x0, regCodec.code x1, regCodec.code x2])
  | .xor m x0 x1 x2 => some (rowXor, m, [regCodec.code x0, regCodec.code x1, regCodec.code x2])
  | .andn m x0 x1 x2 => some (rowAndn, m, [regCodec.code x0, regCodec.code x1, regCodec.code x2])
  | .shl m x0 x1 x2 => some (rowShl, m, [regCodec.code x0, regCodec.code x1, regCodec.code x2])
  | .shr m x0 x1 x2 => some (rowShr, m, [regCodec.code x0, regCodec.code x1, regCodec.code x2])
  | .sar m x0 x1 x2 => some (rowSar, m, [regCodec.code x0, regCodec.code x1, regCodec.code x2])
  | .rol m x0 x1 x2 => some (rowRol, m, [regCodec.code x0, regCodec.code x1, regCodec.code x2])
  | .ror m x0 x1 x2 => some (rowRor, m, [regCodec.code x0, regCodec.code x1, regCodec.code x2])
  | .clz m x0 x1 => some (rowClz, m, [regCodec.code x0, regCodec.code x1])
  | .ffs m x0 x1 => some (rowFfs, m, [regCodec.code x0, regCodec.code x1])
  | .popc m x0 x1 => some (rowPopc, m, [regCodec.code x0, regCodec.code x1])
  | .brev m x0 x1 => some (rowBrev, m, [regCodec.code x0, regCodec.code x1])
  | .abs m x0 x1 => some (rowAbs, m, [regCodec.code x0, regCodec.code x1])
  | .neg m x0 x1 => some (rowNeg, m, [regCodec.code x0, regCodec.code x1])
  | .addus m x0 x1 x2 => some (rowAddus, m, [regCodec.code x0, regCodec.code x1, regCodec.code x2])
  | .subus m x0 x1 x2 => some (rowSubus, m, [regCodec.code x0, regCodec.code x1, regCodec.code x2])
  | .mulws m x0 x1 x2 => some (rowMulws, m, [regCodec.code x0, regCodec.code x1, regCodec.code x2])
  | .mulwu m x0 x1 x2 => some (rowMulwu, m, [regCodec.code x0, regCodec.code x1, regCodec.code x2])
  | .addX2 m x0 x1 x2 => some (rowAddX2, m, [regCodec.code x0, regCodec.code x1, regCodec.code x2])
  | .subX2 m x0 x1 x2 => some (rowSubX2, m, [regCodec.code x0, regCodec.code x1, regCodec.code x2])
  | .mulX2 m x0 x1 x2 => some (rowMulX2, m, [regCodec.code x0, regCodec.code x1, regCodec.code x2])
  | .mulhsX2 m x0 x1 x2 => some (rowMulhsX2, m, [regCodec.code x0, regCodec.code x1, regCodec.code x2])
  | .mulhuX2 m x0 x1 x2 => some (rowMulhuX2, m, [regCodec.code x0, regCodec.code x1, regCodec.code x2])
  | .minsX2 m x0 x1 x2 => some (rowMinsX2, m, [regCodec.code x0, regCodec.code x1, regCodec.code x2])
  | .minuX2 m x0 x1 x2 => some (rowMinuX2, m, [regCodec.code x0, regCodec.code x1, regCodec.code x2])
  | .maxsX2 m x0 x1 x2 => some (rowMaxsX2, m, [regCodec.code x0, regCodec.code x1, regCodec.code x2])
  | .maxuX2 m x0 x1 x2 => some (rowMaxuX2, m, [regCodec.code x0, regCodec.code x1, regCodec.code x2])
  | .andX2 m x0 x1 x2 => some (rowAndX2, m, [regCodec.code x0, regCodec.code x1, regCodec.code x2])
  | .orX2 m x0 x1 x2 => some (rowOrX2, m, [regCodec.code x0, regCodec.code x1, regCodec.code x2])
  | .xorX2 m x0 x1 x2 => some (rowXorX2, m, [regCodec.code x0, regCodec.code x1, regCodec.code x2])
  | .andnX2 m x0 x1 x2 => some (rowAndnX2, m, [regCodec.code x0, regCodec.code x1, regCodec.code x2])
  | .shlX2 m x0 x1 x2 => some (rowShlX2, m, [regCodec.code x0, regCodec.code x1, regCodec.code x2])
  | .shrX2 m x0 x1 x2 => some (rowShrX2, m, [regCodec.code x0, regCodec.code x1, regCodec.code x2])
  | .sarX2 m x0 x1 x2 => some (rowSarX2, m, [regCodec.code x0, regCodec.code x1, regCodec.code x2])
  | .rolX2 m x0 x1 x2 => some (rowRolX2, m, [regCodec.code x0, regCodec.code x1, regCodec.code x2])
  | .rorX2 m x0 x1 x2 => some (rowRorX2, m, [regCodec.code x0, regCodec.code x1, regCodec.code x2])
  | .clzX2 m x0 x1 => some (rowClzX2, m, [regCodec.code x0, regCodec.code x1])
  | .ffsX2 m x0 x1 => some (rowFfsX2, m, [regCodec.code x0, regCodec.code x1])
  | .popcX2 m x0 x1 => some (rowPopcX2, m, [regCodec.code x0, regCodec.code x1])
  | .brevX2 m x0 x1 => some (rowBrevX2, m, [regCodec.code x0, regCodec.code x1])
  | .absX2 m x0 x1 => some (rowAbsX2, m, [regCodec.code x0, regCodec.code x1])
  | .negX2 m x0 x1 => some (rowNegX2, m, [regCodec.code x0, regCodec.code x1])
  | .addusX2 m x0 x1 x2 => some (rowAddusX2, m, [regCodec.code x0, regCodec.code x1, regCodec.code x2])
  | .subusX2 m x0 x1 x2 => some (rowSubusX2, m, [regCodec.code x0, regCodec.code x1, regCodec.code x2])
  | .addX4 m x0 x1 x2 => some (rowAddX4, m, [regCodec.code x0, regCodec.code x1, regCodec.code x2])
  | .subX4 m x0 x1 x2 => some (rowSubX4, m, [regCodec.code x0, regCodec.code x1, regCodec.code x2])
  | .mulX4 m x0 x1 x2 => some (rowMulX4, m, [regCodec.code x0, regCodec.code x1, regCodec.code x2])
  | .mulhsX4 m x0 x1 x2 => some (rowMulhsX4, m, [regCodec.code x0, regCodec.code x1, regCodec.code x2])
  | .mulhuX4 m x0 x1 x2 => some (rowMulhuX4, m, [regCodec.code x0, regCodec.code x1, regCodec.code x2])
  | .minsX4 m x0 x1 x2 => some (rowMinsX4, m, [regCodec.code x0, regCodec.code x1, regCodec.code x2])
  | .minuX4 m x0 x1 x2 => some (rowMinuX4, m, [regCodec.code x0, regCodec.code x1, regCodec.code x2])
  | .maxsX4 m x0 x1 x2 => some (rowMaxsX4, m, [regCodec.code x0, regCodec.code x1, regCodec.code x2])
  | .maxuX4 m x0 x1 x2 => some (rowMaxuX4, m, [regCodec.code x0, regCodec.code x1, regCodec.code x2])
  | .andX4 m x0 x1 x2 => some (rowAndX4, m, [regCodec.code x0, regCodec.code x1, regCodec.code x2])
  | .orX4 m x0 x1 x2 => some (rowOrX4, m, [regCodec.code x0, regCodec.code x1, regCodec.code x2])
  | .xorX4 m x0 x1 x2 => some (rowXorX4, m, [regCodec.code x0, regCodec.code x1, regCodec.code x2])
  | .andnX4 m x0 x1 x2 => some (rowAndnX4, m, [regCodec.code x0, regCodec.code x1, regCodec.code x2])
  | .shlX4 m x0 x1 x2 => some (rowShlX4, m, [regCodec.code x0, regCodec.code x1, regCodec.code x2])
  | .shrX4 m x0 x1 x2 => some (rowShrX4, m, [regCodec.code x0, regCodec.code x1, regCodec.code x2])
  | .sarX4 m x0 x1 x2 => some (rowSarX4, m, [regCodec.code x0, regCodec.code x1, regCodec.code x2])
  | .rolX4 m x0 x1 x2 => some (rowRolX4, m, [regCodec.code x0, regCodec.code x1, regCodec.code x2])
  | .rorX4 m x0 x1 x2 => some (rowRorX4, m, [regCodec.code x0, regCodec.code x1, regCodec.code x2])
  | .clzX4 m x0 x1 => some (rowClzX4, m, [regCodec.code x0, regCodec.code x1])
  | .ffsX4 m x0 x1 => some (rowFfsX4, m, [regCodec.code x0, regCodec.code x1])
  | .popcX4 m x0 x1 => some (rowPopcX4, m, [regCodec.code x0, regCodec.code x1])
  | .brevX4 m x0 x1 => some (rowBrevX4, m, [regCodec.code x0, regCodec.code x1])
  | .absX4 m x0 x1 => some (rowAbsX4, m, [regCodec.code x0, regCodec.code x1])
  | .negX4 m x0 x1 => some (rowNegX4, m, [regCodec.code x0, regCodec.code x1])
  | .addusX4 m x0 x1 x2 => some (rowAddusX4, m, [regCodec.code x0, regCodec.code x1, regCodec.code x2])
  | .subusX4 m x0 x1 x2 => some (rowSubusX4, m, [regCodec.code x0, regCodec.code x1, regCodec.code x2])
  | .add64 m x0 x1 x2 => some (rowAdd64, m, [regCodec.code x0, regCodec.code x1, regCodec.code x2])
  | .sub64 m x0 x1 x2 => some (rowSub64, m, [regCodec.code x0, regCodec.code x1, regCodec.code x2])
  | .mul64 m x0 x1 x2 => some (rowMul64, m, [regCodec.code x0, regCodec.code x1, regCodec.code x2])
  | .mulhs64 m x0 x1 x2 => some (rowMulhs64, m, [regCodec.code x0, regCodec.code x1, regCodec.code x2])
  | .mulhu64 m x0 x1 x2 => some (rowMulhu64, m, [regCodec.code x0, regCodec.code x1, regCodec.code x2])
  | .mins64 m x0 x1 x2 => some (rowMins64, m, [regCodec.code x0, regCodec.code x1, regCodec.code x2])
  | .minu64 m x0 x1 x2 => some (rowMinu64, m, [regCodec.code x0, regCodec.code x1, regCodec.code x2])
  | .maxs64 m x0 x1 x2 => some (rowMaxs64, m, [regCodec.code x0, regCodec.code x1, regCodec.code x2])
  | .maxu64 m x0 x1 x2 => some (rowMaxu64, m, [regCodec.code x0, regCodec.code x1, regCodec.code x2])
  | .and64 m x0 x1 x2 => some (rowAnd64, m, [regCodec.code x0, regCodec.code x1, regCodec.code x2])
  | .or64 m x0 x1 x2 => some (rowOr64, m, [regCodec.code x0, regCodec.code x1, regCodec.code x2])
  | .xor64 m x0 x1 x2 => some (rowXor64, m, [regCodec.code x0, regCodec.code x1, regCodec.code x2])
  | .andn64 m x0 x1 x2 => some (rowAndn64, m, [regCodec.code x0, regCodec.code x1, regCodec.code x2])
  | .shl64 m x0 x1 x2 => some (rowShl64, m, [regCodec.code x0, regCodec.code x1, regCodec.code x2])
  | .shr64 m x0 x1 x2 => some (rowShr64, m, [regCodec.code x0, regCodec.code x1, regCodec.code x2])
  | .sar64 m x0 x1 x2 => some (rowSar64, m, [regCodec.code x0, regCodec.code x1, regCodec.code x2])
  | .rol64 m x0 x1 x2 => some (rowRol64, m, [regCodec.code x0, regCodec.code x1, regCodec.code x2])
  | .ror64 m x0 x1 x2 => some (rowRor64, m, [regCodec.code x0, regCodec.code x1, regCodec.code x2])
  | .clz64 m x0 x1 => some (rowClz64, m, [regCodec.code x0, regCodec.code x1])
  | .ffs64 m x0 x1 => some (rowFfs64, m, [regCodec.code x0, regCodec.code x1])
  | .popc64 m x0 x1 => some (rowPopc64, m, [regCodec.code x0, regCodec.code x1])
  | .brev64 m x0 x1 => some (rowBrev64, m, [regCodec.code x0, regCodec.code x1])
  | .abs64 m x0 x1 => some (rowAbs64, m, [regCodec.code x0, regCodec.code x1])
  | .neg64 m x0 x1 => some (rowNeg64, m, [regCodec.code x0, regCodec.code x1])
  | .addus64 m x0 x1 x2 => some (rowAddus64, m, [regCodec.code x0, regCodec.code x1, regCodec.code x2])
  | .subus64 m x0 x1 x2 => some (rowSubus64, m, [regCodec.code x0, regCodec.code x1, regCodec.code x2])
  | .addi m x0 x1 x2 => some (rowAddi, m, [regCodec.code x0, regCodec.code x1, (bitsCodec 9).code x2])
  | .muli m x0 x1 x2 => some (rowMuli, m, [regCodec.code x0, regCodec.code x1, (bitsCodec 9).code x2])
  | .andi m x0 x1 x2 => some (rowAndi, m, [regCodec.code x0, regCodec.code x1, (bitsCodec 9).code x2])
  | .ori m x0 x1 x2 => some (rowOri, m, [regCodec.code x0, regCodec.code x1, (bitsCodec 9).code x2])
  | .xori m x0 x1 x2 => some (rowXori, m, [regCodec.code x0, regCodec.code x1, (bitsCodec 9).code x2])
  | .shli m x0 x1 x2 => some (rowShli, m, [regCodec.code x0, regCodec.code x1, (bitsCodec 9).code x2])
  | .shri m x0 x1 x2 => some (rowShri, m, [regCodec.code x0, regCodec.code x1, (bitsCodec 9).code x2])
  | .sari m x0 x1 x2 => some (rowSari, m, [regCodec.code x0, regCodec.code x1, (bitsCodec 9).code x2])
  | .addi64 m x0 x1 x2 => some (rowAddi64, m, [regCodec.code x0, regCodec.code x1, (bitsCodec 9).code x2])
  | .muli64 m x0 x1 x2 => some (rowMuli64, m, [regCodec.code x0, regCodec.code x1, (bitsCodec 9).code x2])
  | .andi64 m x0 x1 x2 => some (rowAndi64, m, [regCodec.code x0, regCodec.code x1, (bitsCodec 9).code x2])
  | .ori64 m x0 x1 x2 => some (rowOri64, m, [regCodec.code x0, regCodec.code x1, (bitsCodec 9).code x2])
  | .xori64 m x0 x1 x2 => some (rowXori64, m, [regCodec.code x0, regCodec.code x1, (bitsCodec 9).code x2])
  | .shli64 m x0 x1 x2 => some (rowShli64, m, [regCodec.code x0, regCodec.code x1, (bitsCodec 9).code x2])
  | .shri64 m x0 x1 x2 => some (rowShri64, m, [regCodec.code x0, regCodec.code x1, (bitsCodec 9).code x2])
  | .sari64 m x0 x1 x2 => some (rowSari64, m, [regCodec.code x0, regCodec.code x1, (bitsCodec 9).code x2])
  | .bfez m x0 x1 x2 x3 => some (rowBfez, m, [regCodec.code x0, regCodec.code x1, (finCodec 32).code x2, (finCodec 32).code x3])
  | .bfes m x0 x1 x2 x3 => some (rowBfes, m, [regCodec.code x0, regCodec.code x1, (finCodec 32).code x2, (finCodec 32).code x3])
  | .bfi m x0 x1 x2 x3 => some (rowBfi, m, [regCodec.code x0, regCodec.code x1, (finCodec 32).code x2, (finCodec 32).code x3])
  | .movi m x0 x1 => some (rowMovi, m, [regCodec.code x0, (bitsCodec 9).code x1])
  | .movdi m x0 x1 => some (rowMovdi, m, [regCodec.code x0, (bitsCodec 9).code x1])
  | .leai m x0 x1 x2 => some (rowLeai, m, [regCodec.code x0, regCodec.code x1, (bitsCodec 9).code x2])
  | .mov m x0 x1 => some (rowMov, m, [regCodec.code x0, regCodec.code x1])
  | .movd m x0 x1 => some (rowMovd, m, [regCodec.code x0, regCodec.code x1])
  | .movq m x0 x1 => some (rowMovq, m, [regCodec.code x0, regCodec.code x1])
  | .leas m x0 x1 x2 x3 => some (rowLeas, m, [regCodec.code x0, regCodec.code x1, regCodec.code x2, (finCodec 4).code x3])
  | .leaz m x0 x1 x2 x3 => some (rowLeaz, m, [regCodec.code x0, regCodec.code x1, regCodec.code x2, (finCodec 4).code x3])
  | .mad m x0 x1 x2 => some (rowMad, m, [regCodec.code x0, regCodec.code x1, regCodec.code x2])
  | .madws m x0 x1 x2 => some (rowMadws, m, [regCodec.code x0, regCodec.code x1, regCodec.code x2])
  | .madwu m x0 x1 x2 => some (rowMadwu, m, [regCodec.code x0, regCodec.code x1, regCodec.code x2])
  | .dp4s m x0 x1 x2 => some (rowDp4s, m, [regCodec.code x0, regCodec.code x1, regCodec.code x2])
  | .dp4u m x0 x1 x2 => some (rowDp4u, m, [regCodec.code x0, regCodec.code x1, regCodec.code x2])
  | .cmp m x0 x1 x2 x3 x4 => some (rowCmp, m, [predCodec.code x0, regCodec.code x1, regCodec.code x2, condCodec.code x3, cmpTypeCodec.code x4])
  | .cmpImm m x0 x1 x2 x3 x4 => some (rowCmpImm, m, [predCodec.code x0, regCodec.code x1, condCodec.code x2, intTypeCodec.code x3, (bitsCodec 10).code x4])
  | .sel m x0 x1 x2 x3 x4 x5 => some (rowSel, m, [regCodec.code x0, regCodec.code x1, regCodec.code x2, predCodec.code x3, boolCodec.code x4, boolCodec.code x5])
  | .pand m x0 x1 x2 x3 x4 => some (rowPand, m, [predCodec.code x0, predCodec.code x1, boolCodec.code x2, predCodec.code x3, boolCodec.code x4])
  | .por m x0 x1 x2 x3 x4 => some (rowPor, m, [predCodec.code x0, predCodec.code x1, boolCodec.code x2, predCodec.code x3, boolCodec.code x4])
  | .pxor m x0 x1 x2 x3 x4 => some (rowPxor, m, [predCodec.code x0, predCodec.code x1, boolCodec.code x2, predCodec.code x3, boolCodec.code x4])
  | .p2g m x0 => some (rowP2g, m, [regCodec.code x0])
  | .g2p m x0 => some (rowG2p, m, [regCodec.code x0])
  | .bra m x0 x1 x2 => some (rowBra, m, [predCodec.code x0, boolCodec.code x1, (bitsCodec 19).code x2])
  | .call m x0 x1 x2 => some (rowCall, m, [predCodec.code x0, boolCodec.code x1, (bitsCodec 19).code x2])
  | .loop m x0 x1 x2 => some (rowLoop, m, [boolCodec.code x0, regCodec.code x1, (bitsCodec 16).code x2])
  | .lbrk m x0 => some (rowLbrk, m, [boolCodec.code x0])
  | .jmp m x0 x1 x2 => some (rowJmp, m, [predCodec.code x0, boolCodec.code x1, regCodec.code x2])
  | .calli m x0 x1 x2 => some (rowCalli, m, [predCodec.code x0, boolCodec.code x1, regCodec.code x2])
  | .ret m x0 x1 => some (rowRet, m, [predCodec.code x0, boolCodec.code x1])
  | .join m x0 x1 => some (rowJoin, m, [predCodec.code x0, boolCodec.code x1])
  | .yield m x0 x1 => some (rowYield, m, [predCodec.code x0, boolCodec.code x1])
  | .sleep m x0 x1 x2 => some (rowSleep, m, [predCodec.code x0, boolCodec.code x1, (bitsCodec 19).code x2])
  | .exit m x0 x1 => some (rowExit, m, [predCodec.code x0, boolCodec.code x1])
  | .beq m x0 x1 x2 => some (rowBeq, m, [regCodec.code x0, regCodec.code x1, (bitsCodec 9).code x2])
  | .bne m x0 x1 x2 => some (rowBne, m, [regCodec.code x0, regCodec.code x1, (bitsCodec 9).code x2])
  | .blt m x0 x1 x2 => some (rowBlt, m, [regCodec.code x0, regCodec.code x1, (bitsCodec 9).code x2])
  | .bge m x0 x1 x2 => some (rowBge, m, [regCodec.code x0, regCodec.code x1, (bitsCodec 9).code x2])
  | .bltu m x0 x1 x2 => some (rowBltu, m, [regCodec.code x0, regCodec.code x1, (bitsCodec 9).code x2])
  | .bgeu m x0 x1 x2 => some (rowBgeu, m, [regCodec.code x0, regCodec.code x1, (bitsCodec 9).code x2])
  | .fadd m x0 x1 x2 => some (rowFadd, m, [regCodec.code x0, regCodec.code x1, regCodec.code x2])
  | .fsub m x0 x1 x2 => some (rowFsub, m, [regCodec.code x0, regCodec.code x1, regCodec.code x2])
  | .fmul m x0 x1 x2 => some (rowFmul, m, [regCodec.code x0, regCodec.code x1, regCodec.code x2])
  | .fma m x0 x1 x2 => some (rowFma, m, [regCodec.code x0, regCodec.code x1, regCodec.code x2])
  | .fmin m x0 x1 x2 => some (rowFmin, m, [regCodec.code x0, regCodec.code x1, regCodec.code x2])
  | .fmax m x0 x1 x2 => some (rowFmax, m, [regCodec.code x0, regCodec.code x1, regCodec.code x2])
  | .fminnum m x0 x1 x2 => some (rowFminnum, m, [regCodec.code x0, regCodec.code x1, regCodec.code x2])
  | .fmaxnum m x0 x1 x2 => some (rowFmaxnum, m, [regCodec.code x0, regCodec.code x1, regCodec.code x2])
  | .fabs m x0 x1 => some (rowFabs, m, [regCodec.code x0, regCodec.code x1])
  | .fneg m x0 x1 => some (rowFneg, m, [regCodec.code x0, regCodec.code x1])
  | .fclass m x0 x1 => some (rowFclass, m, [regCodec.code x0, regCodec.code x1])
  | .fcopysign m x0 x1 x2 => some (rowFcopysign, m, [regCodec.code x0, regCodec.code x1, regCodec.code x2])
  | .fscale m x0 x1 x2 => some (rowFscale, m, [regCodec.code x0, regCodec.code x1, regCodec.code x2])
  | .faddX2 m x0 x1 x2 x3 => some (rowFaddX2, m, [regCodec.code x0, regCodec.code x1, regCodec.code x2, halfFmtCodec.code x3])
  | .fsubX2 m x0 x1 x2 x3 => some (rowFsubX2, m, [regCodec.code x0, regCodec.code x1, regCodec.code x2, halfFmtCodec.code x3])
  | .fmulX2 m x0 x1 x2 x3 => some (rowFmulX2, m, [regCodec.code x0, regCodec.code x1, regCodec.code x2, halfFmtCodec.code x3])
  | .fmaX2 m x0 x1 x2 x3 => some (rowFmaX2, m, [regCodec.code x0, regCodec.code x1, regCodec.code x2, halfFmtCodec.code x3])
  | .fminX2 m x0 x1 x2 x3 => some (rowFminX2, m, [regCodec.code x0, regCodec.code x1, regCodec.code x2, halfFmtCodec.code x3])
  | .fmaxX2 m x0 x1 x2 x3 => some (rowFmaxX2, m, [regCodec.code x0, regCodec.code x1, regCodec.code x2, halfFmtCodec.code x3])
  | .fabsX2 m x0 x1 x2 => some (rowFabsX2, m, [regCodec.code x0, regCodec.code x1, halfFmtCodec.code x2])
  | .fnegX2 m x0 x1 x2 => some (rowFnegX2, m, [regCodec.code x0, regCodec.code x1, halfFmtCodec.code x2])
  | .dot2 m x0 x1 x2 x3 => some (rowDot2, m, [regCodec.code x0, regCodec.code x1, regCodec.code x2, halfFmtCodec.code x3])
  | .rcp m x0 x1 => some (rowRcp, m, [regCodec.code x0, regCodec.code x1])
  | .rsq m x0 x1 => some (rowRsq, m, [regCodec.code x0, regCodec.code x1])
  | .sqrt m x0 x1 => some (rowSqrt, m, [regCodec.code x0, regCodec.code x1])
  | .ex2 m x0 x1 => some (rowEx2, m, [regCodec.code x0, regCodec.code x1])
  | .lg2 m x0 x1 => some (rowLg2, m, [regCodec.code x0, regCodec.code x1])
  | .sin m x0 x1 => some (rowSin, m, [regCodec.code x0, regCodec.code x1])
  | .cos m x0 x1 => some (rowCos, m, [regCodec.code x0, regCodec.code x1])
  | .tanh m x0 x1 => some (rowTanh, m, [regCodec.code x0, regCodec.code x1])
  | .div m x0 x1 x2 => some (rowDiv, m, [regCodec.code x0, regCodec.code x1, regCodec.code x2])
  | .cvt m x0 x1 x2 x3 x4 x5 => some (rowCvt, m, [regCodec.code x0, regCodec.code x1, fmtCodec.code x2, fmtCodec.code x3, (finCodec 4).code x4, (finCodec 4).code x5])
  | .qc4 m x0 x1 x2 => some (rowQc4, m, [regCodec.code x0, regCodec.code x1, regCodec.code x2])
  | .dqc4 m x0 x1 x2 => some (rowDqc4, m, [regCodec.code x0, regCodec.code x1, regCodec.code x2])
  | .rand m x0 x1 x2 => some (rowRand, m, [regCodec.code x0, regCodec.code x1, regCodec.code x2])
  | .randf m x0 x1 x2 => some (rowRandf, m, [regCodec.code x0, regCodec.code x1, regCodec.code x2])
  | .xlane m x0 x1 x2 x3 x4 x5 => some (rowXlane, m, [regCodec.code x0, regCodec.code x1, xModeCodec.code x2, boolCodec.code x3, (finCodec 32).code x4, (finCodec 16).code x5])
  | .agreeAll m x0 x1 x2 => some (rowAgreeAll, m, [predSelCodec.code x0, predCodec.code x1, (finCodec 16).code x2])
  | .agreeSome m x0 x1 x2 => some (rowAgreeSome, m, [predSelCodec.code x0, predCodec.code x1, (finCodec 16).code x2])
  | .agreeSame m x0 x1 x2 => some (rowAgreeSame, m, [predSelCodec.code x0, predCodec.code x1, (finCodec 16).code x2])
  | .agreeMask m x0 x1 x2 => some (rowAgreeMask, m, [regCodec.code x0, predSelCodec.code x1, (finCodec 16).code x2])
  | .peers m x0 x1 x2 => some (rowPeers, m, [regCodec.code x0, regCodec.code x1, (finCodec 16).code x2])
  | .peersAll m x0 x1 x2 x3 => some (rowPeersAll, m, [regCodec.code x0, regCodec.code x1, predCodec.code x2, (finCodec 16).code x3])
  | .agreeCount m x0 x1 x2 => some (rowAgreeCount, m, [regCodec.code x0, predSelCodec.code x1, (finCodec 16).code x2])
  | .gred m x0 x1 x2 x3 x4 x5 => some (rowGred, m, [regCodec.code x0, regCodec.code x1, predCodec.code x2, groupOpCodec.code x3, boolCodec.code x4, (finCodec 16).code x5])
  | .gscan m x0 x1 x2 x3 x4 x5 => some (rowGscan, m, [regCodec.code x0, regCodec.code x1, predCodec.code x2, groupOpCodec.code x3, boolCodec.code x4, (finCodec 16).code x5])
  | .gscanx m x0 x1 x2 x3 x4 x5 => some (rowGscanx, m, [regCodec.code x0, regCodec.code x1, predCodec.code x2, groupOpCodec.code x3, boolCodec.code x4, (finCodec 16).code x5])
  | .mma m x0 x1 x2 x3 x4 x5 x6 => some (rowMma, m, [(finCodec 16).code x0, (finCodec 32).code x1, (finCodec 32).code x2, (finCodec 32).code x3, mmaFmtCodec.code x4, (finCodec 16).code x5, boolCodec.code x6])
  | .mmaPart m x0 x1 x2 x3 x4 x5 x6 => some (rowMmaPart, m, [(finCodec 16).code x0, (finCodec 32).code x1, (finCodec 32).code x2, (finCodec 32).code x3, fp8FmtCodec.code x4, boolCodec.code x5, (finCodec 16).code x6])
  | .mmaC4 m x0 x1 x2 x3 x4 x5 => some (rowMmaC4, m, [(finCodec 16).code x0, (finCodec 32).code x1, (finCodec 32).code x2, (finCodec 32).code x3, boolCodec.code x4, (finCodec 16).code x5])
  | .scacc m x0 x1 x2 x3 x4 => some (rowScacc, m, [(finCodec 16).code x0, (finCodec 16).code x1, (finCodec 32).code x2, (finCodec 32).code x3, (finCodec 16).code x4])
  | .accmov m x0 x1 x2 => some (rowAccmov, m, [(finCodec 16).code x0, (finCodec 16).code x1, (finCodec 16).code x2])
  | .acczero m x0 x1 => some (rowAcczero, m, [(finCodec 16).code x0, (finCodec 16).code x1])
  | .accadd m x0 x1 x2 => some (rowAccadd, m, [(finCodec 16).code x0, (finCodec 16).code x1, (finCodec 16).code x2])
  | .ld m x0 x1 x2 x3 x4 => some (rowLd, m, [regCodec.code x0, regCodec.code x1, spaceCodec.code x2, memWidthCodec.code x3, (bitsCodec 7).code x4])
  | .st m x0 x1 x2 x3 x4 => some (rowSt, m, [regCodec.code x0, regCodec.code x1, spaceCodec.code x2, memWidthCodec.code x3, (bitsCodec 7).code x4])
  | .ldAcq m x0 x1 x2 x3 x4 => some (rowLdAcq, m, [regCodec.code x0, regCodec.code x1, spaceCodec.code x2, memWidthCodec.code x3, scopeCodec.code x4])
  | .stRel m x0 x1 x2 x3 x4 => some (rowStRel, m, [regCodec.code x0, regCodec.code x1, spaceCodec.code x2, memWidthCodec.code x3, scopeCodec.code x4])
  | .ldfe m x0 x1 x2 x3 => some (rowLdfe, m, [regCodec.code x0, regCodec.code x1, granWidthCodec.code x2, (bitsCodec 6).code x3])
  | .ldfec m x0 x1 x2 x3 => some (rowLdfec, m, [regCodec.code x0, regCodec.code x1, granWidthCodec.code x2, (bitsCodec 6).code x3])
  | .stfull m x0 x1 x2 x3 => some (rowStfull, m, [regCodec.code x0, regCodec.code x1, granWidthCodec.code x2, (bitsCodec 6).code x3])
  | .ldfifo m x0 x1 x2 => some (rowLdfifo, m, [regCodec.code x0, granWidthCodec.code x1, (bitsCodec 6).code x2])
  | .stfifo m x0 x1 x2 => some (rowStfifo, m, [regCodec.code x0, granWidthCodec.code x1, (bitsCodec 6).code x2])
  | .pfL1 m x0 x1 => some (rowPfL1, m, [regCodec.code x0, (bitsCodec 12).code x1])
  | .pfMsc m x0 x1 => some (rowPfMsc, m, [regCodec.code x0, (bitsCodec 12).code x1])
  | .wb m x0 x1 x2 => some (rowWb, m, [scopeCodec.code x0, regCodec.code x1, (bitsCodec 12).code x2])
  | .inv m x0 x1 x2 => some (rowInv, m, [scopeCodec.code x0, regCodec.code x1, (bitsCodec 12).code x2])
  | .wbinv m x0 x1 x2 => some (rowWbinv, m, [scopeCodec.code x0, regCodec.code x1, (bitsCodec 12).code x2])
  | .atom m x0 x1 x2 x3 x4 x5 x6 => some (rowAtom, m, [regCodec.code x0, regCodec.code x1, atomOpCodec.code x2, boolCodec.code x3, atomSpaceCodec.code x4, scopeCodec.code x5, memOrdCodec.code x6])
  | .red m x0 x1 x2 x3 x4 x5 x6 => some (rowRed, m, [regCodec.code x0, regCodec.code x1, atomOpCodec.code x2, boolCodec.code x3, atomSpaceCodec.code x4, scopeCodec.code x5, memOrdCodec.code x6])
  | .fence m x0 => some (rowFence, m, [scopeCodec.code x0])
  | .fenceAcq m x0 => some (rowFenceAcq, m, [scopeCodec.code x0])
  | .fenceRel m x0 => some (rowFenceRel, m, [scopeCodec.code x0])
  | .tlfence m x0 => some (rowTlfence, m, [scopeCodec.code x0])
  | .barInitImm m x0 x1 => some (rowBarInitImm, m, [(finCodec 16).code x0, (bitsCodec 11).code x1])
  | .barInitReg m x0 x1 => some (rowBarInitReg, m, [(finCodec 16).code x0, regCodec.code x1])
  | .barArr m x0 => some (rowBarArr, m, [(finCodec 16).code x0])
  | .barWait m x0 => some (rowBarWait, m, [(finCodec 16).code x0])
  | .barSync m x0 => some (rowBarSync, m, [(finCodec 16).code x0])
  | .cvdeclImm m x0 x1 => some (rowCvdeclImm, m, [(finCodec 16).code x0, (bitsCodec 11).code x1])
  | .cvdeclReg m x0 x1 => some (rowCvdeclReg, m, [(finCodec 16).code x0, regCodec.code x1])
  | .cvsync m x0 => some (rowCvsync, m, [(finCodec 16).code x0])
  | .elect m x0 x1 => some (rowElect, m, [(finCodec 16).code x0, predCodec.code x1])
  | .release m x0 => some (rowRelease, m, [(finCodec 16).code x0])
  | .ldvMin m x0 x1 x2 x3 => some (rowLdvMin, m, [regCodec.code x0, regCodec.code x1, regCodec.code x2, verWidthCodec.code x3])
  | .ldvAt m x0 x1 x2 x3 => some (rowLdvAt, m, [regCodec.code x0, regCodec.code x1, regCodec.code x2, verWidthCodec.code x3])
  | .vpin m x0 x1 x2 => some (rowVpin, m, [regCodec.code x0, regCodec.code x1, regCodec.code x2])
  | .vunpin m x0 => some (rowVunpin, m, [regCodec.code x0])
  | .stepAdv m x0 => some (rowStepAdv, m, [regCodec.code x0])
  | .rgnB m x0 x1 => some (rowRgnB, m, [regCodec.code x0, (bitsCodec 16).code x1])
  | .rgnE m => some (rowRgnE, m, [])
  | .tkwait m => some (rowTkwait, m, [])
  | .tkpass m => some (rowTkpass, m, [])
  | .tcopy m x0 x1 => some (rowTcopy, m, [regCodec.code x0, (finCodec 16).code x1])
  | .qput m x0 x1 => some (rowQput, m, [regCodec.code x0, regCodec.code x1])
  | .coll m x0 x1 x2 => some (rowColl, m, [regCodec.code x0, regCodec.code x1, (finCodec 16).code x2])
  | .spawn m x0 x1 => some (rowSpawn, m, [regCodec.code x0, regCodec.code x1])
  | .bin m x0 x1 x2 => some (rowBin, m, [regCodec.code x0, regCodec.code x1, regCodec.code x2])
  | .binrel m x0 => some (rowBinrel, m, [regCodec.code x0])
  | .carve m x0 x1 x2 => some (rowCarve, m, [regCodec.code x0, regCodec.code x1, regCodec.code x2])
  | .mfs m x0 x1 => some (rowMfs, m, [regCodec.code x0, (bitsCodec 10).code x1])
  | .mts m x0 x1 => some (rowMts, m, [regCodec.code x0, (bitsCodec 10).code x1])
  | .trap m x0 => some (rowTrap, m, [(bitsCodec 10).code x0])
  | .tret m => some (rowTret, m, [])
  | .tretSkip m => some (rowTretSkip, m, [])
  | .enrd m x0 x1 => some (rowEnrd, m, [regCodec.code x0, (bitsCodec 10).code x1])
  | .brk m x0 => some (rowBrk, m, [(bitsCodec 10).code x0])
  | .clauseStart _ => none
  | .laneResultWrite _ => none
  | .ejectHandover _ => none
  | .recall _ => none
  | .recallComplete _ => none
  | .joinTimeout _ => none
  | .sleepExpire _ => none
  | .memoryOpComplete _ => none
  | .transcendentalComplete _ => none
  | .matrixIssue _ _ => none
  | .matrixComplete _ => none
  | .teamFreeze _ => none
  | .accessFailure _ => none
  | .regionRestart _ => none
  | .pageWalk _ => none
  | .xlinv _ => none
  | .xlinvComplete _ => none
  | .preemption _ => none
  | .teamSave _ => none
  | .teamRestore _ => none
  | .versionTimeout _ => none
  | .installFrameTake _ => none
  | .installComplete _ => none
  | .installStall _ => none
  | .vcreate _ => none
  | .vdestroy _ => none
  | .vdestroyComplete _ => none
  | .worker _ => none
  | .progressMessage _ _ _ => none
  | .leaveMessage _ _ => none
  | .heartbeat _ => none
  | .peerSilent _ => none
  | .kick _ _ _ => none
  | .queueReread _ => none
  | .launch _ => none
  | .nop _ => none
  | .copy _ => none
  | .qcreate _ => none
  | .placement _ => none
  | .spawnDescriptor _ => none
  | .launchComplete _ => none
  | .qputSlotWrite _ => none
  | .carveComplete _ => none
  | .dirtyWriteback _ _ => none
  | .hostAccess _ _ _ => none
  | .hostBar2Access _ _ _ _ => none
  | .hostSnoop _ _ => none
  | .podRemoteRequest _ _ _ _ => none
  | .remoteDeadline _ => none
  | .planeDown _ => none
  | .plmapWrite _ => none
  | .plmapEffect => none
  | .transportAbandon _ => none
  | .tcopyAccept _ => none
  | .tcopyComplete _ => none
  | .queueCopyComplete _ => none
  | .binrelRelease _ => none
  | .collContributionRead _ => none
  | .contributionArrival _ => none
  | .stepTimer _ => none
  | .collectiveResult _ => none
  | .replayMissing _ => none
  | .partitionWrite => none
  | .vdevCreate => none
  | .vdevDestroy => none
  | .attest => none
  | .stageImage => none
  | .handover => none
  | .setPcap => none
  | .registerPfQueue => none
  | .hok => none
  | .handoverTimeout => none
  | .penrst => none
  | .lullRequest _ => none
  | .wakeWrite _ => none
  | .idleTimeout _ => none
  | .collapseComplete _ => none
  | .wakeComplete _ => none
  | .powerControl _ => none
  | .rampStep _ => none
  | .thermalTrip _ => none
  | .tripClear _ => none
  | .energyUpdate _ _ => none
  | .stopTick => none
  | .packageReset => none
  | .registerWrite _ _ _ => none
  | .illegalInsn _ => none
  | .badTypePacket _ => none
  | .mailboxRefused => none
  | .contributionAck _ => none
  | .planeUp _ => none
  | .binComplete _ => none
  | .uncorrectableError _ => none

end

/-- The instruction accepts a vector prefix: its major is marked in the Prefix column (R57, R64). -/
def prefixAllowed (w : Nat) : Bool :=
  let major := w / 2 ^ 26 % 64
  decide ((0x01 ≤ major ∧ major ≤ 0x0A) ∨ (0x0C ≤ major ∧ major ≤ 0x0F) ∨
    (0x18 ≤ major ∧ major ≤ 0x1A) ∨ (0x20 ≤ major ∧ major ≤ 0x22) ∨
    (0x24 ≤ major ∧ major ≤ 0x27) ∨ (0x2C ≤ major ∧ major ≤ 0x30) ∨
    (0x32 ≤ major ∧ major ≤ 0x34))

/-- The form uses an immediate and so accepts a wide one (R57): its layout has an IMM, OFF or NUM
field that its description does not require to be zero, or it is a form of 0x35 with I = 1 (log entry 30). -/
def usesImmediate (w : Nat) : Bool :=
  let major := w / 2 ^ 26 % 64
  if major = 0x05 ∨ major = 0x06 ∨ major = 0x0D ∨ major = 0x10 ∨ major = 0x14 ∨ major = 0x2C ∨
      major = 0x2D ∨ major = 0x2F ∨ major = 0x30 ∨ major = 0x3B then true
  else if major = 0x08 then
    let fn := w / 2 ^ 9 % 8
    decide (fn ≠ 3 ∧ fn ≠ 4 ∧ fn ≠ 5)
  else if major = 0x11 then decide (w / 2 ^ 24 % 4 ≠ 1)
  else if major = 0x13 then
    let fn := w / 2 ^ 19 % 8
    decide (fn ≠ 0 ∧ fn ≠ 1 ∧ fn ≠ 3)
  else if major = 0x35 then decide (w / 2 ^ 18 % 2 = 1)
  else false

/-- A control word, which may stand only in the last position of its clause (R54). -/
def controlWord (w : Nat) : Bool :=
  let major := w / 2 ^ 26 % 64
  decide (0x10 ≤ major ∧ major ≤ 0x15)

end Sys2Proof
end

