-- ==== Sys2Proof/Machine/Operands.lean ====
section
/-! DEFINITION. Operand forms: immediates (R60, R65), register blocks and their alignment (R62), and
the combinations of field values that the tables reserve (R63, R66 to R73). -/

namespace Sys2Proof

/-- The value an n-bit immediate field makes with the wide immediate above it, as an unsigned number
(R60). -/
def immU {n : Nat} (wide : Option (BitVec 26)) (i : BitVec n) : Nat :=
  match wide with
  | none => i.toNat
  | some w => w.toNat * 2 ^ n + i.toNat

/-- The same combined immediate read as a signed number: bit 25+n, or bit n-1 without a wide
immediate, is the sign (R60). -/
def immS {n : Nat} (wide : Option (BitVec 26)) (i : BitVec n) : Int :=
  match wide with
  | none => i.toInt
  | some w => w.toInt * 2 ^ n + i.toNat

/-- A block of registers that one operand names (R62): its first number, how many registers it
spans, and the multiple that the first number must be. -/
structure Blk where
  base : Nat
  count : Nat
  align : Nat
  deriving DecidableEq, Repr

/-- A single register. -/
def one (r : Reg) : Blk := ⟨r.val, 1, 1⟩

/-- A pair d(n/2). -/
def pair (r : Reg) : Blk := ⟨r.val, 2, 2⟩

/-- A quad q(n/4). -/
def quad (r : Reg) : Blk := ⟨r.val, 4, 4⟩

/-- Eight registers, as the C4 forms name them. -/
def eight (r : Reg) : Blk := ⟨r.val, 8, 8⟩

/-- Sixteen registers, as QPUT names them. -/
def sixteen (r : Reg) : Blk := ⟨r.val, 16, 8⟩

/-- A matrix field D or P: index k names g(8k) to g(8k+7) (R62). -/
def frag8 (k : Fin 16) : Blk := ⟨8 * k.val, 8, 8⟩

/-- A matrix field A, B, H, SCA or SCB: index k names n registers from g(4k) upwards (R62). -/
def frag (k : Fin 32) (n : Nat) : Blk := ⟨4 * k.val, n, 4⟩

/-- A pair when `w` holds, else one register. -/
def wide (w : Bool) (r : Reg) : Blk := if w then pair r else one r

/-- The alignment rule of R62. -/
def Blk.aligned (b : Blk) : Bool := decide (b.base % b.align = 0)

/-- The block lies within g0 to g127 (R62). -/
def Blk.fits (b : Blk) : Bool := decide (b.base + b.count ≤ 128)

/-- The fourth source register of a form that takes one, present with a prefix only (R59). -/
def opd4 (m : Mods) (shape : Reg → Blk) : List Blk :=
  match m.pre with
  | none => []
  | some p => [shape p.opd4]

/-- The operand of a compare type: 64-bit types name pairs (R67). -/
def CmpType.blk : CmpType → Reg → Blk
  | .s64, r | .u64, r => pair r
  | .s32, r | .u32, r | .f32, r | .f16, r | .bf16, r => one r

/-- The floating-point compare types. -/
def CmpType.float : CmpType → Bool
  | .f32 | .f16 | .bf16 => true
  | .s32 | .u32 | .s64 | .u64 => false

/-- The operand of an immediate compare type. -/
def IntType.blk : IntType → Reg → Blk
  | .s64, r | .u64, r => pair r
  | .s32, r | .u32, r => one r

/-- The conditions an integer type allows: codes 0x0 to 0x5 (R67). -/
def Cond.isInt : Cond → Bool
  | .eq | .ne | .lt | .le | .gt | .ge => true
  | .num | .nan | .ueq | .une | .ult | .ule | .ugt | .uge => false

/-- The width in bits of an element of a conversion format (R69). -/
def Fmt.width : Fmt → Nat
  | .e4m3 | .e5m2 | .s8 | .u8 => 8
  | .f16 | .bf16 | .s16 | .u16 => 16
  | .f32 | .s32 | .u32 => 32
  | .s64 | .u64 => 64

/-- The operand of a conversion format: 64-bit operands name pairs (R69). -/
def Fmt.blk (f : Fmt) (r : Reg) : Blk := if f.width = 64 then pair r else one r

/-- DPOS or SPOS selects an element of a narrower operand and is zero otherwise (R69). -/
def Fmt.posOk (f : Fmt) (p : Fin 4) : Bool := decide (p.val * f.width < 32 ∨ p.val = 0)

/-- The register a lane exchange names for its lane operand when I is 0 (R70). -/
def laneReg (imm : Bool) (l : Fin 32) : List Blk := if imm then [] else [⟨l.val, 1, 1⟩]

/-- The operations FP32 groups allow: ADD, MIN and MAX by their signed codes (R70). -/
def GroupOp.isFloat : GroupOp → Bool
  | .add | .mins | .maxs => true
  | .minu | .maxu | .and | .or | .xor => false

/-- The bytes a memory access moves (R194). -/
def MemWidth.bytes : MemWidth → Nat
  | .b8 | .s8 => 1
  | .b16 | .s16 => 2
  | .b32 => 4
  | .b64 => 8
  | .b128 => 16

/-- The data operand of a memory access (R72). -/
def MemWidth.blk : MemWidth → Reg → Blk
  | .b64, r => pair r
  | .b128, r => quad r
  | .b8, r | .b16, r | .b32, r | .s8, r | .s16, r => one r

/-- The sign-extending widths are reserved in stores (R72). -/
def MemWidth.storable : MemWidth → Bool
  | .s8 | .s16 => false
  | .b8 | .b16 | .b32 | .b64 | .b128 => true

/-- The bytes a full-empty or FIFO access moves (R198). -/
def GranWidth.bytes : GranWidth → Nat
  | .b32 => 4
  | .b64 => 8
  | .b128 => 16

/-- The data operand of a full-empty or FIFO access (R198). -/
def GranWidth.blk : GranWidth → Reg → Blk
  | .b32, r => one r
  | .b64, r => pair r
  | .b128, r => quad r

/-- The bytes a versioned load moves (R219). -/
def VerWidth.bytes : VerWidth → Nat
  | .b32 => 4
  | .b64 => 8
  | .b128 => 16

/-- The data operand of a versioned load (R219). -/
def VerWidth.blk : VerWidth → Reg → Blk
  | .b32, r => one r
  | .b64, r => pair r
  | .b128, r => quad r

/-- A global BASE names a pair, every other BASE one register (R62). -/
def Space.blk : Space → Reg → Blk
  | .gl, r => pair r
  | .sc, r | .cl, r | .pv, r => one r

/-- The same for the atomics. -/
def AtomSpace.blk : AtomSpace → Reg → Blk
  | .gl, r => pair r
  | .sc, r | .cl, r => one r

/-- FADD. -/
def AtomOp.isFadd : AtomOp → Bool
  | .fadd => true
  | .add | .mins | .minu | .maxs | .maxu | .and | .or | .xor | .xchg | .cas => false

/-- The operations a reduction allows: all but XCHG and CAS (R204). -/
def AtomOp.reducible : AtomOp → Bool
  | .xchg | .cas => false
  | .add | .mins | .minu | .maxs | .maxu | .and | .or | .xor | .fadd => true

/-- The data operand of an atomic: CAS takes a compare value and a new value (R72). -/
def AtomOp.blk (o : AtomOp) (w : Bool) (r : Reg) : Blk :=
  match o, w with
  | .cas, false => pair r
  | .cas, true => quad r
  | _, false => one r
  | _, true => pair r

/-- The orders a reduction allows: relaxed and release (R204). -/
def MemOrd.reducible : MemOrd → Bool
  | .rlx | .rel => true
  | .acq | .ar => false

/-- The registers a region mask names: bit i names g[SA+i] (R226). -/
def maskRegs (a : Reg) (mask : BitVec 16) : List Blk :=
  (List.range 16).filterMap fun k => if mask.getLsbD k then some ⟨a.val + k, 1, 1⟩ else none

/-- No set bit of a region mask names a register above g127 (R226). -/
def maskFits (a : Reg) (mask : BitVec 16) : Bool :=
  (List.range 16).all fun k => !mask.getLsbD k || decide (a.val + k < 128)

/-- The width in bits of an assigned special register, none for an unassigned number (R34, R246 and
the debug registers of R432 to R434). -/
def sregWidth (n : Nat) : Option Nat :=
  if n ≤ 0x00C then some 32
  else if n = 0x010 then some 64
  else if n = 0x011 ∨ n = 0x012 then some 32
  else if n = 0x013 ∨ n = 0x014 then some 64
  else if n = 0x019 then some 32
  else if n = 0x01A then some 64
  else if n = 0x01B then some 32
  else if 0x020 ≤ n ∧ n ≤ 0x027 then some 32
  else if n = 0x030 ∨ n = 0x031 then some 64
  else if n = 0x032 then some 32
  else if n = 0x034 ∨ n = 0x035 then some 64
  else if n = 0x036 ∨ n = 0x038 then some 32
  else if 0x040 ≤ n ∧ n ≤ 0x047 then some 64
  else if n = 0x050 ∨ n = 0x052 ∨ n = 0x056 then some 64
  else if n = 0x051 ∨ (0x053 ≤ n ∧ n ≤ 0x055) then some 32
  else if 0x080 ≤ n ∧ n ≤ 0x08F then some 32
  else if 0x0A0 ≤ n ∧ n ≤ 0x0CF then some 32
  else if 0x0D0 ≤ n ∧ n ≤ 0x0DF then some 64
  else if 0x100 ≤ n ∧ n ≤ 0x107 then some 64
  else if 0x108 ≤ n ∧ n ≤ 0x110 then some 32
  else if n = 0x180 then some 64
  else none

/-- The register operand of MFS and MTS: a 64-bit special register names a pair (R32, R242). -/
def sregBlk (n : Nat) (r : Reg) : Blk := if sregWidth n = some 64 then pair r else one r

/-- Every register operand of an instruction (R62); a step of the package has none. -/
def Instr.blocks : Instr → List Blk
  | .add _ d a b | .sub _ d a b | .mul _ d a b | .mulhs _ d a b | .mulhu _ d a b | .mins _ d a b
  | .minu _ d a b | .maxs _ d a b | .maxu _ d a b | .and _ d a b | .or _ d a b | .xor _ d a b | .andn _ d a b
  | .shl _ d a b | .shr _ d a b | .sar _ d a b | .rol _ d a b | .ror _ d a b => [one d, one a, one b]
  | .clz _ d a | .ffs _ d a | .popc _ d a | .brev _ d a | .abs _ d a | .neg _ d a => [one d, one a]
  | .addus _ d a b | .subus _ d a b => [one d, one a, one b]
  | .mulws _ d a b | .mulwu _ d a b => [pair d, one a, one b]
  | .addX2 _ d a b | .subX2 _ d a b | .mulX2 _ d a b | .mulhsX2 _ d a b | .mulhuX2 _ d a b | .minsX2 _ d a b
  | .minuX2 _ d a b | .maxsX2 _ d a b | .maxuX2 _ d a b | .andX2 _ d a b | .orX2 _ d a b | .xorX2 _ d a b
  | .andnX2 _ d a b | .shlX2 _ d a b | .shrX2 _ d a b | .sarX2 _ d a b | .rolX2 _ d a b | .rorX2 _ d a b => [one d, one a, one b]
  | .clzX2 _ d a | .ffsX2 _ d a | .popcX2 _ d a | .brevX2 _ d a | .absX2 _ d a | .negX2 _ d a => [one d, one a]
  | .addusX2 _ d a b | .subusX2 _ d a b | .addX4 _ d a b | .subX4 _ d a b | .mulX4 _ d a b | .mulhsX4 _ d a b
  | .mulhuX4 _ d a b | .minsX4 _ d a b | .minuX4 _ d a b | .maxsX4 _ d a b | .maxuX4 _ d a b | .andX4 _ d a b
  | .orX4 _ d a b | .xorX4 _ d a b | .andnX4 _ d a b | .shlX4 _ d a b | .shrX4 _ d a b | .sarX4 _ d a b
  | .rolX4 _ d a b | .rorX4 _ d a b => [one d, one a, one b]
  | .clzX4 _ d a | .ffsX4 _ d a | .popcX4 _ d a | .brevX4 _ d a | .absX4 _ d a | .negX4 _ d a => [one d, one a]
  | .addusX4 _ d a b | .subusX4 _ d a b => [one d, one a, one b]
  | .add64 _ d a b | .sub64 _ d a b | .mul64 _ d a b | .mulhs64 _ d a b | .mulhu64 _ d a b | .mins64 _ d a b
  | .minu64 _ d a b | .maxs64 _ d a b | .maxu64 _ d a b | .and64 _ d a b | .or64 _ d a b | .xor64 _ d a b
  | .andn64 _ d a b | .shl64 _ d a b | .shr64 _ d a b | .sar64 _ d a b | .rol64 _ d a b | .ror64 _ d a b => [pair d, pair a, pair b]
  | .clz64 _ d a | .ffs64 _ d a | .popc64 _ d a | .brev64 _ d a | .abs64 _ d a | .neg64 _ d a => [pair d, pair a]
  | .addus64 _ d a b | .subus64 _ d a b => [pair d, pair a, pair b]
  | .addi _ d a _ | .muli _ d a _ | .andi _ d a _ | .ori _ d a _ | .xori _ d a _ | .shli _ d a _
  | .shri _ d a _ | .sari _ d a _ => [one d, one a]
  | .addi64 _ d a _ | .muli64 _ d a _ | .andi64 _ d a _ | .ori64 _ d a _ | .xori64 _ d a _ | .shli64 _ d a _
  | .shri64 _ d a _ | .sari64 _ d a _ => [pair d, pair a]
  | .bfez _ d a _ _ | .bfes _ d a _ _ | .bfi _ d a _ _ => [one d, one a]
  | .movi _ d _ => [one d]
  | .movdi _ d _ => [pair d]
  | .leai _ d a _ => [pair d, pair a]
  | .mov _ d a => [one d, one a]
  | .movd _ d a => [pair d, pair a]
  | .movq _ d a => [quad d, quad a]
  | .leas _ d a b _ | .leaz _ d a b _ => [pair d, pair a, one b]
  | .mad m d a b => [one d, one a, one b] ++ opd4 m one
  | .madws m d a b | .madwu m d a b => [pair d, one a, one b] ++ opd4 m pair
  | .dp4s m d a b | .dp4u m d a b => [one d, one a, one b] ++ opd4 m one
  | .cmp _ _ a b _ t => [t.blk a, t.blk b]
  | .cmpImm _ _ a _ t _ => [t.blk a]
  | .sel _ d a b _ _ w => [wide w d, wide w a, wide w b]
  | .pand _ _ _ _ _ _ | .por _ _ _ _ _ _ | .pxor _ _ _ _ _ _ => []
  | .p2g _ g | .g2p _ g => [one g]
  | .bra _ _ _ _ | .call _ _ _ _ => []
  | .loop _ _ a _ => [one a]
  | .lbrk _ _ => []
  | .jmp _ _ _ a | .calli _ _ _ a => [pair a]
  | .ret _ _ _ | .join _ _ _ | .yield _ _ _ => []
  | .sleep _ _ _ _ => []
  | .exit _ _ _ => []
  | .beq _ a b _ | .bne _ a b _ | .blt _ a b _ | .bge _ a b _ | .bltu _ a b _ | .bgeu _ a b _ => [one a, one b]
  | .fadd _ d a b | .fsub _ d a b | .fmul _ d a b => [one d, one a, one b]
  | .fma m d a b => [one d, one a, one b] ++ opd4 m one
  | .fmin _ d a b | .fmax _ d a b | .fminnum _ d a b | .fmaxnum _ d a b => [one d, one a, one b]
  | .fabs _ d a | .fneg _ d a | .fclass _ d a => [one d, one a]
  | .fcopysign _ d a b | .fscale _ d a b => [one d, one a, one b]
  | .faddX2 _ d a b _ | .fsubX2 _ d a b _ | .fmulX2 _ d a b _ => [one d, one a, one b]
  | .fmaX2 m d a b _ => [one d, one a, one b] ++ opd4 m one
  | .fminX2 _ d a b _ | .fmaxX2 _ d a b _ => [one d, one a, one b]
  | .fabsX2 _ d a _ | .fnegX2 _ d a _ => [one d, one a]
  | .dot2 m d a b _ => [one d, one a, one b] ++ opd4 m one
  | .rcp _ d a | .rsq _ d a | .sqrt _ d a | .ex2 _ d a | .lg2 _ d a | .sin _ d a | .cos _ d a | .tanh _ d a => [one d, one a]
  | .div _ d a b => [one d, one a, one b]
  | .cvt _ d a t f _ _ => [t.blk d, f.blk a]
  | .qc4 _ d a b => [one d, eight a, one b]
  | .dqc4 _ d a b => [eight d, one a, one b]
  | .rand _ d a b | .randf _ d a b => [one d, one a, one b]
  | .xlane _ d a _ i l _ => [one d, one a] ++ laneReg i l
  | .agreeAll _ _ _ _ | .agreeSome _ _ _ _ | .agreeSame _ _ _ _ => []
  | .agreeMask _ d _ _ => [one d]
  | .peers _ d a _ => [one d, one a]
  | .peersAll _ d a _ _ => [one d, one a]
  | .agreeCount _ d _ _ => [one d]
  | .gred _ d a _ _ _ _ | .gscan _ d a _ _ _ _ | .gscanx _ d a _ _ _ _ => [one d, one a]
  | .mma _ d a b h _ _ _ => [frag8 d, frag a 4, frag b 4, frag h 4]
  | .mmaPart _ d a b h _ s _ => [frag8 d, frag a 4, frag b (if s then 8 else 4), frag h 4]
  | .mmaC4 _ d a b h s _ => [frag8 d, frag a 2, frag b (if s then 4 else 2), frag h 4]
  | .scacc _ d p a b _ => [frag8 d, frag8 p, frag a 4, frag b 4]
  | .accmov _ d p _ => [frag8 d, frag8 p]
  | .acczero _ d _ => [frag8 d]
  | .accadd _ d p _ => [frag8 d, frag8 p]
  | .ld _ v b s w _ | .st _ v b s w _ | .ldAcq _ v b s w _ | .stRel _ v b s w _ => [w.blk v, s.blk b]
  | .ldfe _ v b w _ | .ldfec _ v b w _ | .stfull _ v b w _ => [w.blk v, one b]
  | .ldfifo _ v w _ | .stfifo _ v w _ => [w.blk v]
  | .pfL1 _ b _ | .pfMsc _ b _ => [pair b]
  | .wb _ _ b _ | .inv _ _ b _ | .wbinv _ _ b _ => [pair b]
  | .atom _ v b o w s _ _ | .red _ v b o w s _ _ => [o.blk w v, s.blk b]
  | .fence _ _ | .fenceAcq _ _ | .fenceRel _ _ | .tlfence _ _ => []
  | .barInitImm _ _ _ => []
  | .barInitReg _ _ a => [one a]
  | .barArr _ _ | .barWait _ _ | .barSync _ _ => []
  | .cvdeclImm _ _ _ => []
  | .cvdeclReg _ _ a => [one a]
  | .cvsync _ _ => []
  | .elect _ _ _ => []
  | .release _ _ => []
  | .ldvMin _ d b s w | .ldvAt _ d b s w => [w.blk d, pair b, one s]
  | .vpin _ d b s => [one d, pair b, one s]
  | .vunpin _ b => [pair b]
  | .stepAdv _ a => [one a]
  | .rgnB _ a mk => maskRegs a mk
  | .rgnE _ | .tkwait _ | .tkpass _ => []
  | .tcopy _ d _ => [quad d]
  | .qput _ d a => [pair d, sixteen a]
  | .coll _ d a _ => [pair d, one a]
  | .spawn _ d a => [pair d, pair a]
  | .bin _ d a b => [one d, one a, one b]
  | .binrel _ a => [pair a]
  | .carve _ d a b => [one d, one a, one b]
  | .mfs m r n | .mts m r n => [sregBlk (immU m.wide n) r]
  | .trap _ _ => []
  | .tret _ | .tretSkip _ => []
  | .enrd _ r _ => [pair r]
  | .brk _ _ => []
  | .clauseStart _ | .laneResultWrite _ | .ejectHandover _ | .recall _ | .recallComplete _ | .joinTimeout _
  | .sleepExpire _ | .memoryOpComplete _ | .transcendentalComplete _ => []
  | .matrixIssue _ _ => []
  | .matrixComplete _ | .teamFreeze _ | .accessFailure _ | .regionRestart _ | .pageWalk _ | .xlinv _
  | .xlinvComplete _ | .preemption _ | .teamSave _ | .teamRestore _ | .versionTimeout _ | .installFrameTake _
  | .installComplete _ | .installStall _ | .vcreate _ | .vdestroy _ | .vdestroyComplete _ | .worker _ => []
  | .progressMessage _ _ _ => []
  | .leaveMessage _ _ => []
  | .heartbeat _ | .peerSilent _ => []
  | .kick _ _ _ => []
  | .queueReread _ | .launch _ | .nop _ | .copy _ | .qcreate _ | .placement _ | .spawnDescriptor _
  | .launchComplete _ | .qputSlotWrite _ | .carveComplete _ => []
  | .dirtyWriteback _ _ => []
  | .hostAccess _ _ _ => []
  | .hostBar2Access _ _ _ _ => []
  | .hostSnoop _ _ => []
  | .podRemoteRequest _ _ _ _ => []
  | .remoteDeadline _ | .planeDown _ | .plmapWrite _ => []
  | .plmapEffect => []
  | .transportAbandon _ | .tcopyAccept _ | .tcopyComplete _ | .queueCopyComplete _ | .binrelRelease _
  | .collContributionRead _ | .contributionArrival _ | .stepTimer _ | .collectiveResult _ | .replayMissing _ => []
  | .partitionWrite | .vdevCreate | .vdevDestroy | .attest | .stageImage | .handover | .setPcap
  | .registerPfQueue | .hok | .handoverTimeout | .penrst => []
  | .lullRequest _ | .wakeWrite _ | .idleTimeout _ | .collapseComplete _ | .wakeComplete _ | .powerControl _
  | .rampStep _ | .thermalTrip _ | .tripClear _ => []
  | .energyUpdate _ _ => []
  | .stopTick | .packageReset => []
  | .registerWrite _ _ _ => []
  | .illegalInsn _ | .badTypePacket _ => []
  | .mailboxRefused => []
  | .contributionAck _ | .planeUp _ | .binComplete _ | .uncorrectableError _ => []

/-- The combinations of field values that R63 and the tables do not reserve.  Every other form has
no reserved combination beyond its codes. -/
def Instr.legal : Instr → Bool
  | .shli m _ _ i | .shri m _ _ i | .sari m _ _ i => decide (immU m.wide i < 32)
  | .shli64 m _ _ i | .shri64 m _ _ i | .sari64 m _ _ i => decide (immU m.wide i < 64)
  | .cmp _ _ _ _ c t => t.float || c.isInt
  | .cmpImm _ _ _ c _ _ => c.isInt
  | .loop m _ _ o => decide (immU m.wide o ≠ 0)
  | .cvt _ _ _ t f p s => t.posOk p && f.posOk s
  | .rand _ d a _ | .randf _ d a _ => decide (d ≠ a)
  | .gred _ _ _ _ o f _ | .gscan _ _ _ _ o f _ | .gscanx _ _ _ _ o f _ => !f || o.isFloat
  | .st _ _ _ _ w _ => w.storable
  | .stRel _ _ _ _ w _ => w.storable
  | .ldfifo m _ _ o | .stfifo m _ _ o => decide (immU m.wide o < 32)
  | .atom _ _ _ o w _ _ _ => !(o.isFadd && w)
  | .red _ _ _ o w _ _ r => !(o.isFadd && w) && o.reducible && r.reducible
  | .barInitImm m _ i => decide (immU m.wide i ≠ 0 ∧ immU m.wide i ≤ 4095)
  | .cvdeclImm m _ i => decide (immU m.wide i < 2 ^ 32)
  | .rgnB _ a mk => maskFits a mk
  | .trap m n => decide (immU m.wide n < 1024)
  | .tret m | .tretSkip m => decide (m.wide.getD 0 = 0)
  | .enrd m _ n => decide (immU m.wide n < 2)
  | .brk m n => decide (immU m.wide n < 1024)
  | _ => true

end Sys2Proof
end

