-- ==== Sys2Proof/WellFormed.lean ====
section
/-! DEFINITION. Which instructions an encoding can stand for without an ILLEGAL_INSN or ILLEGAL_CLAUSE
of their own: the chain is accepted (R57), every register block is aligned and lies within g0 to
g127 (R62), and no combination of fields is reserved (R63). -/

namespace Sys2Proof

/-- The chain before the instruction is one it accepts (R57). -/
noncomputable def Instr.chainOk (i : Instr) : Bool :=
  match i.enc with
  | none => true
  | some (r, m, _) =>
    (m.pre.isNone || prefixAllowed r.pat) && (m.wide.isNone || usesImmediate r.pat)

/-- Every register block is aligned and fits (R62). -/
def Instr.blocksOk (i : Instr) : Bool := i.blocks.all fun b => b.aligned && b.fits

/-- The instruction is well formed. -/
noncomputable def Instr.wellFormed (i : Instr) : Bool := i.chainOk && i.blocksOk && i.legal

end Sys2Proof
end

