-- ==== Sys2Proof/Decode.lean ====
section
/-! DEFINITION. Decoding the words of a clause (R57 to R63, R74 to R76) and encoding an instruction.

Decoding is total on any words.  It reads the instruction that starts at one position of a clause,
modifier chain included, and either gives it with the number of words it takes, or gives the reason
for which the words are no instruction. -/

namespace Sys2Proof

/-- The kind of a modifier word: 1 hint, 2 vector prefix, 3 wide immediate; 0 is no modifier (R57). -/
def modKind (w : Word) : Nat :=
  let major := w.toNat / 2 ^ 26
  if major = 0x3D then 1 else if major = 0x3E then 2 else if major = 0x3F then 3 else 0

/-- The modifier words met so far, each with its position in the clause. -/
structure Chain where
  hint : Option Word
  pre : Option (Word × Nat)
  wide : Option (Word × Nat)
  deriving DecidableEq, Repr

/-- Adds one modifier word to a chain. -/
def Chain.add (c : Chain) (kind : Nat) (w : Word) (pos : Nat) : Chain :=
  if kind = 1 then { c with hint := some w }
  else if kind = 2 then { c with pre := some (w, pos) }
  else { c with wide := some (w, pos) }

/-- A rejection at a position of the clause (R76). -/
def rejectAt (clause : Bool) (kind pos : Nat) (w : Word) : Reject :=
  ⟨clause, BitVec.ofNat 3 kind, BitVec.ofNat 3 pos, w⟩

/-- Reads the chain that starts with the word w: the chain checks of R57 in their order.  The answer
holds the chain, the position of the instruction word, that word, and whether it stands last. -/
def scanChain (seen : Nat) (c : Chain) (pos : Nat) (w : Word) :
    List Word → Except Reject (Chain × Nat × Word × Bool)
  | [] =>
    if modKind w = 0 then .ok (c, pos, w, true) else .error (rejectAt true 2 pos w)
  | next :: rest =>
    if modKind w = 0 then .ok (c, pos, w, false)
    else if modKind w ≤ seen then .error (rejectAt true 1 pos w)
    else scanChain (modKind w) (c.add (modKind w) w pos) (pos + 1) next rest

/-- The fields of a hint word (R61). -/
def hintOf (w : Word) : Hint := ⟨⟨w.toNat / 2 ^ 22 % 16, Nat.mod_lt _ (by decide)⟩, w.setWidth 22⟩

/-- The fields of a vector prefix; none when its own contents are reserved (R58, R59). -/
def preOf (w : Word) : Option Pre :=
  if w.toNat % 2 ^ 10 ≠ 0 then none
  else
    (Rnd.ofCode (w.toNat / 2 ^ 18 % 8)).map fun rnd =>
      { pred := ⟨w.toNat / 2 ^ 23 % 8, Nat.mod_lt _ (by decide)⟩
        neg := w.getLsbD 22
        zero := w.getLsbD 21
        rnd := rnd
        opd4 := ⟨w.toNat / 2 ^ 11 % 128, Nat.mod_lt _ (by decide)⟩
        sat := w.getLsbD 10 }

/-- The code of an operand field in an instruction word. -/
def extract (w : Nat) (f : Nat × Nat) : Nat := w / 2 ^ f.1 % 2 ^ f.2

/-- The word lies in the row. -/
def Row.takes (r : Row) (w : Nat) : Bool := decide (w &&& r.mask = r.pat)

/-- The row of an instruction word; none for an unassigned major, a reserved code or a non-zero
reserved field (R63). -/
noncomputable def rowOf (w : Nat) : Option Row := rows.find? fun r => r.takes w

/-- Reads one instruction word with the chain before it: the encoding check of R74. -/
noncomputable def decodeWord (m : Mods) (w : Word) : Option Instr :=
  match rowOf w.toNat with
  | none => none
  | some r =>
    match r.build m (r.fields.map (extract w.toNat)) with
    | none => none
    | some i => if i.blocksOk && i.legal then some i else none

/-- The chain with its contents read; an error when the prefix's own contents are reserved. -/
def Chain.mods (c : Chain) : Except Reject Mods :=
  let wide := c.wide.map fun x => x.1.setWidth 26
  match c.pre with
  | none => .ok ⟨c.hint.map hintOf, none, wide⟩
  | some (w, pos) =>
    match preOf w with
    | none => .error (rejectAt false 5 pos w)
    | some p => .ok ⟨c.hint.map hintOf, some p, wide⟩

/-- The modifiers of the chain that the instruction word does not accept (R57).  DESIGN CHOICE: the offending word of
KIND 011 is the modifier that is refused (R76, log entry 78). -/
def Chain.refused (c : Chain) (w : Word) : Option Reject :=
  match c.pre, c.wide with
  | some (p, pos), wide =>
    if !prefixAllowed w.toNat then some (rejectAt true 3 pos p)
    else
      match wide with
      | some (x, xpos) => if usesImmediate w.toNat then none else some (rejectAt true 3 xpos x)
      | none => none
  | none, some (x, xpos) => if usesImmediate w.toNat then none else some (rejectAt true 3 xpos x)
  | none, none => none

/-- Reads the instruction whose first word is w, at position pos of its clause; `rest` holds the
words of the clause after w.  The checks stand in the order of R74: the chain, what it stands before,
the position of a control word, then the encoding, that of the prefix before that of the word (log entry 103). -/
noncomputable def decodeAt (pos : Nat) (w : Word) (rest : List Word) : Except Reject (Instr × Nat) :=
  match scanChain 0 ⟨none, none, none⟩ pos w rest with
  | .error r => .error r
  | .ok (c, at', iw, last) =>
    match c.refused iw with
    | some r => .error r
    | none =>
      if controlWord iw.toNat && !last then .error (rejectAt true 4 at' iw)
      else
        match c.mods with
        | .error r => .error r
        | .ok m =>
          match decodeWord m iw with
          | none => .error (rejectAt false 5 at' iw)
          | some i => .ok (i, at' - pos + 1)

/-- The hint word of a hint (R61). -/
def Hint.encode (h : Hint) : Word := BitVec.ofNat 32 (0x3D <<< 26 ||| h.sub.val <<< 22 ||| h.arg.toNat)

/-- The word of a vector prefix (R58). -/
def Pre.encode (p : Pre) : Word :=
  BitVec.ofNat 32 (0x3E <<< 26 ||| p.pred.val <<< 23 ||| boolCodec.code p.neg <<< 22 |||
    boolCodec.code p.zero <<< 21 ||| p.rnd.code <<< 18 ||| p.opd4.val <<< 11 |||
    boolCodec.code p.sat <<< 10)

/-- The word of a wide immediate (R60). -/
def wideWord (x : BitVec 26) : Word := BitVec.ofNat 32 (0x3F <<< 26 ||| x.toNat)

/-- The words of a modifier chain, in the order of R57. -/
def Mods.encode (m : Mods) : List Word :=
  m.hint.toList.map Hint.encode ++ m.pre.toList.map Pre.encode ++ m.wide.toList.map wideWord

/-- How many modifier words stand before the instruction word. -/
def Mods.count (m : Mods) : Nat := m.hint.toList.length + m.pre.toList.length + m.wide.toList.length

/-- The field codes placed at their fields. -/
def place : List (Nat × Nat) → List Nat → Nat
  | f :: fs, c :: cs => c <<< f.1 ||| place fs cs
  | _, _ => 0

/-- The instruction word of a row with its field codes. -/
def Row.word (r : Row) (codes : List Nat) : Word := BitVec.ofNat 32 (r.pat ||| place r.fields codes)

/-- The words of an instruction, modifier chain first; a step of the package has none. -/
noncomputable def Instr.encode (i : Instr) : List Word :=
  match i.enc with
  | none => []
  | some (r, m, codes) => m.encode ++ [r.word codes]

/-- The words that the low bits of w make, least significant word first. -/
def tableWords (nbits w : Nat) : List Word :=
  (List.range (max 1 (min 8 ((nbits + 31) / 32)))).map fun k => BitVec.ofNat 32 (w / 2 ^ (32 * k))

/-- The instruction read from a clause that holds just the words of w. -/
noncomputable def decodeTableWord (nbits w : Nat) : Option Instr :=
  match tableWords nbits w with
  | [] => none
  | x :: rest =>
    match decodeAt 0 x rest with
    | .error _ => none
    | .ok (i, _) => some i

end Sys2Proof
end

