-- ==== Sys2Proof/Machine/Bits.lean ====
section
/-! DEFINITION. Bit fields, little-endian byte strings and byte-keyed memory (R3, R278). -/

namespace Sys2Proof.Machine

/-- Bits hi down to lo of a number. -/
def bits (x hi lo : Nat) : Nat := x / 2 ^ lo % 2 ^ (hi + 1 - lo)

/-- One bit of a number. -/
def bit (x n : Nat) : Bool := decide (x / 2 ^ n % 2 = 1)

/-- A truth value as 0 or 1. -/
def b2n (b : Bool) : Nat := if b then 1 else 0

/-- The value of a byte string, least significant byte first (R3). -/
def ofBytes : List Byte → Nat
  | [] => 0
  | b :: bs => b.toNat + 256 * ofBytes bs

/-- The n low bytes of a value, least significant first (R3). -/
def toBytes : Nat → Nat → List Byte
  | 0, _ => []
  | n + 1, v => BitVec.ofNat 8 v :: toBytes n (v / 256)

/-- Bytes i to i+n-1 of a byte string as a value. -/
def field (l : List Byte) (i n : Nat) : Nat := ofBytes ((l.drop i).take n)

/-- Bytes a to b-1 of a byte string are zero. -/
def zeroBytes (l : List Byte) (a b : Nat) : Bool := ((l.drop a).take (b - a)).all fun x => x == 0

/-! ## Memory in canonical form -/

/-- Bytes by address: addresses strictly rising, and no entry equal to what an unlisted address reads
as, which is zero. -/
abbrev Memory := List Host.Cell

/-- The canonical form, for addresses from lo upwards. -/
def Memory.wfFrom : Nat → Memory → Bool
  | _, [] => true
  | lo, (a, v) :: rest => decide (lo ≤ a) && decide (v ≠ 0) && Memory.wfFrom (a + 1) rest

/-- The canonical form of a memory. -/
def Memory.wf (m : Memory) : Bool := Memory.wfFrom 0 m

/-- The byte at an address; an unlisted address reads as zero (log entry 3). -/
def Memory.get : Memory → Nat → Byte
  | [], _ => 0
  | (k, v) :: rest, a => if a < k then 0 else if a = k then v else Memory.get rest a

/-- Writes one byte. -/
def Memory.set : Memory → Nat → Byte → Memory
  | [], a, v => if v = 0 then [] else [(a, v)]
  | (k, w) :: rest, a, v =>
    if a < k then (if v = 0 then (k, w) :: rest else (a, v) :: (k, w) :: rest)
    else if a = k then (if v = 0 then rest else (a, v) :: rest)
    else (k, w) :: Memory.set rest a v

/-- The n bytes from an address upwards. -/
def Memory.read (m : Memory) (a : Nat) : Nat → List Byte
  | 0 => []
  | n + 1 => m.get a :: Memory.read m (a + 1) n

/-- Writes a byte string from an address upwards. -/
def Memory.write (m : Memory) (a : Nat) : List Byte → Memory
  | [] => m
  | b :: bs => Memory.write (m.set a b) (a + 1) bs

/-- Copies a run of n bytes to a place that it does not meet. -/
def Memory.copyRun (m : Memory) (src dst n : Nat) : Memory :=
  (m.filter fun c => decide (src ≤ c.1 ∧ c.1 < src + n)).foldl (fun m c => m.set (dst + (c.1 - src)) c.2)
    (m.filter fun c => !decide (dst ≤ c.1 ∧ c.1 < dst + n))

/-- Drops what a run of n bytes holds. -/
def Memory.dropRun (m : Memory) (a n : Nat) : Memory := m.filter fun c => !decide (a ≤ c.1 ∧ c.1 < a + n)

/-- The n bytes from an address as a value. -/
def Memory.readNat (m : Memory) (a n : Nat) : Nat := ofBytes (m.read a n)

/-- Writes the n low bytes of a value. -/
def Memory.writeNat (m : Memory) (a n v : Nat) : Memory := m.write a (toBytes n v)

/-- The poisoned 16-byte granules after the bytes of a run have been copied to another place. -/
def movePoison (l : List Nat) (src dst n : Nat) : List Nat :=
  (l.filter fun g => !decide (dst ≤ 16 * g ∧ 16 * g < dst + n)) ++
    (l.filter fun g => decide (src ≤ 16 * g ∧ 16 * g < src + n)).map fun g => (dst + (16 * g - src)) / 16

/-! ## Packed registers -/

/-- A pair of registers as 64 bits (R16). -/
def pair64 (lo hi : Word) : DWord := hi ++ lo

/-- The low register of a pair. -/
def lo32 (x : DWord) : Word := x.setWidth 32

/-- The high register of a pair. -/
def hi32 (x : DWord) : Word := (x >>> 32).setWidth 32

/-- The 32-bit registers of a value of n registers, lowest first. -/
def toRegs (dst n v : Nat) : List (Nat × Word) :=
  (List.range n).map fun k => (dst + k, BitVec.ofNat 32 (v / 2 ^ (32 * k)))

/-- Replaces the elements of a list that satisfy a test. -/
def replaceBy {α : Type} (p : α → Bool) (x : α) (l : List α) : List α := l.map fun y => if p y then x else y

/-- Inserts an element before the first one that it precedes. -/
def insertBy {α : Type} (le : α → α → Bool) (x : α) : List α → List α
  | [] => [x]
  | y :: ys => if le x y then x :: y :: ys else y :: insertBy le x ys

/-- Sorts a list, smallest first. -/
def sortBy {α : Type} (le : α → α → Bool) (l : List α) : List α := l.foldr (insertBy le) []

end Sys2Proof.Machine
end

