-- ==== Sys2Proof/Machine/Image.lean ====
section
/-! DEFINITION. Firmware images: what the boot ROM and the staging command accept (R418). -/

namespace Sys2Proof.Machine

/-- A firmware image that passed R418: its SVN, the state-block versions it accepts, and its digest. -/
structure Image where
  svn : Nat
  lo : Nat
  hi : Nat
  digest : List Byte
  deriving DecidableEq, Repr

/-- The image passes R418. -/
def imageOk (l : List Byte) : Bool :=
  let body := l.drop 256
  decide (256 ≤ l.length ∧ field l 0 4 = 0x4E454E50 ∧ field l 12 4 = body.length) && zeroBytes l 176 256 &&
    (Config.sm3 body == (l.drop 16).take 32) && Config.vendorSigned (l.take 48) ((l.drop 48).take 64) &&
    Config.ownerSigned (l.take 48) ((l.drop 112).take 64) && decide (Config.fusedSvn ≤ field l 4 4)

/-- What the header of an image says. -/
def imageOf (l : List Byte) : Image :=
  { svn := field l 4 4, lo := field l 8 2, hi := field l 10 2, digest := (l.drop 16).take 32 }

/-- The image of a bank that the boot ROM accepts, if it does: an image that fails a check is never executed (R418). -/
def bootImage (l : List Byte) : Option Image := if imageOk l then some (imageOf l) else none

end Sys2Proof.Machine
end

