-- ==== Sys2Proof/Machine/State.lean ====
section
/-! DEFINITION. The state of one DG-384 package as plain data, and the state right after reset.

The state holds what the manual gives the machine: threads, teams and launches with all their
registers (R13 to R46), memory, caches and banks (R248 to R272), the front end's queues (R314 to
R341), the Eddy pool (R342 to R354), the engines (R355 to R374), trap frames, regions and saved teams
(R375 to R386), the fabric (R387 to R399), virtual devices (R400 to R411), Penen and power (R412 to
R428) and debug (R429 to R439).  Fields that are the model's own are said to be so. -/

namespace Sys2Proof.Machine

/-! ## Faults and refusals -/

/-- Why the model stops. -/
inductive Fault where
  /-- An instruction of a thread was executed while no thread is issuing.  Raised by every meaning of an
  encoded instruction; step never does it.  Safe. -/
  | noIssuingThread
  deriving DecidableEq, Repr

/-- What the model declines. -/
inductive Refusal where
  /-- An instruction that has no meaning yet, by its mnemonic.  Raised by exec's own arms only.  Safe. -/
  | notModelled (mnemonic : String)
  deriving DecidableEq, Repr

/-! ## Threads -/

/-- The privilege levels (R41). -/
inductive Level where
  | u | s | f
  deriving DecidableEq, Repr

/-- One hardware-loop level (R21). -/
structure Loop where
  start : VAddr
  stop : VAddr
  count : Word
  deriving DecidableEq, Repr

/-- A trap frame (R34, R377).  `orig` is XPC as the trap saved it, which R55 and R244 compare with XPC. -/
structure Frame where
  xpc : DWord
  orig : DWord
  xcause : Word
  xinfo : DWord
  xmask : Word
  xpred : Word
  xflags : Word
  xcb : DWord
  deriving DecidableEq, Repr

/-- The loop levels and the return stack, which move together (R21, R22). -/
structure Flow where
  lc0 : Loop
  lc1 : Loop
  rstk : Vector VAddr 8
  depth : Nat
  deriving DecidableEq, Repr

/-- What RGN.B records (R227). -/
structure Checkpoint where
  rgn : VAddr
  cb : VAddr
  sa : Reg
  mask : BitVec 16
  regs : List (Nat × Word)
  preds : BitVec 8
  flow : Flow
  deriving DecidableEq, Repr

/-- An open region (R227, R385): its checkpoint, its retry count, whether RGN.B is to run as a restart,
the model's own number of the first operation issued inside it, and the handlers that ran at its RGN.B, whose own
region it is (R384). -/
structure Region where
  cp : Checkpoint
  retries : Nat
  restarting : Bool
  firstOp : Nat
  inU : Bool
  inS : Bool
  deriving DecidableEq, Repr

/-- An arrival record (R210).  `done` is the model's own: an arrival has completed the recorded phase. -/
structure Arrival where
  pending : Bool
  phase : Bool
  done : Bool
  deriving DecidableEq, Repr

/-- A lane-class result that is not yet written (R51, R110): when it is due, what it writes, and the
FPCSR bits it sets. -/
structure Pend where
  due : Nat
  regs : List (Nat × Word)
  preds : List (Pred × Bool)
  csr : Word
  deriving DecidableEq, Repr

/-- The kinds of access a walk distinguishes (R269, R270). -/
inductive XKind where
  | read | write | fetch | versioned
  deriving DecidableEq, Repr

/-- The agreement forms that write a predicate (R164). -/
inductive AgreeFn where
  | all | some | same
  deriving DecidableEq, Repr

/-- Reduction, inclusive scan and exclusive scan (R165). -/
inductive ScanFn where
  | reduce | scan | scanx
  deriving DecidableEq, Repr

/-- What a signing instruction does when its set completes (R161, R169, R215, R216). -/
inductive SignOp where
  | cvsync
  | elect (k : Pred)
  | xlane (d a : Reg) (mode : XMode) (imm : Bool) (lane : Fin 32)
  | agreeP (fn : AgreeFn) (a : PredSel) (p : Pred)
  | agreeMask (d : Reg) (a : PredSel)
  | agreeCount (d : Reg) (a : PredSel)
  | peers (d a : Reg)
  | peersAll (d a : Reg) (p : Pred)
  | reduce (fn : ScanFn) (d a : Reg) (p : Pred) (o : GroupOp) (float : Bool)
  | mma (d : Fin 16) (a b h : Fin 32) (fmt : MmaFmt) (z : Bool)
  | mmaPart (d : Fin 16) (a b h : Fin 32) (fmt : Fp8Fmt) (sp : Bool)
  | mmaC4 (d : Fin 16) (a b h : Fin 32) (sp : Bool)
  | scacc (d p : Fin 16) (a b : Fin 32)
  | accmov (d p : Fin 16)
  | acczero (d : Fin 16)
  | accadd (d p : Fin 16)
  deriving DecidableEq, Repr

/-- A signature on a convergence register (R214): what was signed, whether the thread is predicated on,
the vector prefix and the modifier count of the instruction. -/
structure Sign where
  op : SignOp
  on : Bool
  pre : Option Pre
  words : Nat
  deriving DecidableEq, Repr

/-- The operations that a block-class instruction waits for: its thread's earlier reads, its accesses, its
accesses with the write-backs that its core still holds (R392), its stores, with those write-backs at a scope beyond the
L1 (R208), or every long-class operation since a number.  An arrival waits for its accesses, and an announcement that
the lead allows (R224) for them and the write-backs, and each for the same instruction on the lower lanes of its issue
group (R25). -/
inductive OpClass where
  | reads
  | accesses
  | wide
  | stores (wide : Bool)
  | arrival
  | announce
  | since (first : Nat)
  deriving DecidableEq, Repr

/-- Why a thread does not issue.  A thread that waits in `walk`, `replay`, `ops`, `version`, `step`,
`token`, `flagRoom`, `join` or `exiting` executes its instruction again once the wait is over; the other
waits are ended by the step that ends them.  A thread in `past` has taken the effect of an instruction of so many words
while no header was in force for it, and goes on once its header is taken again (R55).  `special` says that a walk is for an access that an uncached page
does not allow (R269), and `stepping` that a step trap follows a sleep (R140, R432); `pin` tells VPIN from LDV.MIN (R221), and
`got` is the frame, with its step, that an installation has given it (R302). -/
inductive Wait where
  | run
  | walk (va : Nat) (kind : XKind) (special : Bool)
  | replay (va : Nat)
  | ops (cls : OpClass)
  | version (entry va : Nat) (least : Word) (deadline : Option Nat) (pin : Bool) (got : Option (Nat × Word))
  | step (s : Word)
  | token
  | flagRoom
  | join (deadline : Nat)
  | sleep (until_ : Nat) (stepping : Bool)
  | barrier (n : Fin 16) (words : Nat)
  | sign (n : Fin 16) (sg : Sign)
  | asleep (n : Fin 16) (k : Pred) (words : Nat)
  | accept (op words : Nat)
  | past (words : Nat)
  | exiting
  deriving DecidableEq, Repr

/-- Where a thread issues (R342 to R350).  A context is (Eddy core 0-23, context 0-3) of its die. -/
inductive Place where
  | home
  | leaving (core ctx : Nat) (ready : Nat)
  | eddy (core ctx : Nat)
  | recallWanted (core ctx : Nat)
  | returning (core ctx : Nat) (ready : Nat)
  deriving DecidableEq, Repr

/-- A failure after translation that waits for delivery (R382); `handler` says that the operation was issued
by a trap handler (R384), and `bank` names the bank of a FIFO operation whose bank left FIFO mode (R254). -/
structure Failure where
  op : Nat
  word : VAddr
  remote : Bool
  handler : Bool
  bank : Option Nat
  deriving DecidableEq, Repr

/-- Where an access lands: bytes of a team's scratch, or bytes of memory by key; an access of the private
space that a page boundary divides lands in two runs, the first of n bytes. -/
inductive Loc where
  | scr (team : Nat) (off : Nat)
  | mem (key : Nat) (uncached : Bool)
  | split (n key next : Nat) (uncached : Bool)
  deriving DecidableEq, Repr

/-- How a load fills its destination (R194). -/
inductive Ext where
  | zero | sign8 | sign16
  deriving DecidableEq, Repr

/-- The eviction classes of an access (R29, R197). -/
inductive EvClass where
  | evictFirst | normal | evictLast
  deriving DecidableEq, Repr

/-- What a long-class operation does when it completes (R51, R192). -/
inductive OpKind where
  | load (dst bytes : Nat) (ext : Ext) (loc : Loc) (acq : Option Scope)
  | store (bytes value : Nat) (loc : Loc) (rel : Option Scope)
  | ldfe (dst bytes team off : Nat) (clear : Bool)
  | stfull (bytes value team off : Nat)
  | fifoPop (dst bytes core bank : Nat)
  | fifoPush (bytes value core bank : Nat)
  | prefetch (key : Option Nat) (l1 : Bool)
  | wb (scope : Scope) (key : Nat)
  | inv (scope : Scope) (key : Nat)
  | wbinv (scope : Scope) (key : Nat)
  | atom (dst : Option Nat) (op : AtomOp) (w : Bool) (loc : Loc) (scope : Scope) (ord : MemOrd) (a b : Nat)
  | trans (regs : List (Nat × Word)) (fflags : BitVec 5)
  | matrix (writes : List (Nat × List (Nat × Word))) (fflags : BitVec 5)
  | ldv (dst bytes entry frame key : Nat)
  | vpin (dst : Nat) (value : Word) (entry : Nat)
  | vunpin (entry : Nat)
  | tcopy (copy : Nat)
  | qput (cb : Nat) (packet : List Byte) (index : Option Nat)
  | coll (stage : Nat)
  | spawn (desc arg : Nat) (tree : Nat)
  | bin (dst : Nat) (old : Word)
  | binrel (desc : Nat)
  | carve (dst core bank mode : Nat)
  deriving DecidableEq, Repr

/-- An outstanding long-class operation.  `flags` holds the completion flags it raised, `word` the
address of its word, `due` the model's own earliest completion, and `planes` and `deadline` those of its
pod-remote requests, one for each line (R389, R391); the planes are logical ones while the requests are held
(R392), and the deadline is 0 when the requests never left the package, `handler` says that a trap handler issued it (R384), and `level` is the level
at which it was issued.  `cls` is its eviction class (R197), and `issue` and `lane` are the model's own number of
the issue of its group and the lane of its thread, which order the effects of one group (R25). -/
structure Op where
  id : Nat
  th : Nat
  level : Level
  kind : OpKind
  flags : BitVec 12
  word : VAddr
  due : Nat
  demote : Bool
  deadline : Option Nat
  planes : List Nat
  held : Bool
  handler : Bool
  cls : EvClass
  issue : Nat
  lane : Nat
  deriving DecidableEq, Repr

/-- A thread (R13 to R23, R34, R37, R377).  `id` is the model's own name of it, and `issue` the number of the
issue group with which it issued last (R25), and `trapAt` the issue at which it last trapped, the code and the
level of the handler (R380).  `gaveTurn` says that it has issued YIELD since its turn came (R336); `readyHalf` and
`lastHalf` name the second Eddy cycle of the ticks `ready` and `lastIssue` (R348).  `chosen` holds, by page and
oldest acceptable step, the step that LDV.MIN or VPIN selected last (R222), and `born` counts the words that had been
replaced at its last return from a trap (R56, R243).  `stepAt` says that its instruction was single-stepped when it
issued (R432), and `uncounted` what of that issue is still to be counted: 2 for the issue group and the thread, 1 for
the thread (R189, R247). -/
structure Thread where
  id : Nat
  team : Nat
  grp : Nat
  lane : Fin 32
  slice : Nat
  slot : Nat
  alloc : Nat
  regs : Vector Word 128
  preds : BitVec 8
  flags : Vector Nat 12
  flow : Flow
  pc : VAddr
  cb : VAddr
  hdr : Word
  entered : Bool
  fpcsr : Word
  level : Level
  frameU : Frame
  frameS : Frame
  activeU : Bool
  activeS : Bool
  region : Option Region
  arr : Vector Arrival 16
  pend : List Pend
  wait : Wait
  held : Option Nat
  age : Nat
  lastIssue : Nat
  ready : Nat
  demoted : Bool
  yielded : Bool
  passed : Bool
  place : Place
  poison : BitVec 128
  fails : List Failure
  freeze : Option (Nat × Nat)
  withdrawn : List Op
  issue : Nat
  trapAt : Option (Nat × Nat × Level)
  gaveTurn : Bool
  readyHalf : Bool
  lastHalf : Bool
  chosen : List (Nat × Word × Word)
  born : Nat
  stepAt : Bool
  uncounted : Nat
  deriving DecidableEq, Repr

/-! ## Teams and launches -/

/-- A barrier register (R27). -/
structure Bar where
  init : Bool
  phase : Bool
  arrived : BitVec 12
  expect : BitVec 12
  deriving DecidableEq, Repr

/-- A convergence register (R28). -/
structure Conv where
  state : BitVec 2
  grp : BitVec 6
  declared : Word
  signed : Word
  pc : VAddr
  deriving DecidableEq, Repr

/-- The life of a resident team (R339, R379); a team that freezes because its device is destroyed has the reason 3
(R404, log entry 76). -/
inductive TeamPhase where
  | running
  | preempting
  | freezing (reason : Nat) (thread : Nat)
  deriving DecidableEq, Repr

/-- A team (R26 to R31, R239, R246, R340, R431).  `id`, `cluster` and `tree` are the model's own names
of it, of its cluster, and of the seed or the SPAWN that created it. -/
structure Team where
  id : Nat
  launch : Nat
  cluster : Nat
  tree : Nat
  core : Nat
  teamIdx : Nat
  cluIdx : Nat
  ngrp : Nat
  nteam : Nat
  nclu : Nat
  tbase : Nat
  regsF : Nat
  scr : Nat
  nbar : Nat
  bars : Vector Bar 16
  convs : Vector Conv 16
  cps : Vector Word 8
  trapvec : DWord
  rngkey : DWord
  ejt : Nat
  defer : Bool
  scratch : List Host.Cell
  full : List Nat
  scrPoison : List Nat
  units : List (Nat × Nat)
  bins : Vector Word 256
  pmcnt : Vector DWord 8
  pmsel : Vector Word 8
  pmfrz : Bool
  stepmask : DWord
  fifoMark : Option Nat
  slots : List (Nat × Nat)
  phase : TeamPhase
  order : Nat
  deriving DecidableEq, Repr

/-- The worker that a launch is bound as (R304).  `beat` is the tick of its last heartbeat (R306). -/
structure Worker where
  job : Nat
  idx : Nat
  step : Word
  lead : Nat
  beat : Nat
  deriving DecidableEq, Repr

/-- Groups that one SPAWN or the seed created and that count once in the spawn tree (R329). -/
structure Tree where
  id : Nat
  unplaced : Nat
  deriving DecidableEq, Repr

/-- A launch (R320 to R329, R336, R337).  `dev` is its virtual device and `queue` the name of the queue
that started it.  `born` counts the words that had been replaced when it was placed (R56). -/
structure Launch where
  id : Nat
  dev : Nat
  queue : Nat
  level : Level
  det : Bool
  prio : Nat
  packet : List Byte
  counter : Word
  trees : List Tree
  ranges : List (Nat × Nat)
  refused : Nat
  first : Nat
  holder : Nat
  skips : Word
  moves : DWord
  skipped : List Nat
  turns : List (Nat × Nat)
  pvbase : DWord
  pvsize : Word
  worker : Option Worker
  energy : DWord
  cores : List Nat
  started : Bool
  born : Nat
  deriving DecidableEq, Repr

/-- A saved team (R339, R385, R461): where its save lies, the state as saved, and whether it is frozen. -/
structure SavedTeam where
  dev : Nat
  off : Nat
  team : Team
  threads : List Thread
  frozen : Bool
  deriving DecidableEq, Repr

/-! ## Memory -/

/-- A valid byte of a core's L1 (R256 to R258), by the key of the physical byte; `since` is the tick at
which it became dirty (R286), and `bad` says that its granule is poisoned in the L1 (R249). -/
structure L1Byte where
  core : Nat
  dev : Nat
  key : Nat
  val : Byte
  dirty : Bool
  since : Nat
  bad : Bool
  deriving DecidableEq, Repr

/-- A line that a core's L1 holds (R256, R197): its device, its number (key / 128), the bank that is its way,
and the class of the last access that allocated it or hit it. -/
structure L1Line where
  core : Nat
  dev : Nat
  line : Nat
  bank : Nat
  cls : EvClass
  deriving DecidableEq, Repr

/-- A line that its home slice of the memory-side cache holds (R248, R262): its number, its way and its
class, and whether it holds bytes that have not been written on to its memory (R203). -/
structure MscLine where
  line : Nat
  way : Nat
  cls : EvClass
  dirty : Bool
  deriving DecidableEq, Repr

/-- A line that the instruction cache of a core holds (R248), by its number (key / 128). -/
structure CodeLine where
  core : Nat
  line : Nat
  deriving DecidableEq, Repr

/-- A leaf translation held for a core (R266): in the L1 TLB of a slice, or in the core's L2 TLB; the page's
first virtual address, its log2 size, and the leaf entry. -/
structure TlbEntry where
  core : Nat
  slice : Option Nat
  dev : Nat
  va : Nat
  size : Nat
  leaf : DWord
  deriving DecidableEq, Repr

/-- A non-leaf entry in the walker cache of a die (R266): its device, the level of its table, the bits of the
virtual address from its index upwards, and the entry. -/
structure WalkEntry where
  die : Nat
  dev : Nat
  level : Nat
  index : Nat
  entry : DWord
  deriving DecidableEq, Repr

/-- A tile-layout record held in a layout cache (R265): of a core, or of a die. -/
structure LayoutRec where
  core : Option Nat
  die : Nat
  dev : Nat
  tid : Nat
  bytes : List Byte
  deriving DecidableEq, Repr

/-- The mode of a bank (R250). -/
inductive BankMode where
  | cache | scratch | fifo
  deriving DecidableEq, Repr

/-- A bank of a core whose state differs from that after reset (R250, R200, R403); `draining` says that a
CARVE takes it out of CACHE mode and it accepts no new line (R253). -/
structure Bank where
  core : Nat
  num : Nat
  mode : BankMode
  owner : Nat
  fifo : List Nat
  draining : Bool
  deriving DecidableEq, Repr

/-- The memory system.  `mem` holds the bytes at their point of coherence in canonical form, `poison`
the 16-byte granules (key / 16) that are poisoned (R249).  `past` holds the words that writes have replaced there,
the newest first, by the key of the word: a fetch may still give them (R56).  `l1` holds the valid bytes of the
L1s and `lines` the lines they stand in, `msc` the lines of the memory-side cache, and `code` those of the instruction
caches; all lists of lines, and the TLBs, have the most recently used first. -/
structure MemSys where
  mem : List Host.Cell
  past : List (Nat × Word)
  poison : List Nat
  l1 : List L1Byte
  lines : List L1Line
  msc : List MscLine
  code : List CodeLine
  tlb : List TlbEntry
  walker : List WalkEntry
  layout : List LayoutRec
  banks : List Bank
  deriving DecidableEq, Repr

/-! ## The front end -/

/-- Why a queue is passed over (R318, R319). -/
inductive QWait where
  | idle
  | stopped (since : Nat)
  | placing
  | destroying (entry done : Nat)
  | invalidating (inv done : Nat)
  deriving DecidableEq, Repr

/-- A registered queue (R314 to R319, R324).  `dev` is the virtual device, or 1024 for the physical
function. -/
structure Queue where
  id : Nat
  dev : Nat
  num : Nat
  cblock : Nat
  base : Nat
  log2 : Nat
  prio : Nat
  priv : Bool
  kmax : Word
  rdidx : Nat
  wait : QWait
  deriving DecidableEq, Repr

/-- A cluster that waits for placement (R331): the grid it belongs to, the next cluster, and where its
packet waits. -/
structure Placement where
  id : Nat
  launch : Nat
  tree : Nat
  queue : Option Nat
  desc : List Byte
  arg : DWord
  tbase : Nat
  next : Nat
  nclu : Nat
  nteam : Nat
  ngrp : Nat
  cw : Nat
  ch : Nat
  deriving DecidableEq, Repr

/-- A translation invalidation in progress (R272): the range, and the operations that may have used a
dropped entry. -/
structure Inval where
  id : Nat
  dev : Nat
  first : Nat
  last : Nat
  waits : List Nat
  deriving DecidableEq, Repr

/-- The front end.  `turns` holds the device served last at each priority, and `served` the queue number served last at
each priority, times 1,025, plus device (R319); `parked` holds the 64 KiB regions with a posted fault record, by device (R271). -/
structure Front where
  queues : List Queue
  placements : List Placement
  invals : List Inval
  turns : List (Nat × Nat)
  served : List (Nat × Nat)
  parked : List (Nat × Nat)
  deriving DecidableEq, Repr

/-! ## Versions, jobs and collectives -/

/-- The state of a version frame (R297). -/
inductive FState where
  | empty | valid | filling
  deriving DecidableEq, Repr

/-- A directory entry that is in use (R303): one (state, step) for each frame.  The page of another member's memory,
whose directory its home package holds, has the key of its frame 0 as its index (R301). -/
structure VEntry where
  idx : Nat
  dev : Nat
  big : Bool
  fpa : Nat
  vtimeout : Nat
  frames : List (FState × Word)
  drops : Nat
  closing : Option Nat
  deriving DecidableEq, Repr

/-- A team's pin (R221, R301): `src` is the member whose team it is, none for a team of this package, and `step`
that of the frame.  A pin on another member's page whose last VUNPIN travels has the count 0 until its home answers
(R222). -/
structure Pin where
  src : Option Nat
  team : Nat
  entry : Nat
  frame : Nat
  step : Word
  count : Nat
  deriving DecidableEq, Repr

/-- An installation that waits for a frame or fills one (R300): `ready` is the model's own tick at which every byte of
its frame is written (log entry 90). -/
structure Install where
  id : Nat
  entry : Nat
  step : Nat
  data : List Word
  frame : Option Nat
  since : Nat
  stalled : Bool
  ready : Nat
  deriving DecidableEq, Repr

/-- A peer's LDV.MIN or VPIN that waits at this package's directory for a qualifying frame (R301, R302): the member it
came from, its physical address in frame 0, the request, the page, the oldest acceptable step, and when it times out. -/
structure PeerWait where
  src : Nat
  pa : Nat
  req : RemoteReq
  entry : Nat
  least : Word
  deadline : Option Nat
  deriving DecidableEq, Repr

/-- The state of a progress-table entry (R305). -/
inductive PState where
  | counted | silent | left
  deriving DecidableEq, Repr

/-- A progress-table entry that is not free (R305). -/
structure PEntry where
  idx : Nat
  job : Nat
  widx : Nat
  state : PState
  isLocal : Bool
  step : Word
  heard : Word
  deriving DecidableEq, Repr

/-- The values of a job, taken from its first worker on the package (R304); none for the address of that worker's own
index, which its packet does not give. -/
structure Job where
  job : Nat
  n : Nat
  lead : Nat
  start : Nat
  silence : Nat
  peers : List (Option (Nat × DWord))
  deriving DecidableEq, Repr

/-- The version directory and the progress table. -/
structure Versions where
  dir : List VEntry
  pins : List Pin
  installs : List Install
  waits : List PeerWait
  ptable : List PEntry
  jobs : List Job
  deriving DecidableEq, Repr

/-- A collective descriptor as the engine read it (R367): the member that named it, and its fields. -/
structure CollDesc where
  dev : Nat
  launch : Nat
  addr : Nat
  job : Nat
  cid : Nat
  root : Nat
  mode : Bool
  k : Nat
  d : Nat
  q : Nat
  t : Nat
  buf : Nat
  e : Nat
  rpage : Nat
  mrbase : Nat
  logm : Nat
  member : Nat
  entry : Nat
  level : Level
  deriving DecidableEq, Repr

/-- A contribution staged at its member (R368): what is being read or sent, the thread and the number of its
COLL, and the barrier that waits for it. -/
structure Stage where
  id : Nat
  desc : CollDesc
  step : Nat
  op : Nat
  th : Nat
  team : Nat
  core : Nat
  br : Nat
  data : List Word
  read : Bool
  sent : Bool
  accepted : Bool
  deriving DecidableEq, Repr

/-- A contribution counted or held at the root (R369, R370), and the tick at which it arrived. -/
structure Entry where
  member : Nat
  step : Nat
  d : Nat
  data : List Word
  since : Nat
  deriving DecidableEq, Repr

/-- A collective at its root (R369 to R371, R437, R438): the highest closed step, the steps that have
opened with the tick they opened at, the entries and counts of the steps still to close, and the step whose supplied
record could last not be read (R360, R437). -/
structure Root where
  desc : CollDesc
  high : Int
  opened : List (Nat × Nat)
  fresh : List Entry
  late : List Entry
  seen : List (Nat × Nat)
  latedrop : Nat
  dups : Nat
  stopped : Bool
  unread : Option Nat
  deriving DecidableEq, Repr

/-- The collective engine (R366 to R374).  `known` holds the descriptors named by accepted COLLs, and
`results` the results that wait for their member's first COLL or for its device (R373, R410). -/
structure Collective where
  known : List CollDesc
  stages : List Stage
  roots : List Root
  results : List (Nat × StepResult)
  deriving DecidableEq, Repr

/-! ## Copy engines -/

/-- A tile copy (R233, R355 to R358). -/
structure TileCopy where
  id : Nat
  op : Nat
  th : Nat
  team : Nat
  core : Nat
  dev : Nat
  level : Level
  br : Nat
  out : Bool
  soff : Nat
  tid : Nat
  gaddr : Nat
  units : Nat
  row0 : Nat
  col0 : Nat
  rows : Nat
  cols : Nat
  shape : Nat
  base : Nat
  pitch : Nat
  accepted : Bool
  deriving DecidableEq, Repr

/-- A queue copy (R361, R362). -/
structure QueueCopy where
  id : Nat
  queue : Nat
  dev : Nat
  src : Nat
  dst : Nat
  len : Nat
  bobj : Nat
  done : Nat
  deriving DecidableEq, Repr

/-- A write of the front end or an engine to pod-remote memory that is held at the source (R392, R402): its device, key and
bytes, its virtual address, and the engine, DETAIL and source of the record that is posted if it fails (R360). -/
structure HeldWrite where
  dev : Nat
  key : Nat
  data : List Byte
  va : Nat
  report : Option (Nat × Nat × Nat)
  deriving DecidableEq, Repr

/-- The copy engines. -/
structure Engines where
  tcopies : List TileCopy
  qcopies : List QueueCopy
  deriving DecidableEq, Repr

/-! ## Fabric, firmware, power and debug -/

/-- A message that leaves the package (R301, R306, R368, R371, R391, R398, R415); one to a worker or a home package
names the member, and the endpoint across pods, that it goes to; `carved` is the status of a CARVE that firmware performs (R250). -/
inductive Msg where
  | progress (dest : Nat) (endpoint : DWord) (job widx : Nat) (step : Word)
  | leave (dest : Nat) (endpoint : DWord) (job widx : Nat)
  | unpin (dest page team : Nat)
  | contribution (dest : Nat) (endpoint : DWord) (c : Contribution)
  | ack (dest : Nat) (endpoint : DWord) (job cid member step : Nat)
  | result (dest : Nat) (endpoint : DWord) (r : StepResult)
  | hostData (bytes value : Nat)
  | hostDone
  | hostAbort (bytes : Nat)
  | remoteData (src bytes value : Nat)
  | remoteDone (src : Nat)
  | remoteRefused (src : Nat)
  | remoteNoPage (src : Nat)
  | remoteNoFrame (src : Nat)
  | carved (core bank status : Nat)
  | msix (vector : Nat)
  deriving DecidableEq, Repr

/-- A PLMAP write that waits for its old planes (R392). -/
structure PlanePending where
  value : BitVec 24
  waits : List Nat
  deriving DecidableEq, Repr

/-- Penen (R412 to R422): the active bank, the image of each bank, the masters that are frozen, the
hand-over in progress (its restart tick), the wake writes that hardware holds, the command in the
mailbox, and the virtual device whose destruction it has begun (R404). -/
structure Penen where
  bank : Bool
  image0 : Option Image
  image1 : Option Image
  frozen : List Nat
  handover : Option Nat
  fallback : Bool
  hok : Bool
  heldWakes : List (Nat × Nat)
  command : Option (List Byte)
  ending : Option Nat
  deriving DecidableEq, Repr

/-- The ramp limiter of a core that has left its reset state (R425, R426): `asked` is the tick of its last product-port
request. -/
structure Ramp where
  core : Nat
  level : Nat
  lastIssue : Nat
  lastMove : Nat
  asked : Nat
  deriving DecidableEq, Repr

/-- The power controller and the energy counts (R423 to R428): the ramp limiters, the next acceptance
ticks of the matrix ports by core and slice (R171), Lull energy and the energy of ended launches by
device, and the fields of PWRSTAT (R424).  `cycles` counts, by core and launch, the slice and Eddy cycles in which words
of the launch have issued since the last measurement, and `lines`, by compute die (4 for the I/O die) and launch, the
lines that its accesses have moved (R428). -/
structure Power where
  ramps : List Ramp
  ports : List (Nat × Nat × Nat × Nat)
  lullEnergy : List (Nat × DWord)
  ended : List (Nat × DWord)
  mean : Nat
  temp : Nat
  pcap : Nat
  trip1 : Bool
  trip2 : Bool
  step : Nat
  cycles : List (Nat × Nat × Nat)
  lines : List (Nat × Nat × Nat)
  deriving DecidableEq, Repr

/-- A tagged instruction on its way (R433, R434): its thread, the device, its word, when it was fetched and issued, the
operation or the lane-class result that it waits for, and the deepest level it reaches. -/
structure Tagged where
  thread : Nat
  dev : Nat
  pc : VAddr
  fetched : Nat
  issued : Nat
  op : Option Nat
  due : Option Nat
  level : Nat
  deriving DecidableEq, Repr

/-- The sampler of a slice (R433): the slice's source number, the issues before the next tag, and the
tagged instruction. -/
structure Tag where
  source : Nat
  countdown : Nat
  tagged : Option Tagged
  deriving DecidableEq, Repr

/-- A device that wakes or collapses (R406 to R409): the tick of the wake write, when it became idle, its FIFO
banks, and where in the Lull reserve the data of its partition lies. -/
structure LullState where
  dev : Nat
  wakeTick : Nat
  idleSince : Nat
  fifos : List Bank
  reserve : Option Nat
  deriving DecidableEq, Repr

/-- The Eddy counters of a die (R344). -/
structure EddyCounts where
  ejects : DWord
  recalls : DWord
  short : DWord
  deriving DecidableEq, Repr

/-! ## The whole state -/

/-- The members of the chosen issue group that still have to execute, and what the members before them
did at this instruction (R25, R132, R380).  The model's own. -/
structure Issue where
  members : List Nat
  trapped : List (Nat × Nat × Nat)
  taken : List Nat
  stayed : List Nat
  deriving DecidableEq, Repr

/-- The issue slot of a slice or Eddy core that is taken (R332, R348): the ticks at which its group's first and
last words issue, how many cycles of the issuing core have passed in the last one, and the members that still wait
for the last word, which executes the instruction. -/
structure Slot where
  source : Nat
  since : Nat
  last : Nat
  count : Nat
  members : List Nat
  deriving DecidableEq, Repr

/-- The state of the package. -/
structure State where
  /-- TICK (R40). -/
  tick : Nat
  threads : List Thread
  teams : List Team
  launches : List Launch
  saved : List SavedTeam
  ops : List Op
  ms : MemSys
  front : Front
  ver : Versions
  coll : Collective
  eng : Engines
  /-- Management registers that have been written, by offset in the management space (R399). -/
  mgmt : List (Nat × DWord)
  /-- Records lost to full rings since the previous record, by device and ring (R325). -/
  lost : List (Nat × Bool × Nat)
  pending : Option PlanePending
  penen : Penen
  power : Power
  tags : List Tag
  /-- TICK has reached an armed STOPTICK: the package stops at the end of this tick (R435). -/
  halt : Bool
  lull : List LullState
  eddy : Vector EddyCounts 4
  outbox : List Msg
  /-- The model's own: steps of other agents that are still to happen. -/
  agenda : List Instr
  /-- The model's own: the issue group that is executing. -/
  issuing : Issue
  /-- The slices and Eddy cores that issue in this tick or whose modifier words are still issuing. -/
  slots : List Slot
  /-- The model's own: names for threads, teams, launches and operations. -/
  nextId : Nat
  /-- The model's own: counts free choices. -/
  freeCount : Nat
  /-- The model's own: writes of the front end and the engines to pod-remote memory that a remap or a quota holds at
  the source, the first first (R392, R402). -/
  heldWrites : List HeldWrite
  /-- The model's own: messages that a quota holds at the source (R402): their device, the member that they go to, and
  the message. -/
  heldMsgs : List (Nat × Nat × Msg)
  /-- The model's own: reads of the host through a virtual function's window that a remap or a quota holds at the source
  (R392, R402): their device, offset and bytes. -/
  heldHost : List (Nat × Nat × Nat)
  /-- Corrected errors that Penen's error log has counted (R249). -/
  corrected : Nat
  deriving DecidableEq, Repr

/-! ## Reset -/

/-- No issue group. -/
def Issue.idle : Issue := { members := [], trapped := [], taken := [], stayed := [] }

/-- The state right after package reset (R13): no thread, no team and no launch, and every register at
its reset value, and Penen with the images that the boot ROM accepts (R418).  Registers without a home of their own
hold the values of `mgmtReset`. -/
def State.reset : State where
  tick := 0
  threads := []
  teams := []
  launches := []
  saved := []
  ops := []
  ms := { mem := [], past := [], poison := [], l1 := [], lines := [], msc := [], code := [], tlb := [], walker := [], layout := []
          banks := [] }
  front := { queues := [], placements := [], invals := [], turns := [], served := [], parked := [] }
  ver := { dir := [], pins := [], installs := [], waits := [], ptable := [], jobs := [] }
  coll := { known := [], stages := [], roots := [], results := [] }
  eng := { tcopies := [], qcopies := [] }
  mgmt := []
  lost := []
  pending := Option.none
  penen :=
    { bank := false, image0 := bootImage (Config.flash false), image1 := bootImage (Config.flash true), frozen := [], handover := Option.none
      fallback := false, hok := false, heldWakes := [], command := Option.none, ending := Option.none }
  power := { ramps := [], ports := [], lullEnergy := [], ended := [], mean := 0, temp := 0, pcap := 60
             trip1 := false, trip2 := false, step := 0, cycles := [], lines := [] }
  tags := []
  halt := false
  lull := []
  eddy := Vector.replicate 4 { ejects := 0, recalls := 0, short := 0 }
  outbox := []
  agenda := []
  issuing := Issue.idle
  slots := []
  nextId := 0
  freeCount := 0
  heldWrites := []
  heldMsgs := []
  heldHost := []
  corrected := 0

end Sys2Proof.Machine
end

