-- ==== Sys2Proof/Machine/Mgmt.lean ====
section
/-! DEFINITION. The management space (R399): where each register lies, what it resets to, what a read
returns, and which fields a write sets (R5, R6, R251, R303, R305, R344, R390, R401 to R405, R412 to
R417, R421, R424, R435, R436). -/

namespace Sys2Proof.Machine

/-- The first physical address of the management space (R263). -/
def mgmtBase : Nat := 0x2000000000000

/-! ## Registers with a home of their own -/

/-- The reset values that are not zero (R390, R414, R424). -/
def mgmtReset (off : Nat) : DWord :=
  if off = 0x70000008 then 0x00FAC688
  else if off = 0x70000018 then 100
  else if off = 0xA0000000 then 60
  else if off = 0xA0000008 then 0x19000000640
  else if off = 0xA0002000 then 16
  else 0

/-- A management register as it is held, by its offset, a multiple of 8. -/
def State.reg (s : State) (off : Nat) : DWord :=
  match s.mgmt.find? fun e => e.1 == off with
  | some e => e.2
  | none => mgmtReset off

/-- Sets a management register. -/
def State.setReg (s : State) (off : Nat) (v : DWord) : State :=
  { s with mgmt := (off, v) :: s.mgmt.filter fun e => e.1 != off }

/-- A field of a management register. -/
def State.regField (s : State) (off hi lo : Nat) : Nat := bits (s.reg off).toNat hi lo

/-- Sets bits hi to lo of a 64-bit value. -/
def setBits (x : DWord) (hi lo v : Nat) : DWord :=
  let mask : DWord := BitVec.ofNat 64 ((2 ^ (hi + 1 - lo) - 1) * 2 ^ lo)
  (x &&& ~~~mask) ||| (BitVec.ofNat 64 (v * 2 ^ lo) &&& mask)

/-- Sets a field of a management register. -/
def State.setRegField (s : State) (off hi lo v : Nat) : State := s.setReg off (setBits (s.reg off) hi lo v)

/-! ## Cores, units and partitions -/

/-- CORE names a core of the mesh (R36). -/
def coreExists (core : Nat) : Bool := decide (core < 512 ∧ core % 16 < 12)

/-- The die of a core (R36). -/
def coreDie (core : Nat) : Nat := core / 128

/-- The package unit number of a core (R400). -/
def coreUnit (core : Nat) : Nat :=
  12 * coreDie core + 4 * (core % 16 / 4) + core / 16 % 8 / 2

/-- The offset of a partition's block (R401). -/
def partOff (p : Nat) : Nat := 0x90000000 + 0x40 * p

/-- The partition exists (R401). -/
def State.partExists (s : State) (p : Nat) : Bool := decide (p < 48) && bit (s.reg (partOff p)).toNat 63

/-- The partition that a core lies in (R400, R401). -/
def State.corePart (s : State) (core : Nat) : Option Nat :=
  (List.range 48).find? fun p => s.partExists p && bit (s.reg (partOff p)).toNat (coreUnit core)

/-- The near segment or far slab that holds a local physical address lies in the partition (R402). -/
def State.partHolds (s : State) (p pa : Nat) : Bool :=
  if pa < 0x4000000000 then
    bit (s.reg (partOff p + 0x10 + 8 * (pa / 2 ^ 36))).toNat (pa / 2 ^ 30 % 64)
  else if 0x40000000000 ≤ pa ∧ pa < 0x60000000000 then
    bit (s.regField (partOff p + 0x30) 63 32) ((pa - 0x40000000000) / 2 ^ 36)
  else false

/-! ## Virtual devices -/

/-- The offset of a register of a virtual device's block (R405). -/
def vdOff (vd o : Nat) : Nat := 0x98000000 + 0x100 * vd + o

/-- The virtual device exists (R405). -/
def State.vdExists (s : State) (vd : Nat) : Bool := decide (vd < 1024) && bit (s.reg (vdOff vd 0)).toNat 63

/-- The device's partition. -/
def State.vdPart (s : State) (vd : Nat) : Nat := s.regField (vdOff vd 0) 55 48

/-- The device's wake class, 0 for W1 to 3 for W4. -/
def State.vdClass (s : State) (vd : Nat) : Nat := s.regField (vdOff vd 0) 41 40

/-- The device's STATE: 0 OFF, 1 ACTIVE, 2 COLLAPSING, 3 LULL, 4 WAKING. -/
def State.vdState (s : State) (vd : Nat) : Nat := s.regField (vdOff vd 0) 34 32

/-- Sets the device's STATE. -/
def State.setVdState (s : State) (vd st : Nat) : State := s.setRegField (vdOff vd 0) 34 32 st

/-- The root of the device's page tables (R267). -/
def State.vdRoot (s : State) (vd : Nat) : Nat := s.regField (vdOff vd 0x10) 55 12 * 4096

/-- ROOT of the device has been written since its creation: before that it holds no defined value, and no walk
acts on it (R7, R405). -/
def State.rootSet (s : State) (vd : Nat) : Bool := s.mgmt.any fun e => e.1 == vdOff vd 0x10

/-- The memory-side cache ways that fills of the device's agents may take (R401, R402). -/
def State.vdWays (s : State) (vd : Nat) : Nat := s.regField (partOff (s.vdPart vd) + 8) 15 0

/-- The runtime's trap vector (R378, R405): bits [1:0] are ignored. -/
def State.svec (s : State) (vd : Nat) : VAddr := BitVec.ofNat 56 (s.regField (vdOff vd 0x18) 55 2 * 4)

/-- The devices that exist: those whose first register has been written with V set. -/
def State.devices (s : State) : List Nat :=
  (s.mgmt.filter fun e => decide (0x98000000 ≤ e.1 ∧ e.1 < 0x98040000) && e.1 % 0x100 == 0 && bit e.2.toNat 63).map
    fun e => (e.1 - 0x98000000) / 0x100

/-- This package's member number (R390). -/
def State.member (s : State) : Nat := s.regField 0x70000000 9 0

/-! ## Reads -/

/-- A bank whose state is that after reset (R250). -/
def bankReset (core num : Nat) : Bank :=
  { core := core, num := num, mode := if num < 8 then .cache else .scratch, owner := 0, fifo := [], draining := false }

/-- A bank of a core, as the memory system holds it. -/
def MemSys.bank (m : MemSys) (core num : Nat) : Bank :=
  match m.banks.find? fun b => b.core == core && b.num == num with
  | some b => b
  | none => bankReset core num

/-- A bank of a core. -/
def State.bank (s : State) (core num : Nat) : Bank := s.ms.bank core num

/-- Sets a bank. -/
def State.setBank (s : State) (b : Bank) : State :=
  { s with ms := { s.ms with banks := b :: s.ms.banks.filter fun x => !(x.core == b.core && x.num == b.num) } }

/-- The code of a bank mode (R251). -/
def BankMode.code : BankMode → Nat
  | .cache => 0
  | .scratch => 1
  | .fifo => 2

/-- BANKMODE of a core (R251). -/
def State.bankmode (s : State) (core : Nat) : Nat :=
  (List.range 32).foldl (fun v k => v + (s.bank core k).mode.code * 4 ^ k) 0

/-- The Eddy context a thread holds (R342 to R350). -/
def Place.context : Place → Option (Nat × Nat)
  | .home => none
  | .leaving c x _ | .eddy c x | .recallWanted c x | .returning c x _ => some (c, x)

/-- The die of a thread's home core. -/
def State.threadDie (s : State) (t : Thread) : Nat :=
  match s.teams.find? fun m => m.id == t.team with
  | some m => coreDie m.core
  | none => 0

/-- The contexts of a die that hold a thread (R344). -/
def State.eddyBusy (s : State) (die : Nat) : Nat :=
  (s.threads.filter fun t => t.place.context.isSome && s.threadDie t == die).length

/-- The word w of a version-directory entry (R303). -/
def State.vdirWord (s : State) (e : VEntry) (w : Nat) : Nat :=
  let step := fun k =>
    match e.frames[k]? with
    | some (.valid, x) => x.toNat
    | _ => 0
  let code := fun k =>
    match e.frames[k]? with
    | some (.valid, _) => 1
    | some (.filling, _) => 2
    | _ => 0
  let pinned := fun k => b2n (s.ver.pins.any fun p => p.entry == e.idx && p.frame == k)
  if w = 0 then
    2 ^ 63 + b2n e.big * 2 ^ 62 + b2n (e.frames.length == 4) * 2 ^ 61 + e.fpa / 2 ^ 16 * 2 ^ 16 + e.dev
  else if w = 1 then
    e.vtimeout * 2 ^ 32 + (code 0 + 4 * code 1 + 16 * code 2 + 64 * code 3) * 2 ^ 24 +
      (pinned 0 + 2 * pinned 1 + 4 * pinned 2 + 8 * pinned 3) * 2 ^ 16 + e.drops
  else if w = 2 then step 1 * 2 ^ 32 + step 0
  else step 3 * 2 ^ 32 + step 2

/-- The word w of a progress-table entry (R305). -/
def PEntry.word (e : PEntry) (w : Nat) : Nat :=
  let st := match e.state with
    | .counted => 1
    | .silent => 2
    | .left => 3
  if w = 0 then e.job * 2 ^ 48 + e.widx * 2 ^ 35 + st * 2 ^ 33 + b2n e.isLocal * 2 ^ 32
  else e.step.toNat * 2 ^ 32 + e.heard.toNat

/-- The device has a worker of the job on this package (R402). -/
def State.hasWorker (s : State) (vd job : Nat) : Bool :=
  s.launches.any fun l => l.dev == vd && (match l.worker with
    | some w => w.job == job
    | none => false)

/-- PWRSTAT (R424). -/
def State.pwrstat (s : State) : Nat :=
  s.power.mean % 65536 * 2 ^ 48 + s.power.temp % 256 * 2 ^ 40 + s.power.pcap * 2 ^ 26 +
    (b2n s.power.trip1 + 2 * b2n s.power.trip2) * 2 ^ 16 + s.regField 0xA0002000 6 0 * 2 ^ 8 + s.power.step

/-- HOSTAT (R421). -/
def State.hostat (s : State) : Nat :=
  b2n s.penen.fallback * 4 + b2n s.penen.bank * 2 + b2n s.penen.hok

/-- The level-S and function-driver fields of a virtual device's block (R405, R436): the writable mask
of a register. -/
def vdMask (o : Nat) : Nat :=
  if o = 0x00 then 2 ^ 32 - 1
  else if o = 0x08 then 1
  else if o = 0x10 then (2 ^ 44 - 1) * 2 ^ 12
  else if o = 0x18 ∨ o = 0x20 ∨ o = 0x28 ∨ o = 0x30 ∨ o = 0x58 then 2 ^ 56 - 1
  else if o = 0x38 then 0xFFFF
  else if o = 0x40 ∨ o = 0x48 then 2 ^ 32 - 1
  else if o = 0x90 then 3
  else if o = 0xA0 then 0xF1
  else 0

/-- What a read of the 64-bit management register at an offset returns; `viewer` is the virtual device
that reads, or none for Penen and the physical function (R303, R402), and `lvl` the level of the access: a field
that only level S may read reads as zero at level U (R5, log entry 66). -/
def State.mgmtRead (s : State) (viewer : Option Nat) (lvl : Level) (off : Nat) : Nat :=
  if off < 0x40000000 then
    if off % 0x10000 = 0x40 ∧ coreExists (off / 0x10000) then s.bankmode (off / 0x10000) else 0
  else if off < 0x50000000 then
    match s.ver.dir.find? fun e => e.idx == (off - 0x40000000) / 32 with
    | none => 0
    | some e => if viewer.isNone || viewer == some e.dev then s.vdirWord e ((off - 0x40000000) / 8 % 4) else 0
  else if off < 0x60000000 then
    match s.ver.ptable.find? fun e => e.idx == (off - 0x50000000) / 16 with
    | none => 0
    | some e =>
      if (match viewer with
          | none => true
          | some vd => s.hasWorker vd e.job) then e.word (off / 8 % 2) else 0
  else if off < 0x70000000 then
    let die := (off - 0x60000000) / 0x1000
    let o := off % 0x1000
    if h : die < 4 then
      let c := s.eddy[die]
      if o = 0 then s.eddyBusy die * 2 ^ 32 + (96 - s.eddyBusy die)
      else if o = 8 then c.ejects.toNat
      else if o = 16 then c.recalls.toNat
      else if o = 24 then c.short.toNat
      else 0
    else 0
  else if 0x80000000 ≤ off ∧ off < 0x90000000 then 0
  else if 0x91000000 ≤ off ∧ off < 0x91008000 then
    let core := (off - 0x91000000) / 0x40
    (List.range 4).foldl (fun v k =>
      let b := s.bank core (off % 0x40 / 2 + k)
      v + (if b.mode == .fifo then 0x8000 + b.owner else 0) * 65536 ^ k) 0
  else if 0x98000000 ≤ off ∧ off < 0x98040000 then
    let o := off % 0x100
    if o = 0x60 then 0 else if o = 0x80 then (if s.vdExists ((off - 0x98000000) / 0x100) then s.pwrstat else 0)
    else if lvl = .u then (s.reg off &&& ~~~BitVec.ofNat 64 (vdMask o)).toNat
    else (s.reg off).toNat
  else if off = 0xA0001020 then s.hostat
  else if off = 0xA0002008 then s.pwrstat
  else if off = 0xA0000048 then 0
  else (s.reg off).toNat

/-- The n bytes a read of the management space returns, n at most 16 and the access aligned. -/
def State.mgmtBytes (s : State) (viewer : Option Nat) (lvl : Level) (off n : Nat) : Nat :=
  let word := fun k => s.mgmtRead viewer lvl (off / 8 * 8 + 8 * k)
  if n ≤ 8 then word 0 / 2 ^ (8 * (off % 8)) % 2 ^ (8 * n) else word 0 + word 1 * 2 ^ 64

/-! ## Writes -/

/-- The fields that Penen may write directly (R390, R417, R424, R435). -/
def penenMask (off : Nat) : Nat :=
  if off = 0x70000000 then 0x3FF000003FF
  else if off = 0x70000018 then 0xFFFF
  else if off = 0xA0002000 then 0x7F
  else if off = 0xA0003000 then 2 ^ 64 - 1
  else if off = 0xA0003008 then 1
  else if off = 0xA0004000 then (2 ^ 34 - 1) * 2 ^ 16
  else if off = 0xA0004008 then 2 ^ 32 - 1
  else if off = 0xA0004010 then (2 ^ 34 - 1) * 2 ^ 16
  else if off = 0xA0004018 then 0x1F
  else if 0xA0004100 ≤ off ∧ off < 0xA0004200 then
    if off % 16 = 0 then 7 * 2 ^ 61 + (2 ^ 44 - 1) * 2 ^ 16 else (2 ^ 34 - 1) * 2 ^ 16
  else if 0xA0014000 ≤ off ∧ off < 0xA0024000 then
    if off % 16 = 0 then 3 * 2 ^ 62 + (2 ^ 36 - 1) * 2 ^ 12 else (2 ^ 36 - 1) * 2 ^ 12
  else 0

/-- The fields that the physical function's driver may write (R412, R414, R435). -/
def pfMask (off : Nat) : Nat :=
  if off = 0xA0000000 then 0x3F
  else if off = 0xA0000008 then 0x3FF000007FF
  else if 0xA0000100 ≤ off ∧ off < 0xA0000200 then
    if off % 16 = 0 then 2 ^ 63 + (2 ^ 36 - 1) * 2 ^ 12 else (2 ^ 36 - 1) * 2 ^ 12
  else if off = 0xA0001000 then 2 ^ 64 - 1
  else if off = 0xA0003000 then 2 ^ 64 - 1
  else if off = 0xA0003008 then 1
  else 0

/-- The Penen master that an agent is, by its number in GMASTER (R412, R414). -/
def agentMaster : Agent → Option Nat
  | .penen => some 0
  | .packet k => some (k.val + 1)
  | .pf | .vf _ => none

/-- The agent may write the level-S fields of a device's block: the function's host driver and S code of the device,
and, since the letter names the lowest level, Penen and the physical function (R5, R405, log entry 95). -/
def ofBlock (who : Agent) (vd : Nat) : Bool :=
  match who with
  | .penen | .packet _ | .pf => true
  | .vf d => d == vd

/-- The fields of the devices' blocks that an agent may write. -/
def blockMask (who : Agent) (off : Nat) : Nat :=
  if 0x98000000 ≤ off ∧ off < 0x98040000 ∧ ofBlock who ((off - 0x98000000) / 0x100) then vdMask (off % 0x100) else 0

/-- The fields that an agent may write: Penen and the physical function their own, and each those of the devices'
blocks (R405). -/
def writeMask (who : Agent) (off : Nat) : Nat :=
  match who with
  | .penen | .packet _ => penenMask off ||| blockMask who off
  | .pf => pfMask off ||| blockMask who off
  | .vf _ => blockMask who off

/-- A range lies within some valid HCEIL range (R414). -/
def State.inHceil (s : State) (first last : Nat) : Bool :=
  (List.range 16).any fun i =>
    let w0 := (s.reg (0xA0000100 + 16 * i)).toNat
    let w1 := (s.reg (0xA0000108 + 16 * i)).toNat
    bit w0 63 && decide (bits w0 47 12 * 4096 ≤ first) && decide (last < bits w1 47 12 * 4096 + 4096)

/-- Freezes a Penen master for a violation (R415). -/
def State.violation (s : State) (master kind : Nat) : State :=
  let old := s.reg 0xA0000040
  let count := bits old.toNat 63 32 + 1
  { s.setReg 0xA0000040 (BitVec.ofNat 64 (count % 2 ^ 32 * 2 ^ 32 + kind * 16 + master)) with
    penen := { s.penen with frozen := if master ∈ s.penen.frozen then s.penen.frozen else master :: s.penen.frozen }
    outbox := .msix 0 :: s.outbox }

/-- The value a register takes when an agent writes v to it: fields that are not writable keep their
value (R5), and so do fields written with a reserved value (R6, R390, R405, R414, R424).  DESIGN CHOICE: RECBASE, FQBASE,
EQBASE and BAR2BASE keep their value when what is written is no multiple of what R405 names (log entry 77). -/
def State.written (s : State) (who : Agent) (off : Nat) (v : DWord) : DWord :=
  let old := s.reg off
  let mask := BitVec.ofNat 64 (writeMask who off)
  let new := (old &&& ~~~mask) ||| (v &&& mask)
  if off = 0xA0000000 then
    if 20 ≤ bits v.toNat 5 0 ∧ bits v.toNat 5 0 ≤ 60 then new else old
  else if off = 0xA0002000 then
    if 1 ≤ bits v.toNat 6 0 ∧ bits v.toNat 6 0 ≤ 64 then new else old
  else if off = 0x70000018 then
    if bits v.toNat 15 0 = 0 then old else new
  else if 0x98000000 ≤ off ∧ off < 0x98040000 ∧ off % 0x100 = 0x38 then
    let keepF := if bits v.toNat 7 0 ≤ 16 then bits v.toNat 7 0 else bits old.toNat 7 0
    let keepE := if bits v.toNat 15 8 ≤ 16 then bits v.toNat 15 8 else bits old.toNat 15 8
    if writeMask who off = 0 then old else BitVec.ofNat 64 (keepE * 256 + keepF)
  else if 0x98000000 ≤ off ∧ off < 0x98040000 ∧ off % 0x100 = 0x20 then
    if bits v.toNat 5 0 = 0 then new else old
  else if 0x98000000 ≤ off ∧ off < 0x98040000 ∧ (off % 0x100 = 0x28 ∨ off % 0x100 = 0x30) then
    if bits v.toNat 4 0 = 0 then new else old
  else if 0x98000000 ≤ off ∧ off < 0x98040000 ∧ off % 0x100 = 0x58 then
    if bits v.toNat 35 0 = 0 then new else old
  else new

/-- The host window that the pair of registers holding `off` describes leaves every valid HCEIL range,
once `off` holds v (R415, R417). -/
def State.badHostWindow (s : State) (off : Nat) (v : DWord) : Bool :=
  decide (0xA0014000 ≤ off ∧ off < 0xA0024000) &&
    (let w0 := if off % 16 = 0 then v.toNat else (s.reg (off / 16 * 16)).toNat
     let w1 := if off % 16 = 8 then v.toNat else (s.reg (off / 16 * 16 + 8)).toNat
     bit w0 63 && !s.inHceil (bits w0 47 12 * 4096) (bits w1 47 12 * 4096 + 4095))

/-- The collectives rooted in a device close steps again (R438). -/
def State.resumeRoots (s : State) (vd : Nat) : State :=
  { s with coll := { s.coll with
      roots := s.coll.roots.map fun r => if r.desc.dev == vd then { r with stopped := false } else r } }

/-- The walker caches drop a device's entries: walks that start after a change of ROOT see it (R405). -/
def State.dropWalker (s : State) (vd : Nat) : State :=
  { s with ms := { s.ms with walker := s.ms.walker.filter fun e => e.dev != vd } }

/-- A host window written by a Penen master leaves every HCEIL range: the master that wrote it (R415). -/
def State.windowMaster (s : State) (who : Agent) (off : Nat) (v : DWord) : Option Nat :=
  if s.badHostWindow off v then agentMaster who else none

/-- A write of a register that has no behaviour of its own (R5): the writable fields take the value
written; a host window that leaves every HCEIL range is a violation and is not written (R415); a write of ROOT, of the
same value too, is one that later walks see (R405, R7); EN going from 0 to 1 clears FIRST and PARTS (R436), and EN
written 0 ends a stop (R438). -/
def State.writeReg (s : State) (who : Agent) (off : Nat) (v : DWord) : State :=
  let new := s.written who off v
  match s.windowMaster who off new with
  | some m => s.violation m 2
  | none =>
  if new = s.reg off ∧ (off % 0x100 ≠ 0x10 ∨ writeMask who off = 0) then s
  else if 0x98000000 ≤ off ∧ off < 0x98040000 ∧ off % 0x100 = 0x10 then
    (s.setReg off new).dropWalker ((off - 0x98000000) / 0x100)
  else
    let s' := s.setReg off new
    if 0x98000000 ≤ off ∧ off < 0x98040000 ∧ off % 0x100 = 0x90 ∧ bit new.toNat 0 ∧ !bit (s.reg off).toNat 0 then
      s'.setReg (off + 8) 0
    else if 0x98000000 ≤ off ∧ off < 0x98040000 ∧ off % 0x100 = 0x90 ∧ !bit new.toNat 0 then
      s'.resumeRoots ((off - 0x98000000) / 0x100)
    else s'

/-! ## Host windows and export windows -/

/-- A host access of a device lies in one of its valid windows, one with HWR for a store (R397, R417). -/
def State.hostWindow (s : State) (vd ha n : Nat) (store : Bool) : Bool :=
  (List.range 4).any fun j =>
    let off := 0xA0014000 + 0x40 * vd + 0x10 * j
    let w0 := (s.reg off).toNat
    let w1 := (s.reg (off + 8)).toNat
    bit w0 63 && (!store || bit w0 62) && decide (bits w0 47 12 * 4096 ≤ ha) &&
      decide (ha + n ≤ bits w1 47 12 * 4096 + 4096)

/-- A pod-remote request of a member lies in a valid export window that admits it (R388, R417). -/
def State.exported (s : State) (src pa n : Nat) (store : Bool) : Bool :=
  (List.range 16).any fun i =>
    let w0 := (s.reg (0xA0004100 + 0x10 * i)).toNat
    let w1 := (s.reg (0xA0004108 + 0x10 * i)).toNat
    bit w0 63 && (!store || bit w0 62) && (bit w0 61 || decide (bits w0 59 50 = src)) &&
      decide (bits w0 49 16 * 65536 ≤ pa) && decide (pa + n ≤ bits w1 49 16 * 65536 + 65536)

end Sys2Proof.Machine
end

