-- ==== Sys2Proof/Machine/Doorbell.lean ====
section
/-! DEFINITION. The registers of the management space that act when they are written: kicks (R317, R318,
R399), Lull requests and wake writes (R406, R412, R422), and stores into the management space (R5, R405). -/

namespace Sys2Proof.Machine

/-! ## Penen's masters -/

/-- The image of a bank. -/
def Penen.image (p : Penen) (bank : Bool) : Option Image := if bank then p.image1 else p.image0

/-- A Penen master runs: it is not frozen, and the active bank holds an image that was accepted (R415, R418). -/
def State.masterRuns (s : State) (m : Nat) : Bool := !s.penen.frozen.contains m && (s.penen.image s.penen.bank).isSome

/-! ## Wake writes and Lull requests -/

/-- The Lull record of a device. -/
def State.lullOf (s : State) (vd : Nat) : LullState :=
  match s.lull.find? fun e => e.dev == vd with
  | some e => e
  | none => { dev := vd, wakeTick := 0, idleSince := s.tick, fifos := [], reserve := none }

/-- Sets the Lull record of a device. -/
def State.setLull (s : State) (e : LullState) : State :=
  { s with lull := e :: s.lull.filter fun x => x.dev != e.dev }

/-- The launches of a device, by name. -/
def State.launchesOf (s : State) (vd : Nat) : List Nat := (s.launches.filter fun l => l.dev == vd).map fun l => l.id

/-- Moves the device's resident teams of one phase to another. -/
def State.movePhase (s : State) (vd : Nat) (old new : TeamPhase) : State :=
  let ids := s.launchesOf vd
  { s with teams := s.teams.map fun tm =>
      if ids.contains tm.launch && tm.phase == old then { tm with phase := new } else tm }

/-- A device starts to collapse (R406, R407): its teams are saved by the steps of R339. -/
def State.startCollapse (s : State) (vd : Nat) : State :=
  (s.setVdState vd 2).movePhase vd .running .preempting

/-- A Lull request (R406): only an ACTIVE device collapses. -/
def State.lullRequest (s : State) (vd : Nat) : State :=
  if s.vdExists vd ∧ s.vdState vd = 1 then s.startCollapse vd else s

/-- Gives a device's FIFO banks their entries back, those that are still assigned to it (R201, R409). -/
def State.refillFifos (s : State) (vd : Nat) (l : List Bank) : State :=
  l.foldl (fun s b =>
    let now := s.bank b.core b.num
    if now.mode == .fifo && now.owner == vd then s.setBank { now with fifo := b.fifo } else s) s

/-- The number of bits set in the n low bits of a value. -/
def popCount (v n : Nat) : Nat := ((List.range n).filter fun k => bit v k).length

/-- S_p(d): 25 MiB for each unit of the partition on a die (R411). -/
def State.unitBytes (s : State) (p die : Nat) : Nat :=
  26214400 * popCount (s.regField (partOff p) (12 * die + 11) (12 * die)) 12

/-- N_p + S_p (R411). -/
def State.lullBytes (s : State) (p : Nat) : Nat :=
  (List.range 4).foldl (fun n d =>
    n + s.unitBytes p d + 2 ^ 30 * popCount (s.reg (partOff p + 0x10 + 8 * d)).toNat 64) 0

/-- The runs of bytes that collapse copies for a partition of class W3 or W4, with the place of each behind the first:
the save area, and the near segments (R407). -/
def State.lullRuns (s : State) (vd : Nat) : List (Nat × Nat × Nat) :=
  let p := s.vdPart vd
  let save := (List.range 4).foldl (fun n d => n + s.unitBytes p d) 0
  let segs := (List.range 256).filter fun k => bit (s.reg (partOff p + 0x10 + 8 * (k / 64))).toNat (k % 64)
  (s.regField (vdOff vd 0x50) 49 0, save, 0) ::
    segs.zipIdx.map fun e => (e.1 / 64 * 2 ^ 36 + e.1 % 64 * 2 ^ 30, 2 ^ 30, save + e.2 * 2 ^ 30)

/-- The physical base of the Lull reserve (R417). -/
def State.reserveBase (s : State) : Nat := s.regField 0xA0004000 49 16 * 65536

/-- The near segments and the save area come back from the Lull reserve (R407, R409). -/
def State.fromReserve (s : State) (vd : Nat) : State :=
  match (s.lullOf vd).reserve with
  | none => s
  | some o =>
    { s with ms := { s.ms with
        mem := (s.lullRuns vd).foldl (fun m r => Memory.copyRun m (s.reserveBase + o + r.2.2) r.1 r.2.1) s.ms.mem
        poison := (s.lullRuns vd).foldl (fun l r => movePoison l (s.reserveBase + o + r.2.2) r.1 r.2.1) s.ms.poison } }

/-- The wake of another device that is waking goes before a device's: the lower class, and in one class the earlier wake
write (R409). -/
def State.wakeAhead (s : State) (vd : Nat) : Bool :=
  decide (s.vdState vd = 4) && (s.devices.filter fun x => x != vd && s.vdState x == 4).any fun x =>
    decide (s.vdClass x < s.vdClass vd) ||
      (s.vdClass x == s.vdClass vd && decide ((s.lullOf x).wakeTick < (s.lullOf vd).wakeTick ∨
        ((s.lullOf x).wakeTick = (s.lullOf vd).wakeTick ∧ x < vd)))

/-- Starts the wake of a device in LULL or COLLAPSING (R406, R407, R409): its segments and its FIFO banks come back before
its teams, and what has not been saved stays. -/
def State.startWake (s : State) (vd tick : Nat) : State :=
  if s.vdExists vd ∧ (s.vdState vd = 2 ∨ s.vdState vd = 3) then
    ((((s.fromReserve vd).setVdState vd 4).movePhase vd .preempting .running).refillFifos vd (s.lullOf vd).fifos).setLull
      { s.lullOf vd with wakeTick := tick, fifos := [], reserve := none }
  else s

/-- The packet core that a wake write of a device goes to: the device's number modulo the number of packet cores that
are not frozen (R412). -/
def State.packetCore (s : State) (vd : Nat) : Option Nat :=
  let live := (List.range 6).filter fun k => !s.penen.frozen.contains (k + 1)
  live[vd % live.length]?

/-- Hardware holds wake writes and the packets that it hands to firmware: a hand-over is in progress, or every packet
core is frozen (R412, R420, R422). -/
def State.wakesHeld (s : State) : Bool := s.penen.handover.isSome || (s.packetCore 0).isNone

/-- A wake write goes to a packet core, which serves it at once; while none can, hardware holds it (R406, R412, R422). -/
def State.wakeRequest (s : State) (vd : Nat) : State :=
  if s.wakesHeld then
    { s with penen := { s.penen with heldWakes := s.penen.heldWakes ++ [(vd, s.tick)] } }
  else s.startWake vd s.tick

/-- Serves the wake writes that hardware held (R412, R422). -/
def State.serveWakes (s : State) : State :=
  if s.wakesHeld then s
  else
    s.penen.heldWakes.foldl (fun s e => s.startWake e.1 e.2) { s with penen := { s.penen with heldWakes := [] } }

/-! ## Kicks -/

/-- A queue by its device and number; device 1024 is the physical function. -/
def State.queueOf (s : State) (dev num : Nat) : Option Queue := s.front.queues.find? fun q => q.dev == dev && q.num == num

/-- A queue by its name. -/
def State.queue? (s : State) (id : Nat) : Option Queue := s.front.queues.find? fun q => q.id == id

/-- Replaces a queue. -/
def State.setQueue (s : State) (q : Queue) : State :=
  { s with front := { s.front with queues := replaceBy (fun x => x.id == q.id) q s.front.queues } }

/-- A kick's value is accepted (R317). -/
def kickAccepted (value kmax : Word) : Bool :=
  decide (1 ≤ (value - kmax).toNat ∧ (value - kmax).toNat < 2 ^ 31)

/-- The queue after a kick (R317): an accepted value becomes KMAX, and a slot that the front end is stopped
at is read again. -/
def Queue.kicked (q : Queue) (value : Word) : Queue :=
  { q with
    kmax := if kickAccepted value q.kmax then value else q.kmax
    wait := match q.wait with
      | .stopped _ | .idle => .idle
      | .placing => .placing
      | .destroying e d => .destroying e d
      | .invalidating i d => .invalidating i d }

/-- A kick of a device's queue (R317, R406): with AUTOWAKE, an accepted kick wakes a device in Lull.  A kick
of a queue that does not exist is dropped. -/
def State.kick (s : State) (dev num value : Nat) : State :=
  match s.queueOf dev num with
  | none => s
  | some q =>
    let v := BitVec.ofNat 32 value
    let s' := s.setQueue (q.kicked v)
    if kickAccepted v q.kmax && decide (dev < 1024) && bit (s.reg (vdOff dev 0x08)).toNat 0 &&
        decide (s.vdState dev = 3) then s'.wakeRequest dev
    else s'

/-! ## Stores into the management space -/

/-- The aligned 64-bit word that a store of n bytes leaves at an offset, n at most 8. -/
def State.merged (s : State) (off n v : Nat) : DWord :=
  setBits (s.reg (off / 8 * 8)) (8 * (off % 8) + 8 * n - 1) (8 * (off % 8)) v

/-- A store of at most 8 bytes into the management space (R5, R317, R399, R405, R406): a kick register takes
its low 32 bits at every level (log entry 102), the write-only word of a device's block acts, and other registers take
their writable fields, where the level is one that may write them. -/
def State.mgmtStore8 (s : State) (who : Agent) (lvl : Level) (off n v : Nat) : State :=
  if 0x80000000 ≤ off ∧ off < 0x84000000 then
    if off % 8 = 0 ∧ 4 ≤ n then s.kick ((off - 0x80000000) / 0x10000) (off % 0x10000 / 8) (v % 2 ^ 32) else s
  else if off = 0x84000000 then
    if who = .pf ∧ 4 ≤ n then s.kick 1024 0 (v % 2 ^ 32) else s
  else if 0x98000000 ≤ off ∧ off < 0x98040000 ∧ off % 0x100 = 0x60 then
    let vd := (off - 0x98000000) / 0x100
    if ofBlock who vd then
      if bit v 0 ∧ !bit v 1 then s.wakeRequest vd
      else if bit v 1 ∧ !bit v 0 then s.lullRequest vd
      else s
    else s
  else if lvl = .u then s
  else s.writeReg who (off / 8 * 8) (s.merged off n v)

/-- A store of n bytes into the management space, word by word. -/
def State.mgmtStore (s : State) (who : Agent) (lvl : Level) (off n v : Nat) : State :=
  if n ≤ 8 then s.mgmtStore8 who lvl off n v
  else (s.mgmtStore8 who lvl off 8 (v % 2 ^ 64)).mgmtStore8 who lvl (off + 8) (n - 8) (v / 2 ^ 64)

/-! ## The rows of these events -/

/-- KICK (R317). -/
def execKick (dev num value : Nat) (s : State) : Host.Outcome State Fault Refusal := .next (s.kick dev num value)

/-- LULL_REQUEST (R406). -/
def execLullRequest (vd : Nat) (s : State) : Host.Outcome State Fault Refusal := .next (s.lullRequest vd)

/-- WAKE_WRITE (R406). -/
def execWakeWrite (vd : Nat) (s : State) : Host.Outcome State Fault Refusal := .next (s.wakeRequest vd)

end Sys2Proof.Machine
end

