-- ==== Sys2Proof/Machine/Translate.lean ====
section
/-! DEFINITION. Translation (R266 to R272, R296, R387, R397, R402): the walk, the checks of a leaf, the
TLB of a core, and accesses that agents other than threads make through a device's page tables. -/

namespace Sys2Proof.Machine

/-- A fault of a walk (R270): the level at which it stopped, its REASON, and whether RPL makes it
replayable. -/
structure XFault where
  level : Nat
  reason : Nat
  rpl : Bool
  deriving DecidableEq, Repr

/-- What an access wants of a page (R269): the kind of the walk, and whether it is an atomic, an LDV, a
VPIN or a tile access, which an uncached page does not allow. -/
structure XWant where
  kind : XKind
  special : Bool
  level : Level
  deriving DecidableEq, Repr

/-- A translation: the key of the byte (log entry 3), the attributes of the leaf, and whether the byte is
in another member's memory. -/
structure XOk where
  key : Nat
  size : Nat
  uncached : Bool
  ord : Bool
  ver : Bool
  remote : Bool
  deriving DecidableEq, Repr

/-- A local physical address lies in a reserved range of the map (R263). -/
def reservedPa (pa : Nat) : Bool :=
  decide ((0x4000000000 ≤ pa ∧ pa < 0x40000000000) ∨ (0x60000000000 ≤ pa ∧ pa < 0x1000000000000) ∨
    0x2000100000000 ≤ pa)

/-- The physical address lies in the near or far tier (R263). -/
def nearOrFar (pa : Nat) : Bool :=
  decide (pa < 0x4000000000 ∨ (0x40000000000 ≤ pa ∧ pa < 0x60000000000))

/-- The key of a byte of another member's memory (R387, log entry 3). -/
def remoteKey (member pa : Nat) : Nat := (member + 1) * 2 ^ 50 + pa

/-- The key lies in another member's memory. -/
def isRemote (key : Nat) : Bool := decide (2 ^ 50 ≤ key)

/-- The key lies in host memory (R263). -/
def isHost (key : Nat) : Bool := decide (0x1000000000000 ≤ key ∧ key < 0x2000000000000)

/-- The key lies in the management space (R263). -/
def isMgmt (key : Nat) : Bool := decide (0x2000000000000 ≤ key ∧ key < 0x2000100000000)

/-- The levels of the tree (R267): level, high and low index bits, and the size of the next table. -/
def walkLevels : List (Nat × Nat × Nat × Nat) :=
  [(4, 55, 47, 0x8000), (3, 46, 35, 0x100), (2, 34, 30, 0x1000), (1, 29, 21, 0x100), (0, 20, 16, 1)]

/-- A table may be read at this physical address: it lies in the partition's memory (R402). -/
def State.tableOk (s : State) (vd pa : Nat) : Bool := s.partHolds (s.vdPart vd) pa

/-- What a walk has found (R269): the leaf entry, its level and the low bit of its index, and the non-leaf entries
on the way, with the level of their table and the low bit of its index. -/
structure Walked where
  leaf : DWord
  level : Nat
  lo : Nat
  path : List (Nat × Nat × DWord)
  deriving DecidableEq, Repr

/-- The walk with one more non-leaf entry above it. -/
def Walked.above (w : Walked) (lv lo : Nat) (e : DWord) : Walked := { w with path := (lv, lo, e) :: w.path }

/-- The non-leaf entry that a walk takes from the walker cache of its die, when it takes one (R266, log entry 11);
agents other than threads walk past the cache. -/
def State.walkHeld (s : State) (die : Option Nat) (vd va lv lo : Nat) : Option DWord :=
  match s.ms.walker.find? fun e => die == some e.die && e.dev == vd && e.level == lv && e.index == va / 2 ^ lo with
  | none => none
  | some e => if Config.walkerHit s.freeCount lv then some e.entry else none

/-- The checks of an entry of a walk (R267 to R269): a fault, a leaf, or the next table. -/
def walkEntry (e : DWord) (lv next : Nat) : Except XFault (Option Nat) :=
  if !bit e.toNat 0 then .error ⟨lv, 0, bit e.toNat 7⟩
  else if bit e.toNat 63 then .error ⟨lv, 1, false⟩
  else if bit e.toNat 1 then (if lv = 4 then .error ⟨lv, 1, false⟩ else .ok none)
  else if bits e.toNat 62 50 ≠ 0 ∨ bits e.toNat 6 2 ≠ 0 ∨ lv = 0 then .error ⟨lv, 1, false⟩
  else if bits e.toNat 49 8 * 256 % next ≠ 0 then .error ⟨lv, 1, false⟩
  else .ok (some (bits e.toNat 49 8 * 256))

/-- Finds the leaf that maps a virtual address (R269), through the walker cache of a die or without one. -/
def State.walkFrom (s : State) (die : Option Nat) (vd va table : Nat) :
    List (Nat × Nat × Nat × Nat) → Except XFault Walked
  | [] => .error ⟨0, 1, false⟩
  | (lv, hi, lo, next) :: rest =>
    match s.walkHeld die vd va lv lo with
    | some e => (s.walkFrom die vd va (bits e.toNat 49 8 * 256) rest).map fun w => w.above lv lo e
    | none =>
      let at' := table + 8 * bits va hi lo
      if !s.tableOk vd at' then .error ⟨lv, 1, false⟩
      else if at' / 16 ∈ s.ms.poison then .error ⟨lv, 5, false⟩
      else
        let e := BitVec.ofNat 64 (Memory.readNat s.ms.mem at' 8)
        match walkEntry e lv next with
        | .error f => .error f
        | .ok none => .ok ⟨e, lv, lo, []⟩
        | .ok (some t) => (s.walkFrom die vd va t rest).map fun w => w.above lv lo e

/-- The addresses of the entries that a walk reads (R262, R269). -/
def State.walkReads (s : State) (die : Option Nat) (vd va table : Nat) : List (Nat × Nat × Nat × Nat) → List Nat
  | [] => []
  | (lv, hi, lo, next) :: rest =>
    match s.walkHeld die vd va lv lo with
    | some e => s.walkReads die vd va (bits e.toNat 49 8 * 256) rest
    | none =>
      let at' := table + 8 * bits va hi lo
      if !s.tableOk vd at' then []
      else
        match walkEntry (BitVec.ofNat 64 (Memory.readNat s.ms.mem at' 8)) lv next with
        | .ok (some t) => at' :: s.walkReads die vd va t rest
        | .ok none | .error _ => [at']

/-- The walk of a virtual address from the root of its device's tables, which must have been written (R7, R405,
log entry 67). -/
def State.walkRoot (s : State) (die : Option Nat) (vd va : Nat) : Except XFault Walked :=
  if s.rootSet vd then s.walkFrom die vd va (s.vdRoot vd) walkLevels else .error ⟨4, 0, false⟩

/-- A local physical address that a leaf may yield for a device (R397, R402). -/
def State.localOk (s : State) (vd pa : Nat) (mt store : Bool) : Bool :=
  if reservedPa pa then false
  else if isHost pa then s.hostWindow vd (pa - 0x1000000000000) 1 store
  else if isMgmt pa then
    let off := pa - mgmtBase
    decide (0x80000000 + vd * 0x10000 ≤ off ∧ off < 0x80000000 + (vd + 1) * 0x10000) ||
      decide (vdOff vd 0 ≤ off ∧ off < vdOff vd 0x100) ||
      (mt && decide ((0x40000000 ≤ off ∧ off < 0x40200000) ∨ (0x50000000 ≤ off ∧ off < 0x50020000)))
  else s.partHolds (s.vdPart vd) pa

/-- The checks of a leaf and the address it yields, in the order of R269 with those of R296, R387, R397
and R402. -/
def State.checkLeaf (s : State) (vd va : Nat) (want : XWant) (e : DWord) (lv lo : Nat) : Except XFault XOk :=
  let n := e.toNat
  let mt := bits n 61 60
  let store := want.kind == .write
  if bits n (lo - 1) 8 ≠ 0 ∨ 2 ≤ mt then .error ⟨lv, 1, false⟩
  else if bit n 5 ∧ 2 ≤ lv then .error ⟨lv, 1, false⟩
  else if want.level == .u && !bit n 3 then .error ⟨lv, 2, false⟩
  else if (store && !bit n 2) || (want.kind == .fetch && !bit n 4) then .error ⟨lv, 2, false⟩
  else if mt = 1 && want.special then .error ⟨lv, 3, false⟩
  else if bit n 5 && want.kind != .versioned then .error ⟨lv, 3, false⟩
  else
    let pa := bits n 49 lo * 2 ^ lo + va % 2 ^ lo
    let member := bits n 59 50
    if bit n 62 && decide (member ≠ s.member) then
      if s.regField 0x70000000 41 32 < member ∨ !nearOrFar pa then .error ⟨lv, 4, false⟩
      else .ok ⟨remoteKey member pa, lo, decide (mt = 1), bit n 6, bit n 5, true⟩
    else if s.localOk vd pa (decide (mt = 1)) store then
      .ok ⟨pa, lo, decide (mt = 1) || isMgmt pa, bit n 6, bit n 5, false⟩
    else .error ⟨lv, 4, false⟩

/-- A whole walk (R269), as agents other than threads make it. -/
def State.walk (s : State) (vd va : Nat) (want : XWant) : Except XFault XOk :=
  if 2 ^ 56 ≤ va then .error ⟨4, 0, false⟩
  else
    match s.walkRoot none vd va with
    | .error f => .error f
    | .ok w => s.checkLeaf vd va want w.leaf w.level w.lo

/-- The level of the table that holds a leaf of 2^lo bytes. -/
def leafLevel (lo : Nat) : Nat :=
  if lo = 16 then 0 else if lo = 21 then 1 else if lo = 30 then 2 else 3

/-- The entry that a TLB of a core holds for an address: the L1 TLB of a slice, or the L2 TLB (R266). -/
def State.tlbIn (s : State) (core : Nat) (slice : Option Nat) (vd va : Nat) : Option TlbEntry :=
  s.ms.tlb.find? fun e => e.core == core && e.slice == slice && e.dev == vd && va / 2 ^ e.size == e.va / 2 ^ e.size

/-- The entry that a slice of a core finds for an address: its L1 TLB comes first (R266). -/
def State.tlbFind (s : State) (core slice vd va : Nat) : Option TlbEntry :=
  (s.tlbIn core (some slice) vd va).or (s.tlbIn core none vd va)

/-- Takes one element of a list away when the list is full: which one, the free choice tells (log entry 11). -/
def roomIn {α : Type} [DecidableEq α] (mates all : List α) (cap pick : Nat) : List α :=
  if mates.length < cap then all
  else
    match mates[pick % mates.length]? with
    | none => all
    | some v => all.filter fun x => x != v

/-- Puts an entry into a TLB of n entries (R266). -/
def MemSys.tlbAdd (m : MemSys) (e : TlbEntry) (n pick : Nat) : MemSys :=
  { m with tlb := e :: roomIn (m.tlb.filter fun x => x.core == e.core && x.slice == e.slice) m.tlb n pick }

/-- The answer of a walk for a slice of a core is held: the leaf in its L1 TLB of 64 entries and in the core's L2
TLB of 2,048, the non-leaf entries in the walker cache of the die (R266). -/
def State.keepWalk (s : State) (core slice vd va : Nat) (w : Walked) : State :=
  let e : TlbEntry :=
    { core := core, slice := none, dev := vd, va := va / 2 ^ w.lo * 2 ^ w.lo, size := w.lo, leaf := w.leaf }
  let m := (s.ms.tlbAdd e 2048 (Config.evicted s.freeCount 0)).tlbAdd { e with slice := some slice } 64
    (Config.evicted s.freeCount 1)
  let path := w.path.map fun p =>
    ({ die := coreDie core, dev := vd, level := p.1, index := va / 2 ^ p.2.1, entry := p.2.2 } : WalkEntry)
  { s with ms := { m with walker := path ++ m.walker.filter fun e => !path.contains e } }

/-- What a thread's access meets (R189): a translation, a fault of the leaf, or no entry, which holds the
thread until the page walk has answered. -/
inductive XRes where
  | ok (x : XOk)
  | fault (f : XFault)
  | miss
  deriving DecidableEq, Repr

/-- Translation of a thread's access through the TLBs of its slice and core. -/
def State.translate (s : State) (core slice vd va : Nat) (want : XWant) : XRes :=
  match s.tlbFind core slice vd va with
  | none => .miss
  | some e =>
    match s.checkLeaf vd va want e.leaf (leafLevel e.size) e.size with
    | .error f => .fault f
    | .ok x => .ok x

/-- XINFO of a translation fault (R270). -/
def xlateInfo (kind : XKind) (f : XFault) (va : Nat) : DWord :=
  let k := match kind with
    | .read => 0
    | .write => 1
    | .fetch => 2
    | .versioned => 3
  BitVec.ofNat 64 (k * 2 ^ 62 + f.level * 2 ^ 59 + f.reason * 2 ^ 56 + va % 2 ^ 56)

/-! ## Accesses at the point of coherence -/

/-- Clears the poison of every granule that a write of n bytes at a key covers whole (R249). -/
def clearPoison (poison : List Nat) (key n : Nat) : List Nat :=
  poison.filter fun g => !(decide (key ≤ 16 * g) && decide (16 * g + 16 ≤ key + n))

/-- A granule of n bytes at a key is poisoned (R249). -/
def MemSys.poisoned (m : MemSys) (key n : Nat) : Bool :=
  m.poison.any fun g => decide (key < 16 * g + 16) && decide (16 * g < key + n)

/-- The words, by number, whose value a change of memory has replaced, with their old values (R56). -/
def replaced (before after : Memory) (words : List Nat) : List (Nat × Word) :=
  (words.filter fun w => Memory.readNat before (4 * w) 4 != Memory.readNat after (4 * w) 4).map fun w =>
    (4 * w, BitVec.ofNat 32 (Memory.readNat before (4 * w) 4))

/-- The lines of the memory-side cache after a write of n bytes at a key: those that hold it are dirty; a line of host
memory is written through (R203, R259). -/
def dirtied (msc : List MscLine) (key n : Nat) : List MscLine :=
  msc.map fun x => if decide (key / 128 ≤ x.line ∧ x.line * 128 < key + n) && !isHost (128 * x.line) then { x with dirty := true } else x

/-- Writes bytes at their point of coherence (R277). -/
def State.pocWrite (s : State) (key : Nat) (l : List Byte) : State :=
  { s with ms := { s.ms with
    mem := Memory.write s.ms.mem key l
    past := replaced s.ms.mem (Memory.write s.ms.mem key l)
      ((List.range ((key + l.length + 3) / 4 - key / 4)).map fun k => key / 4 + k) ++ s.ms.past
    poison := clearPoison s.ms.poison key l.length
    msc := dirtied s.ms.msc key l.length } }

/-- The bytes at their point of coherence. -/
def State.pocRead (s : State) (key n : Nat) : List Byte := Memory.read s.ms.mem key n

/-- Splits n bytes at an address into pieces that lie within aligned 16-byte units. -/
def pieces : Nat → Nat → Nat → List (Nat × Nat)
  | 0, _, _ => []
  | fuel + 1, a, n =>
    if n = 0 then []
    else
      let k := min n (16 - a % 16)
      (a, k) :: pieces fuel (a + k) (n - k)

/-- The logical plane of a pod-global address (R389). -/
def logicalPlane (a : Nat) : Nat :=
  let v := bits a 27 7
  bits v 2 0 ^^^ bits v 5 3 ^^^ bits v 8 6 ^^^ bits v 11 9 ^^^ bits v 14 12 ^^^ bits v 17 15 ^^^ bits v 20 18

/-- The physical plane that PLMAP names for a logical plane (R390). -/
def State.planeOf (s : State) (l : Nat) : Nat := s.regField 0x70000008 (3 * l + 2) (3 * l)

/-- The physical plane is up (R390). -/
def State.planeUp (s : State) (p : Nat) : Bool := bit (s.regField 0x70000010 7 0) p

/-- A pending PLMAP write changes the logical plane's entry (R392). -/
def State.planeMoving (s : State) (l : Nat) : Bool :=
  match s.pending with
  | none => false
  | some w => bits w.value.toNat (3 * l + 2) (3 * l) != s.planeOf l

/-- Counts n requests that failed (R390). -/
def State.countFails (s : State) (n : Nat) : State :=
  if n = 0 then s else s.setReg 0x70000020 (s.reg 0x70000020 + BitVec.ofNat 64 n)

/-- The device's partition may not use the pod's fabric (R401). -/
def State.noQuota (s : State) (dev : Nat) : Bool := s.regField (partOff (s.vdPart dev) + 0x38) 63 48 == 0

/-- A partition's quota holds a message of one of its devices to a member (R401, R402): UAQ within the pod, UEQ
across pods. -/
def State.msgHeld (s : State) (dev dest : Nat) : Bool :=
  if s.regField 0x70000000 41 32 < dest then s.regField (partOff (s.vdPart dev) + 0x38) 47 32 == 0 else s.noQuota dev

/-- Notes a message that leaves the package. -/
def State.send (s : State) (m : Msg) : State := { s with outbox := m :: s.outbox }

/-- Sends a message for a device to a member, or holds it at the source (R402). -/
def State.sendTo (s : State) (dev dest : Nat) (m : Msg) : State :=
  if s.msgHeld dev dest then { s with heldMsgs := s.heldMsgs ++ [(dev, dest, m)] } else s.send m

/-- A request of an engine or the front end for a key would be held at the source (R392, R401). -/
def State.engineHeld (s : State) (dev key : Nat) : Bool :=
  isRemote key && (s.planeMoving (logicalPlane (key - 2 ^ 50)) || s.noQuota dev)

/-- A request for a key fails at once, on a dead plane (R391). -/
def State.planeDead (s : State) (key : Nat) : Bool :=
  isRemote key && !s.planeUp (s.planeOf (logicalPlane (key - 2 ^ 50)))

/-- A request of an engine, of the front end or of a write-back for a key fails: at once on a dead plane, else by its
deadline or because its home refuses it, as the free choice tells (R388, R391, log entry 21). -/
def State.requestFails (s : State) (key : Nat) : Bool :=
  s.planeDead key || (isRemote key && Config.requestFails s.freeCount (key / 128))

/-- A failed write for a key was performed at its home all the same (R391, R293). -/
def State.failedDone (s : State) (key : Nat) : Bool := !s.planeDead key && Config.remoteDone s.freeCount

/-- A failure of an access that an agent other than a thread makes: the virtual address, and the REASON
of R360. -/
structure AFault where
  va : Nat
  reason : Nat
  deriving DecidableEq, Repr

/-- Reads n bytes at a virtual address of a device, as an engine or the front end does (R288, R318). -/
def State.vread (s : State) (vd va n : Nat) (level : Level) : Except AFault (List Byte) :=
  (pieces (n / 16 + 2) va n).foldl (fun acc p =>
    match acc with
    | .error e => .error e
    | .ok l =>
      match s.walk vd p.1 ⟨.read, false, level⟩ with
      | .error f => .error ⟨p.1, f.reason⟩
      | .ok x =>
        if s.requestFails x.key then .error ⟨p.1, 8⟩
        else if s.ms.poisoned x.key p.2 then .error ⟨p.1, 6⟩
        else if isMgmt x.key then .ok (l ++ toBytes p.2 (s.mgmtBytes (some vd) level (x.key - mgmtBase) p.2))
        else .ok (l ++ s.pocRead x.key p.2)) (.ok [])

/-- Writes bytes at a virtual address of a device, piece by piece; the pieces before a fault stay
written (R359), and one whose request is held at the source is written later, with the record of its failure, if any
(R360, R392, R402). -/
def State.vwriteAs (s : State) (report : Option (Nat × Nat × Nat)) (vd va : Nat) (l : List Byte) (level : Level) :
    State × Option AFault :=
  (pieces (l.length / 16 + 2) va l.length).foldl (fun acc p =>
    match acc with
    | (s, some e) => (s, some e)
    | (s, none) =>
      match s.walk vd p.1 ⟨.write, false, level⟩ with
      | .error f => (s, some ⟨p.1, f.reason⟩)
      | .ok x =>
        let piece := (l.drop (p.1 - va)).take p.2
        if s.engineHeld vd x.key then ({ s with heldWrites := s.heldWrites ++ [⟨vd, x.key, piece, p.1, report⟩] }, none)
        else if s.requestFails x.key then
          (if s.failedDone x.key then s.pocWrite x.key piece else s, some ⟨p.1, 8⟩)
        else if isMgmt x.key then (s.mgmtStore (.vf vd) level (x.key - mgmtBase) piece.length (ofBytes piece), none)
        else (s.pocWrite x.key piece, none)) (s, none)

/-- Writes bytes at a virtual address of a device; a failure that comes later is counted, and posts no record. -/
def State.vwrite (s : State) (vd va : Nat) (l : List Byte) (level : Level) : State × Option AFault :=
  s.vwriteAs none vd va l level

/-- A request for a byte of a virtual range of a device would be held at the source (R392, R401). -/
def State.vheld (s : State) (vd va n : Nat) (kind : XKind) (level : Level) : Bool :=
  (pieces (n / 16 + 2) va n).any fun p =>
    match s.walk vd p.1 ⟨kind, false, level⟩ with
    | .error _ => false
    | .ok x => s.engineHeld vd x.key

/-- Counts the request that failed, when an agent's access did so (R390). -/
def State.countFault (s : State) (e : AFault) : State := s.countFails (if e.reason = 8 then 1 else 0)

/-- The n bytes at a physical address lie in one range of memory (R263). -/
def physMem (a n : Nat) : Bool :=
  (nearOrFar a && nearOrFar (a + n - 1) && !reservedPa a) || (isHost a && isHost (a + n - 1))

/-- Reads at an address that a queue's device names: virtual for a device's queue, physical for that of
the physical function (R324). -/
def State.qread (s : State) (dev a n : Nat) : Except AFault (List Byte) :=
  if dev = 1024 then
    if !physMem a n then .error ⟨a, 4⟩
    else if s.ms.poisoned a n then .error ⟨a, 6⟩
    else .ok (s.pocRead a n)
  else s.vread dev a n .s

/-- Writes at an address that a queue's device names, and what failed; `report` is the record of a later failure. -/
def State.qwriteAs (s : State) (report : Option (Nat × Nat × Nat)) (dev a : Nat) (l : List Byte) : State × Option AFault :=
  if dev = 1024 then (if physMem a l.length then (s.pocWrite a l, none) else (s, some ⟨a, 4⟩))
  else s.vwriteAs report dev a l .s

/-- Writes at an address that a queue's device names, and what failed. -/
def State.qwriteF (s : State) (dev a : Nat) (l : List Byte) : State × Option AFault := s.qwriteAs none dev a l

/-- Writes at an address that a queue's device names. -/
def State.qwrite (s : State) (dev a : Nat) (l : List Byte) : State :=
  match s.qwriteF dev a l with
  | (s, some e) => s.countFault e
  | (s, none) => s

/-! ## Records -/

/-- The key of a record comes before that of another (R429): TICK, then SOURCE. -/
def recordBefore (x y : List Byte) : Bool :=
  decide (field x 8 8 < field y 8 8 ∨ (field x 8 8 = field y 8 8 ∧ field x 4 2 < field y 4 2))

/-- Brings the newest of n + 1 records of a ring that software has not consumed, the first at index `rd`, to its place
in the order of their keys (R429, log entry 91). -/
def State.sinkRecord (s : State) (vd base log rd : Nat) : Nat → State
  | 0 => s
  | n + 1 =>
    let a := base + 32 * ((rd + n) % 2 ^ log)
    let b := base + 32 * ((rd + n + 1) % 2 ^ log)
    match s.vread vd a 32 .s, s.vread vd b 32 .s with
    | .ok x, .ok y =>
      if recordBefore y x then ((s.vwrite vd a y .s).1.vwrite vd b x .s).1.sinkRecord vd base log rd n else s
    | _, _ => s

/-- Posts a record to a device's event queue, or to its fault queue (R325, R405, R429), where the records that
software has not consumed stand in the order of their keys.  A record that finds the ring full, has no ring, or cannot
be written is counted as lost. -/
def State.post (s : State) (vd : Nat) (event : Bool) (kind sub source : Nat) (payload : List Byte) : State :=
  let base := s.regField (vdOff vd (if event then 0x30 else 0x28)) 55 0
  let log := if event then s.regField (vdOff vd 0x38) 15 8 else s.regField (vdOff vd 0x38) 7 0
  let ptr := vdOff vd (if event then 0x48 else 0x40)
  let wr := s.regField ptr 63 32
  let rd := s.regField ptr 31 0
  let lost := match s.lost.find? fun e => e.1 == vd && e.2.1 == event with
    | some e => e.2.2
    | none => 0
  let setLost := fun (s : State) n =>
    { s with lost := (vd, event, n) :: s.lost.filter fun e => !(e.1 == vd && e.2.1 == event) }
  if base = 0 then s
  else if 2 ^ log ≤ (wr + 2 ^ 32 - rd) % 2 ^ 32 then setLost s (lost + 1)
  else
    let record := [BitVec.ofNat 8 kind, BitVec.ofNat 8 sub] ++ toBytes 2 (min lost 0xFFFF) ++ toBytes 2 source ++
      [0, 0] ++ toBytes 8 s.tick ++ (payload ++ List.replicate 16 0).take 16
    match s.vwrite vd (base + 32 * (wr % 2 ^ log)) record .s with
    | (s', none) =>
      setLost ((s'.sinkRecord vd base log rd ((wr + 2 ^ 32 - rd) % 2 ^ 32)).setRegField ptr 63 32 ((wr + 1) % 2 ^ 32)) 0
    | (_, some e) => setLost (s.countFault e) (lost + 1)

/-- The source number of a slice (R430). -/
def sliceSource (core slice : Nat) : Nat :=
  4 * (96 * coreDie core + 12 * (core / 16 % 8) + core % 16) + slice

end Sys2Proof.Machine
end

