-- ==== Sys2Proof/Machine/Cache.lean ====
section
/-! DEFINITION. The L1 of a core and the memory-side cache: which lines they hold and which they give up (R29,
R197, R248, R256 to R262), and what releases, acquires and cache control do to an L1 (R202, R203, R259, R286). -/

namespace Sys2Proof.Machine

/-- The 128-byte line of a key (R256). -/
def lineOf (key : Nat) : Nat := key / 128

/-! ## Eviction classes -/

/-- The address hash of the line that holds a virtual address (R261). -/
def addrHash (va : Nat) : Nat :=
  let vl := bits va 55 7
  bits vl 11 0 ^^^ bits vl 23 12 ^^^ bits vl 35 24 ^^^ bits vl 47 36 ^^^ bits vl 48 48

/-- The class that a cache-policy register gives to a hash (R29). -/
def classOf (cp : Word) (h : Nat) : EvClass :=
  if h < bits cp.toNat 11 0 then .evictLast else if bits cp.toNat 23 12 < h then .evictFirst else .normal

/-- The line that makes room among some lines, the most recently used first (R197): the least recently used of
the first class that has one, evict-first before normal before evict-last. -/
def victim {α : Type} (cls : α → EvClass) (l : List α) : Option α :=
  [EvClass.evictFirst, .normal, .evictLast].findSome? fun c => (l.filter fun x => cls x == c).getLast?

/-! ## The memory-side cache -/

/-- The home slice of a physical address (R262). -/
def homeSlice (pa : Nat) : Nat :=
  let pl := bits pa 49 7
  (bits pl 15 0 ^^^ bits pl 31 16 ^^^ bits pl 42 32) % 384

/-- The home slice holds a line. -/
def MemSys.mscHolds (m : MemSys) (line : Nat) : Bool := m.msc.any fun x => x.line == line

/-- Two lines share a set of one home slice. -/
def mscMates (a b : Nat) : Bool := homeSlice (128 * a) == homeSlice (128 * b) && Config.mscSet a % 4096 == Config.mscSet b % 4096

/-- A line is looked up in its home slice and filled there (R197, R262): a hit takes the class of the access; a
miss takes a free one of the 16 ways that a mask allows, or that of the victim among their lines. -/
def MemSys.mscUse (m : MemSys) (mask : Nat) (cls : EvClass) (line : Nat) : MemSys :=
  let others := m.msc.filter fun x => x.line != line
  match m.msc.find? fun x => x.line == line with
  | some x => { m with msc := { x with cls := cls } :: others }
  | none =>
    let mates := m.msc.filter fun x => mscMates x.line line
    match (List.range 16).find? fun w => bit mask w && !(mates.any fun x => x.way == w) with
    | some w => { m with msc := ⟨line, w, cls, false⟩ :: m.msc }
    | none =>
      match victim MscLine.cls (mates.filter fun x => bit mask x.way) with
      | none => m
      | some v => { m with msc := ⟨line, v.way, cls, false⟩ :: m.msc.filter fun x => x.line != v.line }

/-- The lines that n bytes at a key touch. -/
def linesOf (key n : Nat) : List Nat := (List.range (lineOf (key + n - 1) + 1 - lineOf key)).map fun k => lineOf key + k

/-- An access of n bytes at a key is performed at its home slices, with the ways that its fills may take (R262,
R402); the memory-side cache caches no pod-remote line and no management register (R259). -/
def State.homeUse (s : State) (mask : Nat) (cls : EvClass) (key n : Nat) : State :=
  if isRemote key || isMgmt key then s
  else { s with ms := (linesOf key n).foldl (fun m l => m.mscUse mask cls l) s.ms }

/-! ## The bytes of an L1 -/

/-- The valid byte that a core's L1 holds for a key (R257). -/
def MemSys.l1Find (m : MemSys) (core key : Nat) : Option L1Byte :=
  m.l1.find? fun b => b.core == core && b.key == key

/-- The poisoned granules of memory after some bytes have been written back (R249): a granule written whole loses
its poison, and a poisoned byte takes its poison along. -/
def poisonAfter (poison : List Nat) (l : List L1Byte) : List Nat :=
  let bad := ((l.filter fun b => b.bad).map fun b => b.key / 16).eraseDups
  bad ++ poison.filter fun g => !bad.contains g && !((List.range 16).all fun k => l.any fun b => b.key == 16 * g + k)

/-- Writes the dirty bytes that satisfy a test back to their point of coherence; they stay valid and
clean (R258, R286). -/
def MemSys.writeBack (m : MemSys) (p : L1Byte → Bool) : MemSys :=
  { m with
    mem := m.l1.foldl (fun mem b => if b.dirty && p b then Memory.set mem b.key b.val else mem) m.mem
    past := replaced m.mem (m.l1.foldl (fun mem b => if b.dirty && p b then Memory.set mem b.key b.val else mem) m.mem)
      ((m.l1.filter fun b => b.dirty && p b).map fun b => b.key / 4).eraseDups ++ m.past
    poison := poisonAfter m.poison (m.l1.filter fun b => b.dirty && p b)
    msc := (m.l1.filter fun b => b.dirty && p b).foldl (fun l b => dirtied l b.key 1) m.msc
    l1 := m.l1.map fun b => if b.dirty && p b then { b with dirty := false } else b }

/-- Removes the bytes that satisfy a test. -/
def MemSys.drop (m : MemSys) (p : L1Byte → Bool) : MemSys := { m with l1 := m.l1.filter fun b => !p b }

/-- Writes back and then removes the bytes that satisfy a test: an eviction (R258). -/
def MemSys.evict (m : MemSys) (p : L1Byte → Bool) : MemSys := (m.writeBack p).drop p

/-! ## The lines of an L1 -/

/-- How an access uses a core's L1: for which device, and with which eviction class (R197, R256). -/
structure Use where
  core : Nat
  dev : Nat
  cls : EvClass
  deriving DecidableEq, Repr

/-- The ways of a core's L1 that take new lines: its CACHE banks that no CARVE takes away (R250, R253). -/
def MemSys.ways (m : MemSys) (core : Nat) : List Nat :=
  (List.range 32).filter fun k => (m.bank core k).mode == .cache && !(m.bank core k).draining

/-- A line has a valid byte in a core's L1. -/
def MemSys.hasLine (m : MemSys) (core line : Nat) : Bool := m.l1.any fun b => b.core == core && lineOf b.key == line

/-- Notes that a core's L1 holds a line in a bank, as the most recently used. -/
def MemSys.note (m : MemSys) (u : Use) (line bank : Nat) : MemSys :=
  { m with lines := ⟨u.core, u.dev, line, bank, u.cls⟩ :: m.lines.filter fun x => !(x.core == u.core && x.line == line) }

/-- An access that hits a line of a core's L1 gives it its class and makes it the most recently used (R197). -/
def MemSys.touch (m : MemSys) (u : Use) (line : Nat) : MemSys :=
  match m.lines.find? fun x => x.core == u.core && x.line == line with
  | some x => m.note u line x.bank
  | none => m

/-- The lines of a core's L1 that share the set of a line. -/
def MemSys.setMates (m : MemSys) (core line : Nat) : List L1Line :=
  m.lines.filter fun x => m.hasLine core x.line && x.core == core && Config.l1Set x.line % 512 == Config.l1Set line % 512

/-- The way that a line has in a core's L1, or a free one of its set; none when every way is taken (R256). -/
def MemSys.wayFor (m : MemSys) (core line : Nat) : Option Nat :=
  match m.lines.find? fun x => x.core == core && x.line == line && m.hasLine core line with
  | some x => some x.bank
  | none => (m.ways core).find? fun k => !((m.setMates core line).any fun x => x.bank == k)

/-- The line that leaves a core's L1 to make room for another (R197, R258). -/
def MemSys.leaving (m : MemSys) (core line : Nat) : Option L1Line :=
  match m.wayFor core line with
  | some _ => none
  | none => victim L1Line.cls ((m.setMates core line).filter fun x => (m.ways core).contains x.bank)

/-- The bytes that leave a core's L1 when a line is allocated for a device: those of the victim, and those that another
device has of the line (R257, R258). -/
def MemSys.gives (m : MemSys) (u : Use) (line : Nat) (b : L1Byte) : Bool :=
  b.core == u.core && ((lineOf b.key == line && b.dev != u.dev) || ((m.leaving u.core line).any fun v => lineOf b.key == v.line))

/-- Gives a line a way of a core's L1 (R197, R256): the one that it has, a free way of its set, or that of the victim,
whose bytes leave with it. -/
def MemSys.place (m : MemSys) (u : Use) (line : Nat) : MemSys :=
  let m := { m with lines := m.lines.filter fun x => m.hasLine x.core x.line }
  match m.wayFor u.core line with
  | some k => m.note u line k
  | none =>
    match m.leaving u.core line with
    | none => m
    | some v => (m.drop fun b => b.core == u.core && lineOf b.key == v.line && !b.dirty).note u line v.bank

/-- Allocates a line for a device: the bytes that another device has of it leave first (R257).  What leaves has been
written back (`State.makeRoom`). -/
def MemSys.alloc (m : MemSys) (u : Use) (line : Nat) : MemSys :=
  (m.drop fun b => b.core == u.core && lineOf b.key == line && b.dev != u.dev && !b.dirty).place u line

/-- Fills the bytes of a line that are not valid from its home slice (R258). -/
def MemSys.fill (m : MemSys) (u : Use) (line : Nat) : MemSys :=
  let m := m.alloc u line
  let missing := (List.range 128).filter fun k => (m.l1Find u.core (128 * line + k)).isNone
  { m with l1 := m.l1 ++ missing.map fun k =>
      { core := u.core, dev := u.dev, key := 128 * line + k, val := Memory.get m.mem (128 * line + k)
        dirty := false, since := 0, bad := m.poison.contains ((128 * line + k) / 16) } }

/-- All n bytes at a key are valid in the core's L1. -/
def MemSys.hit (m : MemSys) (core key n : Nat) : Bool :=
  (List.range n).all fun k => (m.l1Find core (key + k)).isSome

/-- The n bytes at a key, from the L1. -/
def MemSys.l1Bytes (m : MemSys) (core key n : Nat) : List Byte :=
  (List.range n).map fun k =>
    match m.l1Find core (key + k) with
    | some b => b.val
    | none => Memory.get m.mem (key + k)

/-- A granule of n bytes at a key is poisoned in a core's L1 (R249). -/
def MemSys.l1Bad (m : MemSys) (core key n : Nat) : Bool :=
  m.l1.any fun b => b.core == core && b.bad && decide (key / 16 ≤ b.key / 16) && decide (b.key / 16 ≤ (key + n - 1) / 16)

/-- A load of n bytes of one line through the L1 (R258): the bytes and the memory system after a fill. -/
def MemSys.load (m : MemSys) (u : Use) (key n : Nat) : List Byte × MemSys :=
  let m := m.alloc u (lineOf key)
  let m := if m.hit u.core key n then m else m.fill u (lineOf key)
  (m.l1Bytes u.core key n, m)

/-- The byte that a store of n bytes at a key leaves in the L1 at one key: it has been dirty since the byte there
became dirty (R286), and keeps the poison of a granule that the store does not write whole (R249). -/
def MemSys.stored (m : MemSys) (u : Use) (key n tick k : Nat) (v : Byte) : L1Byte :=
  let old := m.l1Find u.core k
  let whole := decide (key ≤ k / 16 * 16) && decide (k / 16 * 16 + 16 ≤ key + n)
  { core := u.core, dev := u.dev, key := k, val := v, dirty := true
    since := match old with
      | some b => if b.dirty then b.since else tick
      | none => tick
    bad := !whole && m.l1Bad u.core k 1 }

/-- A store of bytes of one line into the L1: only the stored bytes become valid and dirty (R258). -/
def MemSys.store (m : MemSys) (u : Use) (key tick : Nat) (l : List Byte) : MemSys :=
  let m := m.alloc u (lineOf key)
  let kept := m.l1.filter fun b => !(b.core == u.core && decide (key ≤ b.key) && decide (b.key < key + l.length))
  { m with l1 := kept ++ l.zipIdx.map fun e => m.stored u key l.length tick (key + e.2) e.1 }

/-! ## Releases, acquires and cache control -/

/-- The scope reaches beyond the core's L1 (R259). -/
def Scope.wide : Scope → Bool
  | .grp | .team => false
  | .clu | .dev | .pod | .sys => true

/-- A release at a scope by a thread of a core and device (R259). -/
def MemSys.release (m : MemSys) (core dev : Nat) (sc : Scope) : MemSys :=
  if Scope.wide sc then m.writeBack fun b => b.core == core && b.dev == dev else m

/-- An acquire at a scope (R259): clean bytes become not valid. -/
def MemSys.acquire (m : MemSys) (core dev : Nat) (sc : Scope) : MemSys :=
  if Scope.wide sc then m.drop fun b => b.core == core && b.dev == dev && !b.dirty else m

/-- WB, INV and WBINV at SYS act on the memory-side cache too (R203): its dirty bytes go on to the memory that holds the
line, a clean line is dropped, and WBINV removes it. -/
def MemSys.mscOp (m : MemSys) (line : Nat) (back inv : Bool) : MemSys :=
  { m with msc := (m.msc.map fun x => if x.line == line && back then { x with dirty := false } else x).filter fun x =>
      !(inv && x.line == line && !x.dirty) }

/-- WB, INV and WBINV of a line at a scope (R202, R203); a line that they hit takes their class (R197). -/
def MemSys.cacheOp (m : MemSys) (u : Use) (key : Nat) (sc : Scope) (back inv : Bool) : MemSys :=
  let mine := fun b : L1Byte => b.core == u.core && lineOf b.key == lineOf key
  let far := fun m : MemSys => if sc == .sys then m.mscOp (lineOf key) back inv else m
  let m := m.touch u (lineOf key)
  if !Scope.wide sc then m
  else if back && inv then far (m.evict mine)
  else if back then far (m.writeBack mine)
  else if inv then far (m.drop fun b => mine b && !b.dirty)
  else m

/-- Replaces the memory system. -/
def State.setMs (s : State) (m : MemSys) : State := { s with ms := m }

/-- Dirty bytes of pod-remote lines of a device wait in a core's L1 for a plane or a quota (R392, R402). -/
def State.backHeld (s : State) (core dev : Nat) : Bool :=
  s.ms.l1.any fun b => b.core == core && b.dev == dev && b.dirty && s.engineHeld dev b.key

/-- Writes the dirty bytes that satisfy a test back, over the fabric those of pod-remote lines (R389 to R392): a
request that is held keeps its bytes dirty, and one that fails without having been performed leaves nothing of its
bytes (log entry 70). -/
def State.pushBack (s : State) (p : L1Byte → Bool) : State :=
  let fails := fun b : L1Byte => b.dirty && p b && !s.engineHeld b.dev b.key && s.requestFails b.key
  let n := ((s.ms.l1.filter fails).map fun b => lineOf b.key).eraseDups.length
  let m := s.ms.drop fun b => fails b && !s.failedDone b.key
  (s.countFails n).setMs (m.writeBack fun b => p b && !s.engineHeld b.dev b.key)

/-- Removes the bytes that satisfy a test, their dirty ones written back; those whose request is held stay (R257,
R392). -/
def State.evictBack (s : State) (p : L1Byte → Bool) : State :=
  let s := s.pushBack p
  s.setMs (s.ms.drop fun b => p b && !b.dirty)

/-- Makes room in a core's L1 for a line of a device: what leaves for it is written back (R257, R258). -/
def State.makeRoom (s : State) (u : Use) (line : Nat) : State := s.evictBack (s.ms.gives u line)

/-- A byte that must leave a core's L1 to make room for a line waits for a plane or a quota (R392, R402). -/
def State.roomHeld (s : State) (u : Use) (line : Nat) : Bool :=
  s.ms.l1.any fun b => b.dirty && s.ms.gives u line b && s.engineHeld b.dev b.key

/-- A release at a scope by a thread of a core and device, as the fabric lets its write-backs go (R259). -/
def State.releaseFrom (s : State) (core dev : Nat) (sc : Scope) : State :=
  if Scope.wide sc then s.pushBack fun b => b.core == core && b.dev == dev else s

end Sys2Proof.Machine
end

