-- ==== Sys2Proof/Machine/Ops.lean ====
section
/-! DEFINITION. The named operations over threads, registers, teams and launches; the end of an
instruction (R48, R52, R136, R432); taking a trap and returning from one (R376 to R381); the Mortar
token (R231, R337). -/

namespace Sys2Proof

/-! ## The modifier chain -/

/-- ZERO of the prefix (R58). -/
def Mods.zero (m : Mods) : Bool :=
  match m.pre with
  | none => false
  | some p => p.zero

/-- SAT of the prefix (R58). -/
def Mods.sat (m : Mods) : Bool :=
  match m.pre with
  | none => false
  | some p => p.sat

/-- How many words the instruction takes in its clause. -/
def Mods.words (m : Mods) : Nat := m.count + 1

/-- The hint's subfunction, 0 when there is none (R61). -/
def Mods.sub (m : Mods) : Nat :=
  match m.hint with
  | none => 0
  | some h => h.sub.val

/-- The hint's argument. -/
def Mods.arg (m : Mods) : Nat :=
  match m.hint with
  | none => 0
  | some h => h.arg.toNat

end Sys2Proof

namespace Sys2Proof.Machine

/-! ## Finding and replacing threads, teams and launches -/

/-- A thread by its name. -/
def State.thread? (s : State) (id : Nat) : Option Thread := s.threads.find? fun t => t.id == id

/-- A resident team by its name. -/
def State.team? (s : State) (id : Nat) : Option Team := s.teams.find? fun t => t.id == id

/-- A launch by its name. -/
def State.launch? (s : State) (id : Nat) : Option Launch := s.launches.find? fun l => l.id == id

/-- Replaces a thread by one of the same name. -/
def State.setThread (s : State) (t : Thread) : State :=
  { s with threads := replaceBy (fun x => x.id == t.id) t s.threads }

/-- Replaces a team by one of the same name. -/
def State.setTeam (s : State) (t : Team) : State :=
  { s with teams := replaceBy (fun x => x.id == t.id) t s.teams }

/-- Replaces a launch by one of the same name. -/
def State.setLaunch (s : State) (l : Launch) : State :=
  { s with launches := replaceBy (fun x => x.id == l.id) l s.launches }

/-- A thread with its team and its launch. -/
structure Ctx where
  t : Thread
  tm : Team
  l : Launch
  deriving DecidableEq, Repr

/-- A thread by its name, with its team and its launch. -/
def State.ctx? (s : State) (id : Nat) : Option Ctx :=
  match s.thread? id with
  | none => none
  | some t =>
    match s.team? t.team with
    | none => none
    | some tm =>
      match s.launch? tm.launch with
      | none => none
      | some l => some ⟨t, tm, l⟩

/-- The thread that executes now: the first member of the issue group that has not executed. -/
def State.cur? (s : State) : Option Ctx :=
  match s.issuing.members with
  | [] => none
  | id :: _ => s.ctx? id

/-- Runs a thread's instruction: f on the executing thread, or the fault that there is none. -/
def State.run (s : State) (f : Ctx → State) : Host.Outcome State Fault Refusal :=
  match s.cur? with
  | none => .fault .noIssuingThread
  | some c => .next (f c)

/-- The virtual device of a thread's launch. -/
def Ctx.dev (c : Ctx) : Nat := c.l.dev

/-- The linear index of a thread within its launch (R327). -/
def Team.linear (tm : Team) (grp lane : Nat) : Nat :=
  tm.tbase + ((tm.cluIdx * tm.nteam + tm.teamIdx) * tm.ngrp + grp) * 32 + lane

/-- The linear index of the executing thread. -/
def Ctx.linear (c : Ctx) : Nat := c.tm.linear c.t.grp c.t.lane.val

/-- The global group index of a thread (R327). -/
def Ctx.group (c : Ctx) : Nat := c.linear / 32

/-! ## Registers and predicates -/

/-- The value a thread reads from a register: the value held, or a lane-class result that is due (R51),
or one that is not yet due and is read early (R53, log entry 4). -/
def Thread.rd (t : Thread) (tick free r : Nat) : Word :=
  t.pend.foldl (fun v p =>
    match p.regs.lookup r with
    | none => v
    | some x => if decide (p.due ≤ tick) || Config.readsEarly free r p.due then x else v) (t.regs[r]?.getD 0)

/-- A register of the executing thread (R53). -/
def State.reg32 (s : State) (t : Thread) (r : Reg) : Word := t.rd s.tick s.freeCount r.val

/-- A register pair (R16). -/
def State.reg64 (s : State) (t : Thread) (r : Reg) : DWord :=
  pair64 (t.rd s.tick s.freeCount r.val) (t.rd s.tick s.freeCount (r.val + 1))

/-- n registers from r upwards as one value, the lowest register in the low bits. -/
def State.regN (s : State) (t : Thread) (r n : Nat) : Nat :=
  (List.range n).foldl (fun v k => v + (t.rd s.tick s.freeCount (r + k)).toNat * 2 ^ (32 * k)) 0

/-- The value a thread reads from a predicate; p0 reads true (R18, R53). -/
def Thread.rdPred (t : Thread) (tick free : Nat) (p : Pred) : Bool :=
  if p = 0 then true
  else
    t.pend.foldl (fun v w =>
      match w.preds.lookup p with
      | none => v
      | some x => if decide (w.due ≤ tick) || Config.readsEarly free (128 + p.val) w.due then x else v)
      (t.preds.getLsbD p.val)

/-- A predicate of the executing thread. -/
def State.pred (s : State) (t : Thread) (p : Pred) : Bool := t.rdPred s.tick s.freeCount p

/-- The thread is predicated on (R58, R59). -/
def State.on (s : State) (t : Thread) (m : Mods) : Bool :=
  match m.pre with
  | none => true
  | some p => s.pred t p.pred != p.neg

/-- Writes one register at once; a full write clears its poison (R249).  A lane-class result that is not yet
written is written when it is due all the same (R51). -/
def Thread.put (t : Thread) (r : Nat) (v : Word) : Thread :=
  { t with
    regs := if h : r < 128 then t.regs.set r v else t.regs
    poison := t.poison &&& ~~~(1#128 <<< r) }

/-- Writes several registers at once. -/
def Thread.puts (t : Thread) (l : List (Nat × Word)) : Thread := l.foldl (fun t e => t.put e.1 e.2) t

/-- Writes a predicate at once; a write of p0 is discarded (R18). -/
def Thread.putPred (t : Thread) (p : Pred) (v : Bool) : Thread :=
  if p = 0 then t
  else
    let b : BitVec 8 := 1#8 <<< p.val
    { t with preds := if v then t.preds ||| b else t.preds &&& ~~~b }

/-- The delay of a lane-class result (R51, R348): 4 cycles, on an Eddy core 4 Eddy cycles. -/
def Thread.laneDelay (t : Thread) : Nat :=
  match t.place with
  | .home => 4
  | _ => 2

/-- Adds a lane-class result that is written later, with the FPCSR bits it sets (R51, R110). -/
def Thread.later (t : Thread) (tick : Nat) (regs : List (Nat × Word)) (preds : List (Pred × Bool))
    (csr : Word) : Thread :=
  { t with pend := t.pend ++ [⟨tick + t.laneDelay, regs, preds.filter fun e => e.1 != 0, csr⟩] }

/-- Writes the lane-class results that are due, in issue order (R51). -/
def Thread.land (t : Thread) (tick : Nat) : Thread :=
  let due := t.pend.filter fun p => decide (p.due ≤ tick)
  let rest := t.pend.filter fun p => !decide (p.due ≤ tick)
  let t' := { t with pend := [] }
  let t' := due.foldl (fun t p =>
    p.preds.foldl (fun t e => t.putPred e.1 e.2) { t.puts p.regs with fpcsr := t.fpcsr ||| p.csr }) t'
  { t' with pend := rest }

/-- Writes every lane-class result that is still to be written. -/
def Thread.landAll (t : Thread) : Thread := t.land (t.pend.foldl (fun n p => max n p.due) 0)

/-- FPCSR as the thread reads it (R53, R110). -/
def Thread.rdCsr (t : Thread) (tick free : Nat) : Word :=
  t.pend.foldl (fun v p =>
    if decide (p.due ≤ tick) || Config.readsEarly free 136 p.due then v ||| p.csr else v) t.fpcsr

/-- FPCSR of the executing thread. -/
def State.csr (s : State) (t : Thread) : Word := t.rdCsr s.tick s.freeCount

/-- p7 to p0 as a byte; bit 0 reads 1. -/
def State.predByte (s : State) (t : Thread) : BitVec 8 :=
  (List.finRange 8).foldl (fun v (p : Fin 8) => if s.pred t p then v ||| (1#8 <<< p.val) else v) 0

/-- The flags f11 to f0 that are set (R19). -/
def Thread.flagBits (t : Thread) : BitVec 12 :=
  (List.finRange 12).foldl (fun v (k : Fin 12) => if t.flags[k.val] ≠ 0 then v ||| (1#12 <<< k.val) else v) 0

/-! ## Flags of a clause -/

/-- LEN of a header (R49). -/
def hdrLen (h : Word) : Nat := bits h.toNat 11 9

/-- The flags that a long-class operation of the clause raises (R19, R49). -/
def hdrSets (h : Word) : BitVec 12 :=
  let one := fun n : Nat => if n < 12 then 1#12 <<< n else 0
  one (bits h.toNat 19 16) ||| one (bits h.toNat 15 12)

/-- The header fails the check of R50. -/
def hdrBad (h : Word) : Bool :=
  let a := bits h.toNat 19 16
  let b := bits h.toNat 15 12
  bit h.toNat 0 || decide (12 ≤ a ∧ a ≤ 14) || decide (12 ≤ b ∧ b ≤ 14)

/-- Raises the flags of a mask by one each. -/
def Thread.raise (t : Thread) (mask : BitVec 12) : Thread :=
  { t with flags := Vector.ofFn fun k : Fin 12 => t.flags[k.val] + b2n (mask.getLsbD k.val) }

/-- Lowers the flags of a mask by one each. -/
def Thread.lower (t : Thread) (mask : BitVec 12) : Thread :=
  { t with flags := Vector.ofFn fun k : Fin 12 => t.flags[k.val] - b2n (mask.getLsbD k.val) }

/-- Raising the flags of a mask keeps every count at most 63 (R19). -/
def Thread.flagRoom (t : Thread) (mask : BitVec 12) : Bool :=
  (List.finRange 12).all fun k : Fin 12 => !mask.getLsbD k.val || decide (t.flags[k.val] < 63)

/-! ## Where the thread goes next -/

/-- The header that follows the clause in memory (R48). -/
def Thread.nextHeader (t : Thread) : VAddr := t.cb + BitVec.ofNat 56 (4 * (hdrLen t.hdr + 2))

/-- Moves the thread to a clause header. -/
def Thread.jump (t : Thread) (target : VAddr) : Thread :=
  let a := target &&& ~~~3#56
  { t with pc := a, cb := a, entered := false }

/-- The end of a clause without a taken transfer: loop-back of LC0, then of LC1, else the next header
(R136). -/
def Thread.clauseEnd (t : Thread) : Thread :=
  let step0 := t.flow.lc0.count ≠ 0 ∧ t.cb = t.flow.lc0.stop
  let lc0 := if step0 then { t.flow.lc0 with count := t.flow.lc0.count - 1 } else t.flow.lc0
  if step0 ∧ lc0.count ≠ 0 then { t with flow := { t.flow with lc0 := lc0 } }.jump lc0.start
  else
    let step1 := t.flow.lc1.count ≠ 0 ∧ t.cb = t.flow.lc1.stop
    let lc1 := if step1 then { t.flow.lc1 with count := t.flow.lc1.count - 1 } else t.flow.lc1
    let t' := { t with flow := { t.flow with lc0 := lc0, lc1 := lc1 } }
    if step1 ∧ lc1.count ≠ 0 then t'.jump lc1.start else t'.jump t.nextHeader

/-- The thread past an instruction of n words: the next word of the clause, or the end of the clause. -/
def Thread.past (t : Thread) (n : Nat) : Thread :=
  let a := t.pc + BitVec.ofNat 56 (4 * n)
  if a = t.nextHeader then t.clauseEnd else { t with pc := a }

/-! ## Trap causes -/

/-- The trap causes (R376). -/
inductive Cause where
  | illegalClause | illegalInsn | regRange | priv | sregUndef | addrNoncanon | misaligned
  | scratchBounds | privateBounds | xlateFault | memError | remoteFail | fpInvalid | fpDivzero
  | fpOverflow | retEmpty | rstackOver | convMember | convMismatch | convBusy | mmaHeader | barState
  | fifoBank | versionPage | versionTimeout | versionAbsent | versionPin | pinLimit | notWorker
  | regionState | tokenState | notLeader | engineDesc | tileRecord | binRange | userTrap | brk
  | tretState
  deriving DecidableEq, Repr

/-- The code of a cause (R376). -/
def Cause.code : Cause → Nat
  | .illegalClause => 0x01
  | .illegalInsn => 0x02
  | .regRange => 0x03
  | .priv => 0x04
  | .sregUndef => 0x05
  | .addrNoncanon => 0x06
  | .misaligned => 0x07
  | .scratchBounds => 0x08
  | .privateBounds => 0x09
  | .xlateFault => 0x0A
  | .memError => 0x0B
  | .remoteFail => 0x0C
  | .fpInvalid => 0x0D
  | .fpDivzero => 0x0E
  | .fpOverflow => 0x0F
  | .retEmpty => 0x10
  | .rstackOver => 0x11
  | .convMember => 0x12
  | .convMismatch => 0x13
  | .convBusy => 0x14
  | .mmaHeader => 0x15
  | .barState => 0x16
  | .fifoBank => 0x17
  | .versionPage => 0x18
  | .versionTimeout => 0x19
  | .versionAbsent => 0x1A
  | .versionPin => 0x1B
  | .pinLimit => 0x1C
  | .notWorker => 0x1D
  | .regionState => 0x1E
  | .tokenState => 0x1F
  | .notLeader => 0x20
  | .engineDesc => 0x21
  | .tileRecord => 0x22
  | .binRange => 0x23
  | .userTrap => 0x24
  | .brk => 0x25
  | .tretState => 0x26

/-- Class U: the cause may go to the user handler (R376). -/
def Cause.user : Cause → Bool
  | .addrNoncanon | .misaligned | .scratchBounds | .privateBounds | .fpInvalid | .fpDivzero
  | .fpOverflow | .retEmpty | .convMember | .convMismatch | .convBusy | .mmaHeader | .barState
  | .fifoBank | .versionTimeout | .versionAbsent | .versionPin | .pinLimit | .regionState
  | .tokenState | .notLeader | .engineDesc | .tileRecord | .binRange | .userTrap => true
  | .illegalClause | .illegalInsn | .regRange | .priv | .sregUndef | .xlateFault | .memError
  | .remoteFail | .rstackOver | .versionPage | .notWorker | .brk | .tretState => false

/-- The code of a privilege level (R38, R375). -/
def Level.code : Level → Nat
  | .u => 0
  | .s => 1
  | .f => 2

/-- The level that FROM of XCAUSE names. -/
def Level.ofCode (n : Nat) : Level := if n = 0 then .u else if n = 1 then .s else .f

/-! ## The Mortar token -/

/-- The threads of a launch that have not exited, resident or saved, with their teams. -/
def State.liveThreads (s : State) (launch : Nat) : List (Team × Thread) :=
  (s.threads.filterMap fun t =>
    match s.team? t.team with
    | none => none
    | some m => if m.launch = launch then some (m, t) else none) ++
  (s.saved.filter fun v => v.team.launch == launch && !v.frozen).flatMap fun v => v.threads.map fun t => (v.team, t)

/-- The global group index of a thread of a team. -/
def groupOf (p : Team × Thread) : Nat := p.1.linear p.2.grp p.2.lane.val / 32

/-- The group that follows g among the live groups: the next higher one, or the lowest (R231). -/
def nextGroup (live : List Nat) (g : Nat) : Nat :=
  let above := live.filter fun x => decide (g < x)
  match above.min? with
  | some x => x
  | none => live.min?.getD g

/-- Clears the token marks of a group's threads, on the token's arrival (R231). -/
def State.clearMarks (s : State) (launch g : Nat) : State :=
  { s with
    threads := s.threads.map fun t =>
      match s.team? t.team with
      | none => t
      | some m => if m.launch = launch ∧ groupOf (m, t) = g then { t with passed := false } else t
    saved := s.saved.map fun v =>
      if v.team.launch = launch then
        { v with threads := v.threads.map fun t => if groupOf (v.team, t) = g then { t with passed := false } else t }
      else v }

/-- The cores on which a group of a launch stands: those of the resident teams that it belongs to, also when its
last thread has exited. -/
def State.groupCores (s : State) (launch g : Nat) : List Nat :=
  ((s.teams.filter fun m => m.launch == launch && decide (m.linear 0 0 / 32 ≤ g ∧ g < m.linear 0 0 / 32 + m.ngrp)).map
    fun m => m.core).eraseDups

/-- A thread of a group of a launch has an operation outstanding: its release waits for it (R231, R281). -/
def State.groupBusy (s : State) (launch g : Nat) : Bool :=
  s.threads.any fun t => s.ops.any (fun o => o.th == t.id) &&
    (match s.team? t.team with
     | none => false
     | some m => m.launch == launch && groupOf (m, t) == g)

/-- A move of the token (R231): a DEV-scope release by the group it leaves and an acquire by the group that
receives it. -/
def State.tokenMove (s : State) (l : Launch) (g : Nat) : State :=
  let s := (s.groupCores l.id l.holder).foldl (fun s core => s.releaseFrom core l.dev .dev) s
  s.setMs ((s.groupCores l.id g).foldl (fun m core => m.acquire core l.dev .dev) s.ms)

/-- Moves the token on while the holding group is skipped, or every one of its live threads has passed
(R231, R337), its operations have completed, and nothing holds the write-backs of its release (R392, R402); at most one
round of the groups. -/
def State.tokenSettle (s : State) (launch : Nat) : Nat → State
  | 0 => s
  | fuel + 1 =>
    match s.launch? launch with
    | none => s
    | some l =>
      let live := s.liveThreads launch
      let mine := live.filter fun p => groupOf p == l.holder
      let skip := decide (l.holder ∈ l.skipped)
      if live.isEmpty || s.groupBusy launch l.holder || (s.groupCores launch l.holder).any (fun k => s.backHeld k l.dev) then s
      else if skip || mine.all fun p => p.2.passed then
        let g := nextGroup (live.map groupOf) l.holder
        let l' := { l with
          holder := g
          moves := l.moves + 1
          skips := if skip && !mine.isEmpty then l.skips + 1 else l.skips }
        let s' := ((s.tokenMove l g).setLaunch l').clearMarks launch g
        let s' := if skip && !mine.isEmpty then
          s'.post l.dev true 0x07 0 0x0803 (toBytes 8 l.holder ++ toBytes 8 l.moves.toNat) else s'
        if g = l.holder then s' else s'.tokenSettle launch fuel
      else s

/-- Settles the token of a launch. -/
def State.settle (s : State) (launch : Nat) : State := s.tokenSettle launch ((s.liveThreads launch).length + 1)

/-- Settles the tokens that operations or held write-backs have kept; a launch all of whose groups are skipped has none to
move to (log entry 99). -/
def State.settleAll (s : State) : State :=
  s.launches.foldl (fun s l =>
    if l.det && (s.liveThreads l.id).any fun p => !l.skipped.contains (groupOf p) then s.settle l.id else s) s

/-! ## Taking a trap -/

/-- The bit of a lane. -/
def laneBit (l : Fin 32) : Word := 1#32 <<< l.val

/-- The frame in force for the level at which a thread runs (R377). -/
def Thread.frame (t : Thread) : Frame :=
  match t.level with
  | .u => t.frameU
  | .s | .f => t.frameS

/-- Replaces the frame of the level at which a thread runs. -/
def Thread.setFrame (t : Thread) (f : Frame) : Thread :=
  match t.level with
  | .u => { t with frameU := f }
  | .s | .f => { t with frameS := f }

/-- The frame of a level (R377). -/
def Thread.frameAt (t : Thread) (lvl : Level) : Frame :=
  match lvl with
  | .u => t.frameU
  | .s | .f => t.frameS

/-- Replaces the frame of a level. -/
def Thread.setFrameAt (t : Thread) (lvl : Level) (f : Frame) : Thread :=
  match lvl with
  | .u => { t with frameU := f }
  | .s | .f => { t with frameS := f }

/-- A thread trapped with a code at the instruction that another one issued with it (R380): the level of its
handler. -/
def Thread.trappedWith (x t : Thread) (code : Nat) : Option Level :=
  match x.trapAt with
  | some (n, k, lvl) => if n = t.issue ∧ k = code ∧ x.id ≠ t.id then some lvl else none
  | none => none

/-- The lanes of the issue group that trapped at this instruction with this code, the thread's own
included (R380). -/
def State.xmask (s : State) (t : Thread) (code : Nat) : Word :=
  s.threads.foldl (fun v x => if (x.trappedWith t code).isSome then v ||| laneBit x.lane else v) (laneBit t.lane)

/-- Adds a lane to XMASK of the members that trapped before it with the same code (R380). -/
def State.shareMask (s : State) (t : Thread) (mask : Word) (code : Nat) : State :=
  { s with threads := s.threads.map fun x =>
      match x.trappedWith t code with
      | some lvl => x.setFrameAt lvl { x.frameAt lvl with xmask := mask }
      | none => x }

/-- The thread belongs to the issue group that executes now. -/
def State.issues (s : State) (t : Thread) : Bool :=
  match s.issuing.members with
  | [] => false
  | id :: _ => id == t.id

/-- A thread that holds an Eddy context comes home before its handler runs (R351). -/
def Place.recalled : Place → Place
  | .eddy c x => .recallWanted c x
  | p => p

/-- The level that a trap is delivered to; none when the team freezes (R378). -/
def State.trapLevel (s : State) (t : Thread) (cause : Cause) : Option Level :=
  let team := s.team? t.team
  let dev := match team with
    | none => 0
    | some m => (match s.launch? m.launch with
      | none => 0
      | some l => l.dev)
  let vec := match team with
    | none => 0
    | some m => m.trapvec
  if cause.user && t.level == .u && vec != 0 && !t.activeU then some .u
  else if t.activeS || s.svec dev == 0 then none
  else some .s

/-- Where a trap of a level starts its handler (R378). -/
def State.trapVector (s : State) (t : Thread) (lvl : Level) : VAddr :=
  match s.team? t.team with
  | none => 0
  | some m =>
    match lvl with
    | .u => m.trapvec.setWidth 56
    | .s | .f =>
      match s.launch? m.launch with
      | none => 0
      | some l => s.svec l.dev

/-- The frame a trap writes (R378). -/
def State.trapFrame (s : State) (t : Thread) (cause : Cause) (info : DWord) : Frame :=
  { xpc := t.pc.setWidth 64
    orig := t.pc.setWidth 64
    xcause := BitVec.ofNat 32 (cause.code + 256 * t.level.code)
    xinfo := info
    xmask := s.xmask t cause.code
    xpred := (s.predByte t).setWidth 32
    xflags := t.flagBits.setWidth 32
    xcb := t.cb.setWidth 64 }

/-- Delivers a trap to a thread (R378): the frame of the handler's level is written, the level entered,
and the PC set to the vector.  A trap that no level can take freezes the team (R379).  In deterministic
mode a delivery to level S marks the group skipped (R337). -/
def State.deliver (s : State) (t : Thread) (cause : Cause) (info : DWord) : State :=
  match s.trapLevel t cause with
  | none =>
    let t' := { t with wait := .run, held := none, freeze := some (cause.code, b2n (!t.activeS)) }
    let s := s.setThread t'
    match s.team? t.team with
    | none => s
    | some m =>
      if m.phase = .running ∨ m.phase = .preempting then
        s.setTeam { m with phase := .freezing (b2n (!t.activeS)) t.id }
      else s
  | some lvl =>
    let mask := s.xmask t cause.code
    let f := s.trapFrame t cause info
    let t' := { t with
      level := lvl, wait := .run, held := none, place := t.place.recalled, trapAt := some (t.issue, cause.code, lvl) }
    let t' := match lvl with
      | .u => { t' with frameU := f, activeU := true }
      | .s | .f => { t' with frameS := f, activeS := true }
    let s := s.shareMask t mask cause.code
    let s := s.setThread (t'.jump (s.trapVector t lvl))
    let s := if s.issues t then
      { s with issuing := { s.issuing with trapped := (t.id, t.lane.val, cause.code) :: s.issuing.trapped } } else s
    match s.team? t.team with
    | none => s
    | some m =>
      match s.launch? m.launch with
      | none => s
      | some l =>
        if l.det ∧ lvl ≠ .u then
          let g := groupOf (m, t)
          (s.setLaunch { l with skipped := if g ∈ l.skipped then l.skipped else g :: l.skipped }).settle l.id
        else s

/-! ## The end of an instruction -/

/-- An instruction that is held so has issued: the other waits hold a word that counts as issued only when they
are over (R19, R189, R220, R337). -/
def Wait.issued : Wait → Bool
  | .ops _ | .step _ | .join _ | .exiting | .barrier _ _ | .sign _ _ | .asleep _ _ _ | .accept _ _ | .sleep _ _ |
    .past _ => true
  | .run | .walk _ _ _ | .replay _ | .version _ _ _ _ _ _ | .token | .flagRoom => false

/-- The thread's instruction is single-stepped: when it issued, its group's STEPMASK bit was set, and it ran at U with
no handler active; a later write of STEPMASK takes effect at the next issue (R432). -/
def stepped (tm : Team) (t : Thread) : Bool :=
  if t.wait.issued then t.stepAt else tm.stepmask.getLsbD t.grp && t.level == .u && !t.activeU

/-- Ends an instruction that has taken its effect: c is the thread as the instruction met it, t as it
stands afterwards, at the boundary it continues at.  A stepped thread takes its step trap (R432). -/
def State.settleThread (s : State) (stepping : Bool) (t : Thread) : State :=
  let s := s.setThread t
  if stepping then s.deliver t .brk 0x400 else s

/-- The tick at which the thread's instruction issued: an instruction that executes again after a wait in which it
had issued issued when it was first held. -/
def Thread.issueTick (t : Thread) (tick : Nat) : Nat := if t.held.isSome && t.wait.issued then t.lastIssue else tick

/-- The slot of a thread's Eddy core is in the second Eddy cycle of this tick (R348). -/
def State.secondHalf (s : State) (t : Thread) : Bool :=
  match t.place with
  | .eddy core _ => s.slots.any fun x => x.source == 0x0600 + 24 * s.threadDie t + core && x.last == s.tick && x.count == 2
  | .home | .leaving _ _ _ | .recallWanted _ _ | .returning _ _ _ => false

/-- The thread issues: YIELD gives up its place in issue selection (R61, R333), and its part of the turn until the turn
comes again (R336). -/
def Thread.yield (t : Thread) (b : Bool) : Thread := { t with yielded := b, gaveTurn := t.gaveTurn || b }

/-- The thread with its instruction's issue noted for GAP (R52); its next word issues no earlier than `next` tells, in
ticks from now and by their Eddy cycle, and YIELD gives up its place (R61). -/
def State.issued (s : State) (c : Ctx) (m : Mods) (next : Nat × Bool) (t : Thread) : Thread :=
  { t.yield (decide (m.sub = 4)) with
    lastIssue := c.t.issueTick s.tick
    lastHalf := if c.t.held.isSome && c.t.wait.issued then c.t.lastHalf else s.secondHalf c.t
    stepAt := stepped c.tm c.t
    ready := s.tick + next.1
    readyHalf := next.2
    wait := .run
    held := none }

/-- Ends an instruction issued in this cycle whose next word comes no earlier than `delay` cycles later (R129). -/
def State.commit (s : State) (c : Ctx) (m : Mods) (delay : Nat) (t : Thread) : State :=
  s.settleThread (stepped c.tm c.t) (s.issued c m (delay, s.secondHalf c.t) t)

/-- The clause that the thread completes with n words more is the end clause of an active loop level (R136). -/
def Thread.endsLoop (t : Thread) (n : Nat) : Bool :=
  t.pc + BitVec.ofNat 56 (4 * n) == t.nextHeader &&
    ((t.flow.lc0.count != 0 && t.cb == t.flow.lc0.stop) || (t.flow.lc1.count != 0 && t.cb == t.flow.lc1.stop))

/-- When the word after an instruction of n words may issue: in the next cycle, which on an Eddy core is the next
Eddy cycle but after the end clause of a hardware loop (R52, R129, R348). -/
def State.nextCycle (s : State) (t : Thread) (n : Nat) : Nat × Bool :=
  match t.place with
  | .home => (1, false)
  | .eddy _ _ | .leaving _ _ _ | .recallWanted _ _ | .returning _ _ _ =>
    if t.endsLoop n then (1, s.secondHalf t) else if s.secondHalf t then (1, false) else (0, true)

/-- Ends an instruction that continues with its next word. -/
def State.done (s : State) (c : Ctx) (m : Mods) (t : Thread) : State :=
  s.settleThread (stepped c.tm c.t) (s.issued c m (s.nextCycle c.t m.words) (t.past m.words))

/-- Ends a control word that takes no transfer: the thread goes on at the next header (R127, R129). -/
def State.fallThrough (s : State) (c : Ctx) (m : Mods) : State := s.commit c m 1 (c.t.past m.words)

/-- Ends a wait that another step ends, for an instruction of n words: the thread goes on, when it has come back from a
save once its header is taken again (R55). -/
def State.resume (s : State) (tm : Team) (n : Nat) (t : Thread) : State :=
  let u := { t with held := none, ready := max t.ready (s.tick + 1) }
  if t.entered then s.settleThread (stepped tm t) ({ u with wait := .run }.past n)
  else s.setThread { u with wait := .past n }

/-- The thread with its instruction held: where that has issued, its issue is noted for GAP, by its Eddy cycle (R52,
R348), and whether it is single-stepped (R432). -/
def State.heldIn (s : State) (t : Thread) (w : Wait) : Thread :=
  let u := { t with wait := w, held := some (t.held.getD s.tick) }
  if w.issued && !(t.held.isSome && t.wait.issued) then
    { u with
      lastIssue := s.tick, lastHalf := s.secondHalf t
      stepAt := ((s.team? t.team).map fun m => stepped m t).getD false }
  else u

/-- Holds the thread at its instruction, which it executes again when the wait is over. -/
def State.hold (s : State) (t : Thread) (w : Wait) : State := s.setThread (s.heldIn t w)

/-! ## The checks of R74 -/

/-- The first register of the instruction at or beyond the allocation (R16). -/
def firstBeyond (alloc : Nat) (l : List Blk) : Option Nat :=
  ((l.filter fun b => decide (alloc < b.base + b.count)).map fun b => max b.base alloc).min?

/-- The lowest-numbered poisoned register among those that an instruction reads (R249). -/
def Thread.poisoned (t : Thread) (reads : List Blk) : Option Nat :=
  (reads.flatMap fun b => (List.range b.count).map (b.base + ·)).filter (fun r => t.poison.getLsbD r) |>.min?

/-- A handler runs that did not run at the region's RGN.B: the region is suspended (R384). -/
def Region.suspended (r : Region) (activeU activeS : Bool) : Bool := (activeU && !r.inU) || (activeS && !r.inS)

/-- The thread's region, when it has one, is suspended by a handler. -/
def Thread.suspended (t : Thread) : Bool := t.region.any fun r => r.suspended t.activeU t.activeS

/-- An open region that is not suspended by a handler (R384). -/
def Thread.inRegion (t : Thread) : Bool := t.region.any fun r => !r.suspended t.activeU t.activeS

/-- A read of a poisoned register (R249): MEM_ERROR outside an open region, a failure of the region
inside one (R383). -/
def State.poisonTrap (s : State) (t : Thread) (r : Nat) : State :=
  match t.region with
  | none => s.deliver t .memError (BitVec.ofNat 64 (2 ^ 62 + r))
  | some g =>
    if t.suspended then s.deliver t .memError (BitVec.ofNat 64 (2 ^ 62 + r))
    else s.setThread { t with fails := t.fails ++ [⟨g.firstOp, t.pc, false, false, none⟩] }

/-- Checks 5 and the read check for a thread predicated on: register range, then poison; otherwise f. -/
def State.checked (s : State) (c : Ctx) (all reads : List Blk) (f : State) : State :=
  match firstBeyond c.t.alloc all with
  | some r => s.deliver c.t .regRange (BitVec.ofNat 64 r)
  | none =>
    match c.t.poisoned reads with
    | some r => s.poisonTrap c.t r
    | none => f

/-- The checks that `State.checked` makes all pass. -/
def Ctx.passes (c : Ctx) (all reads : List Blk) : Bool :=
  (firstBeyond c.t.alloc all).isNone && (c.t.poisoned reads).isNone

/-! ## Returning from a trap -/

/-- The thread after TRET (R55, R244, R381): the level of the frame's FROM, the predicates of XPRED, the
handler-active bit clear, and the PC at XPC: under the frame's clause base when XPC is the one the trap
saved, and as a header otherwise.  A lane-class result that is not yet written is written when it is due all the same
(R51). -/
def Thread.returned (t : Thread) : Thread :=
  let f := t.frame
  let t' := match t.level with
    | .u => { t with activeU := false }
    | .s | .f => { t with activeS := false }
  { t' with
    level := Level.ofCode (bits f.xcause.toNat 9 8)
    preds := (f.xpred.setWidth 8) ||| 1
    pc := f.xpc.setWidth 56
    cb := if f.xpc = f.orig then f.xcb.setWidth 56 else f.xpc.setWidth 56
    entered := false }

end Sys2Proof.Machine
end

