-- ==== Sys2Proof/Machine/Memory.lean ====
section
/-! DEFINITION. The accesses of engines through the issuing core's L1 (R288), and scratch with its
full-empty bits (R30, R264). -/

namespace Sys2Proof.Machine

/-! ## Engine accesses through the issuing core (R288) -/

/-- An engine read of a byte run: dirty bytes of the issuing core are written back first. -/
def State.engineSync (s : State) (core key n : Nat) : State :=
  s.pushBack fun b => b.core == core && decide (key ≤ b.key) && decide (b.key < key + n)

/-- Before an engine writes bytes, every line of the issuing core that holds one leaves its L1. -/
def State.engineClear (s : State) (core key n : Nat) : State :=
  let mine := fun b : L1Byte =>
    b.core == core && decide (lineOf key ≤ lineOf b.key) && decide (lineOf b.key ≤ lineOf (key + n - 1))
  s.evictBack mine

/-- An engine's write at the point of coherence (R288). -/
def State.engineWrite (s : State) (core key : Nat) (l : List Byte) : State :=
  (s.engineClear core key l.length).pocWrite key l

/-- Runs f on the key of each piece of a virtual range that translates. -/
def State.overRange (s : State) (dev va n : Nat) (kind : XKind) (level : Level) (f : State → Nat → Nat → State) : State :=
  (pieces (n / 16 + 2) va n).foldl (fun s p =>
    match s.walk dev p.1 ⟨kind, false, level⟩ with
    | .error _ => s
    | .ok x => f s x.key p.2) s

/-- Before an engine reads a virtual range, the issuing core's dirty bytes of it are written back. -/
def State.syncRange (s : State) (core dev va n : Nat) (level : Level) : State :=
  s.overRange dev va n .read level fun s key k => (s.engineSync core key k).homeUse (s.vdWays dev) .normal key k

/-- An engine's read of a virtual range through the issuing core's L1. -/
def State.eread (s : State) (core dev va n : Nat) (level : Level) : State × Except AFault (List Byte) :=
  let s := s.syncRange core dev va n level
  (s, s.vread dev va n level)

/-- An engine's write of a virtual range through the issuing core's L1. -/
def State.ewrite (s : State) (core dev va : Nat) (l : List Byte) (level : Level) : State × Option AFault :=
  (s.overRange dev va l.length .write level fun s key k =>
    (s.engineClear core key k).homeUse (s.vdWays dev) .normal key k).vwrite dev va l level

/-! ## Line traffic (R428) -/

/-- Counts what a launch uses at a place: the cycles in which its words issue on a core, or the lines that it moves
through a die. -/
def tally (l : List (Nat × Nat × Nat)) (place launch n : Nat) : List (Nat × Nat × Nat) :=
  let old := ((l.find? fun e => e.1 == place && e.2.1 == launch).map fun e => e.2.2).getD 0
  (place, launch, old + n) :: l.filter fun e => !(e.1 == place && e.2.1 == launch)

/-- The dies that move a line: that of its home slice, and the I/O die, 4, for the far tier, the host and the fabric. -/
def lineDies (line : Nat) : List Nat :=
  if isRemote (128 * line) then [4]
  else if 128 * line < 0x4000000000 then [homeSlice (128 * line) / 96]
  else [homeSlice (128 * line) / 96, 4]

/-- Counts the lines that an access of n bytes at a key moves for a launch. -/
def State.spendLines (s : State) (launch key n : Nat) : State :=
  if isMgmt key then s
  else
    { s with power := { s.power with
        lines := (linesOf key n).foldl (fun p line => (lineDies line).foldl (fun p die => tally p die launch 1) p) s.power.lines } }

/-! ## Scratch -/

/-- Bytes of a team's scratch; contents that nothing has written read as zero (log entry 5). -/
def Team.scrRead (tm : Team) (off n : Nat) : List Byte := Memory.read tm.scratch off n

/-- Writes bytes of a team's scratch; a granule written whole loses its poison (R249). -/
def Team.scrWrite (tm : Team) (off : Nat) (l : List Byte) : Team :=
  { tm with scratch := Memory.write tm.scratch off l, scrPoison := clearPoison tm.scrPoison off l.length }

/-- The granule is full (R264). -/
def Team.isFull (tm : Team) (off : Nat) : Bool := decide (off / 16 ∈ tm.full)

/-- Sets a granule full. -/
def Team.setFull (tm : Team) (off : Nat) : Team :=
  { tm with full := if off / 16 ∈ tm.full then tm.full else off / 16 :: tm.full }

/-- Sets a granule empty. -/
def Team.setEmpty (tm : Team) (off : Nat) : Team := { tm with full := tm.full.filter fun g => g != off / 16 }

/-- A granule of n bytes of scratch is poisoned. -/
def Team.scrBad (tm : Team) (off n : Nat) : Bool :=
  tm.scrPoison.any fun g => decide (off < 16 * g + 16) && decide (16 * g < off + n)

/-- SCRSIZE in bytes (R30). -/
def Team.scrSize (tm : Team) : Nat := 4096 * tm.scr

/-- The team of a cluster with a team index, resident (R43). -/
def State.clusterTeam (s : State) (tm : Team) (idx : Nat) : Option Team :=
  s.teams.find? fun x => x.cluster == tm.cluster && x.teamIdx == idx

end Sys2Proof.Machine
end

