-- ==== Sys2Proof/Machine/Flags.lean ====
section
/-! DEFINITION. The floating-point flags and controls of FPCSR (R37, R108 to R112), and the common
shape of a lane-class and of a block-class instruction (R51, R59, R74, R110, R111). -/

namespace Sys2Proof.Machine

/-! ## Flags -/

/-- The exception flags an instruction raises (R108), in the bit order of FPCSR [4:0]. -/
structure FFlags where
  nv : Bool
  dz : Bool
  of : Bool
  uf : Bool
  nx : Bool
  deriving DecidableEq, Repr

/-- No flag. -/
def FFlags.clear : FFlags := ⟨false, false, false, false, false⟩

/-- Every flag that either raises. -/
def FFlags.join (a b : FFlags) : FFlags := ⟨a.nv || b.nv, a.dz || b.dz, a.of || b.of, a.uf || b.uf, a.nx || b.nx⟩

/-- NV alone, when the condition holds. -/
def FFlags.invalid (b : Bool) : FFlags := { FFlags.clear with nv := b }

/-- The flags as bits [4:0] (R37). -/
def FFlags.code (f : FFlags) : Nat := b2n f.nv + 2 * b2n f.dz + 4 * b2n f.of + 8 * b2n f.uf + 16 * b2n f.nx

/-- The flags of bits [4:0]. -/
def FFlags.ofCode (n : Nat) : FFlags := ⟨bit n 0, bit n 1, bit n 2, bit n 3, bit n 4⟩

/-! ## FPCSR -/

/-- FTZ (R37). -/
def csrFtz (w : Word) : Bool := w.getLsbD 13

/-- An exception enable is set (R112). -/
def csrTraps (w : Word) : Bool := w.getLsbD 6 || w.getLsbD 7 || w.getLsbD 8

/-- The rounding modes of arithmetic (R102). -/
inductive RMode where
  | rne | rtz | rup | rdn | rna | sr
  deriving DecidableEq, Repr

/-- RM of FPCSR; 110 and 111 are never held (R37). -/
def csrRm (w : Word) : RMode :=
  match bits w.toNat 12 10 with
  | 1 => .rtz
  | 2 => .rup
  | 3 => .rdn
  | 4 => .rna
  | 5 => .sr
  | _ => .rne

/-- The rounding mode of a lane instruction (R59, R102). -/
def roundMode (m : Mods) (csr : Word) : RMode :=
  match m.pre with
  | none => csrRm csr
  | some p =>
    match p.rnd with
    | .rne => .rne
    | .rtz => .rtz
    | .rup => .rup
    | .rdn => .rdn
    | .rna => .rna
    | .sr => .sr
    | .fpcsr => csrRm csr

/-- The trap that raised flags cause under the enables of FPCSR: NV before DZ before OF (R111). -/
def fpTrap (csr : Word) (f : FFlags) : Option Cause :=
  if f.nv && csr.getLsbD 6 then some .fpInvalid
  else if f.dz && csr.getLsbD 7 then some .fpDivzero
  else if f.of && csr.getLsbD 8 then some .fpOverflow
  else none

/-! ## Instructions -/

/-- What a lane-class instruction writes: registers, predicates, the flags it raises, and whether it sets
RNGW (R160). -/
structure LaneResult where
  regs : List (Nat × Word)
  preds : List (Pred × Bool)
  flags : FFlags
  rngw : Bool
  deriving DecidableEq, Repr

/-- Register writes alone. -/
def LaneResult.ofRegs (l : List (Nat × Word)) : LaneResult := ⟨l, [], FFlags.clear, false⟩

/-- One predicate write alone. -/
def LaneResult.ofPred (p : Pred) (v : Bool) : LaneResult := ⟨[], [(p, v)], FFlags.clear, false⟩

/-- The FPCSR bits that a result sets (R37). -/
def LaneResult.csr (r : LaneResult) : Word := BitVec.ofNat 32 (r.flags.code + 512 * b2n r.rngw)

/-- What ZERO writes to a thread that is predicated off (R59): zero to every register and false to every
predicate that the instruction would write. -/
def zeroed (regs : List Blk) (preds : List Pred) : LaneResult :=
  ⟨(regs.flatMap fun b => (List.range b.count).map (b.base + ·)).map (·, 0), preds.map (·, false),
    FFlags.clear, false⟩

/-- Ends a lane-class instruction with its result, written later (R51, R110). -/
def State.laneDone (s : State) (c : Ctx) (m : Mods) (r : LaneResult) : State :=
  s.done c m (c.t.later s.tick r.regs r.preds r.csr)

/-- A lane-class instruction (R51, R59, R74, R111).  `dst` and `pds` are its destinations, `reads` the
registers it reads, and `r` what it writes when predicated on. -/
def State.lane (s : State) (c : Ctx) (m : Mods) (dst : List Blk) (pds : List Pred) (reads : List Blk)
    (r : LaneResult) : State :=
  if s.on c.t m then
    s.checked c (dst ++ reads) reads
      (match fpTrap (s.csr c.t) r.flags with
       | some cause => s.deliver c.t cause (BitVec.ofNat 64 r.flags.code)
       | none => s.laneDone c m r)
  else if m.zero then s.laneDone c m (zeroed dst pds)
  else s.laneDone c m (LaneResult.ofRegs [])

/-- A block-class instruction whose whole effect is one change of its thread (R51, R59, R74). -/
def State.block (s : State) (c : Ctx) (m : Mods) (dst reads : List Blk) (f : State) : State :=
  if s.on c.t m then s.checked c (dst ++ reads) reads f
  else if m.zero then s.done c m (c.t.puts (zeroed dst []).regs)
  else s.done c m c.t

/-! ## Long-class operations -/

/-- A long-class operation of the executing thread that raises no flag by itself. -/
def Op.mk' (id : Nat) (t : Thread) (kind : OpKind) (due : Nat) : Op :=
  { id := id, th := t.id, level := t.level, kind := kind, flags := hdrSets t.hdr, word := t.pc, due := due, demote := false
    deadline := none, planes := [], held := false, handler := !t.inRegion, cls := .normal
    issue := t.issue, lane := t.lane.val }

/-- Issues a long-class operation (R19, R51): it raises the clause's flags and the thread goes on; the
thread is held while a count would pass 63. -/
def State.issueOp (s : State) (c : Ctx) (m : Mods) (op : Op) : State :=
  if c.t.flagRoom op.flags then
    { s with ops := s.ops ++ [op], nextId := s.nextId + 1 }.done c m (c.t.raise op.flags)
  else s.hold c.t .flagRoom

/-- Issues an operation of a kind that completes no earlier than `delay` cycles later. -/
def State.long (s : State) (c : Ctx) (m : Mods) (kind : OpKind) (delay : Nat) : State :=
  s.issueOp c m (Op.mk' s.nextId c.t kind (s.tick + delay))

/-- An operation by its name. -/
def State.op? (s : State) (id : Nat) : Option Op := s.ops.find? fun o => o.id == id

/-! ## The ejection port (R346, R347) -/

/-- The cycles for which a transfer of a thread occupies the ejection port (R347). -/
def portCycles (alloc : Nat) : Nat := alloc / 4 + 32

/-- The tick at which a transfer that a place names has left the ejection port; 0 for none. -/
def Place.portUntil : Place → Nat
  | .leaving _ _ ready | .returning _ _ ready => ready - 24
  | .home | .eddy _ _ | .recallWanted _ _ => 0

/-- When a transfer of a thread that asks for its core's port now is complete, 24 cycles after its last beat
(R346, R347, R350). -/
def State.portDone (s : State) (t : Thread) : Nat :=
  let core := fun id => (s.teams.find? fun m => m.id == id).map fun m => m.core
  let free := s.threads.foldl (fun n x => if core x.team == core t.team then max n x.place.portUntil else n) s.tick
  free + portCycles t.alloc + 24

/-- A thread that leaves for an Eddy core has not asked for the port yet. -/
def Place.unasked : Place → Bool
  | .leaving _ _ 0 => true
  | .home | .leaving _ _ (_ + 1) | .eddy _ _ | .recallWanted _ _ | .returning _ _ _ => false

/-- A thread of a lower lane that one decision ejected with this one has not asked for the port yet: transfers of one
decision follow ascending lane order (R347). -/
def State.portAhead (s : State) (t : Thread) : Bool :=
  s.threads.any fun x => x.place.unasked && x.issue == t.issue && decide (x.lane < t.lane)

/-- A thread that leaves for an Eddy core asks for the port (R346). -/
def State.askPort (s : State) (t : Thread) : Thread :=
  match t.place with
  | .leaving c x 0 => { t with place := .leaving c x (s.portDone t) }
  | .home | .leaving _ _ (_ + 1) | .eddy _ _ | .recallWanted _ _ | .returning _ _ _ => t

/-- Ends an operation: it is outstanding no more and its flags are lowered (R19). -/
def State.endOp (s : State) (o : Op) : State :=
  let s := { s with ops := s.ops.filter fun x => x.id != o.id }
  match s.thread? o.th with
  | none => s
  | some t => s.setThread (t.lower o.flags)

/-- Sets FPCSR flags of a thread (R110). -/
def Thread.orCsr (t : Thread) (f : Word) : Thread := { t with fpcsr := t.fpcsr ||| f }

/-- Changes a team by its name. -/
def State.modTeam (s : State) (id : Nat) (f : Team → Team) : State :=
  { s with teams := s.teams.map fun tm => if tm.id == id then f tm else tm }

/-! ## Performance counters -/

/-- Counts n events of a code in the counters that select it, unless PMFRZ stops them (R246, R247). -/
def Team.count (tm : Team) (event n : Nat) : Team :=
  let counts := fun (k : Nat) (v : DWord) =>
    let sel := (tm.pmsel[k]?.getD 0).toNat
    if bit sel 8 ∧ bits sel 7 0 = event then v + BitVec.ofNat 64 n else v
  if tm.pmfrz then tm else { tm with pmcnt := tm.pmcnt.mapFinIdx fun k v _ => counts k v }

/-- Counts events of a team (R246). -/
def State.countPm (s : State) (team event n : Nat) : State :=
  { s with teams := s.teams.map fun tm => if tm.id == team then tm.count event n else tm }

end Sys2Proof.Machine
end

