-- ==== Sys2Proof/Machine/Fetch.lean ====
section
/-! DEFINITION. Instruction fetch, clause headers and the start of a clause (R48 to R56, R128, R135,
R270, R271), and the lane-class results that become due (R51). -/

namespace Sys2Proof.Machine

/-- Changes a thread by its name. -/
def State.modThread (s : State) (id : Nat) (f : Thread → Thread) : State :=
  { s with threads := s.threads.map fun t => if t.id == id then f t else t }

/-! ## Fetching a word -/

/-- What a fetch of one word meets: the word, a fault, no translation, an uncorrectable error, a pod-remote request that
is held at its source (R392, R402), or one that fails (R391). -/
inductive FetchRes where
  | ok (w : Word)
  | fault (f : XFault)
  | miss
  | bad
  | held
  | lost
  deriving DecidableEq, Repr

/-- The values that a word has had since so many words had been replaced, but for the one that it has now, the
newest first (R56). -/
def MemSys.pastWords (m : MemSys) (born key : Nat) : List Word :=
  ((m.past.take (m.past.length - born)).filter fun e => e.1 == key).map fun e => e.2

/-- The word that a fetch of a launch gives: the one that stands there, or one that has stood there since the launch
was placed (R56, log entry 6). -/
def State.fetched (s : State) (born key : Nat) : Word :=
  let now := BitVec.ofNat 32 (Memory.readNat s.ms.mem key 4)
  match s.ms.pastWords born key with
  | [] => now
  | w :: l => (now :: w :: l).getD (Config.fetchChoice s.freeCount key % (l.length + 2)) now

/-- Fetches the word at an address through the TLBs of a slice, for a launch (R56). -/
def State.fetch (s : State) (core slice dev born : Nat) (level : Level) (va : VAddr) : FetchRes :=
  match s.translate core slice dev va.toNat ⟨.fetch, false, level⟩ with
  | .fault f => .fault f
  | .miss => .miss
  | .ok x =>
    if s.engineHeld dev x.key then .held
    else if s.requestFails x.key then .lost
    else if s.ms.poisoned x.key 4 then .bad
    else if isMgmt x.key then .ok (BitVec.ofNat 32 (s.mgmtBytes (some dev) level (x.key - mgmtBase) 4))
    else .ok (s.fetched born x.key)

/-- The fetch of a thread: after a return from a trap no older word than the return met (R56, R243). -/
def State.fetchFor (s : State) (c : Ctx) (va : VAddr) : FetchRes := s.fetch c.tm.core c.t.slice c.l.dev (max c.l.born c.t.born) c.t.level va

/-- The code of an access kind in XINFO and fault records (R270). -/
def XKind.code : XKind → Nat
  | .read => 0
  | .write => 1
  | .fetch => 2
  | .versioned => 3

/-- The source number of the place where a thread issues (R430). -/
def State.threadSource (s : State) (t : Thread) : Nat :=
  match t.place with
  | .eddy c _ => 0x0600 + 24 * s.threadDie t + c
  | .home | .leaving _ _ _ | .recallWanted _ _ | .returning _ _ _ =>
    sliceSource (((s.team? t.team).map fun m => m.core).getD 0) t.slice

/-- Parks a thread on a replayable fault (R271): the first thread that parks in a 64 KiB region posts a
fault record. -/
def State.park (s : State) (t : Thread) (dev va : Nat) (kind : XKind) : State :=
  let s := if kind = .fetch then s.setThread { t with wait := .replay va } else s.hold t (.replay va)
  if (dev, va / 65536) ∈ s.front.parked then s
  else
    let s := { s with front := { s.front with parked := (dev, va / 65536) :: s.front.parked } }
    s.post dev false 0x01 0 (s.threadSource t) (toBytes 8 (va / 65536 * 65536) ++ toBytes 8 kind.code)

/-- A translation fault of a thread: a replayable one parks it, a fatal one traps (R189, R270). -/
def State.xfault (s : State) (t : Thread) (dev va : Nat) (kind : XKind) (f : XFault) : State :=
  if f.reason = 0 ∧ f.rpl then s.park t dev va kind
  else s.deliver t .xlateFault (xlateInfo kind f va)

/-- What becomes of a thread whose fetch gives no word: it waits for the walk, parks or traps. -/
def State.fetchFail (s : State) (t : Thread) (dev : Nat) (va : VAddr) (r : FetchRes) : State :=
  match r with
  | .ok _ => s
  | .miss => s.setThread { t with wait := .walk va.toNat .fetch false }
  | .fault f => s.xfault t dev va.toNat .fetch f
  | .bad => s.deliver t .memError (BitVec.ofNat 64 (2 ^ 63 + va.toNat))
  | .held => s.setThread { t with ready := s.tick + 1 }
  | .lost => (s.countFails 1).deliver t .remoteFail (BitVec.ofNat 64 (2 ^ 63 + va.toNat))

/-- A core fetches from the line that holds a key, through its instruction cache of 512 lines, which fills from the
memory-side cache (R248, log entry 92). -/
def State.codeLine (s : State) (core dev key : Nat) : State :=
  let x : CodeLine := ⟨core, lineOf key⟩
  let others := s.ms.code.filter fun y => y != x
  let mine := others.filter fun y => y.core == core
  let kept := if mine.length < 512 then others else others.filter fun y => mine.getLast? != some y
  let s' := s.setMs { s.ms with code := x :: kept }
  if s.ms.code.contains x then s' else s'.homeUse (s.vdWays dev) .normal key 4

/-- A thread's core fetches the word at an address (R248). -/
def State.codeUse (s : State) (c : Ctx) (va : VAddr) : State :=
  match s.translate c.tm.core c.t.slice c.l.dev va.toNat ⟨.fetch, false, c.t.level⟩ with
  | .ok x => if isMgmt x.key then s else s.codeLine c.tm.core c.l.dev x.key
  | .fault _ | .miss => s

/-- A thread's core fetches n words from an address on. -/
def State.codeRun (s : State) (c : Ctx) (va : VAddr) (n : Nat) : State :=
  (List.range n).foldl (fun s k => s.codeUse c (va + BitVec.ofNat 56 (4 * k))) s

/-! ## The start of a clause -/

/-- XINFO of ILLEGAL_CLAUSE and ILLEGAL_INSN (R76). -/
def rejectInfo (r : Reject) : DWord :=
  BitVec.ofNat 64 (r.kind.toNat * 2 ^ 35 + r.pos.toNat * 2 ^ 32 + r.word.toNat)

/-- The PC lies at the header or among the words of the clause (R55). -/
def inClause (pc cb : VAddr) (h : Word) : Bool :=
  decide (pc = cb) || (List.range (hdrLen h + 1)).any fun k => pc == cb + BitVec.ofNat 56 (4 * (k + 1))

/-- Every flag that WAIT names is clear for the thread (R20, R50). -/
def waitClear (t : Thread) (h : Word) : Bool :=
  (List.finRange 12).all fun (k : Fin 12) => !h.getLsbD (20 + k.val) || t.flags[k.val] == 0

/-- The majors of the long class (R51, R64). -/
def longMajors : List Nat := [0x1A, 0x28, 0x29, 0x2A, 0x2B, 0x2C, 0x2D, 0x2E, 0x2F, 0x30, 0x32, 0x33, 0x36, 0x39, 0x3A]

/-- The major of a word belongs to the long class. -/
def longMajor (w : Word) : Bool := longMajors.contains (bits w.toNat 31 26)

/-- The word at an address as a fetch would find it once a page walk has answered; none where it would find none. -/
def State.wordAhead (s : State) (c : Ctx) (va : VAddr) : Option Word :=
  match s.fetchFor c va with
  | .ok w => some w
  | .miss =>
    (match s.walk c.l.dev va.toNat ⟨.fetch, false, c.t.level⟩ with
     | .error _ => none
     | .ok x => some (s.fetched (max c.l.born c.t.born) x.key))
  | .fault _ | .bad | .held | .lost => none

/-- The word counts as one operation of the long class for a thread: major 0x1A is of the block class while FPCSR enables
its traps (R112). -/
def Ctx.longWord (c : Ctx) (w : Word) : Bool := longMajor w && !(bits w.toNat 31 26 == 0x1A && csrTraps c.t.fpcsr)

/-- How many of the words from an address on, n at most, belong to the long class: those that can be fetched
(R19). -/
def State.longWords (s : State) (c : Ctx) : Nat → VAddr → Nat
  | 0, _ => 0
  | n + 1, va =>
    match s.wordAhead c va with
    | some w => b2n (c.longWord w) + s.longWords c n (va + 4)
    | none => 0

/-- The clause's issue from the thread's PC on takes no flag's count above 63 (R19): each word of the long class
that is left in it counts as one operation (log entry 68). -/
def State.clauseRoom (s : State) (c : Ctx) (h : Word) : Bool :=
  let at' := if c.t.pc = c.t.cb then c.t.cb + 4 else c.t.pc
  let left := (c.t.cb + BitVec.ofNat 56 (4 * (hdrLen h + 2)) - at').toNat / 4
  let n := s.longWords c (min 8 left) at'
  (List.finRange 12).all fun k : Fin 12 => !(hdrSets h).getLsbD k.val || decide (c.t.flags[k.val] + n ≤ 63)

/-- The header that governs a thread about to start or to resume a clause (R48, R55). -/
def State.headerFor (s : State) (c : Ctx) : FetchRes := s.fetchFor c c.t.cb

/-- The clause of a thread may start or its start may be decided: the header cannot be fetched, it is no
header, or the flags it waits for are clear and its own have room (R19, R50). -/
def State.clauseReady (s : State) (c : Ctx) : Bool :=
  match s.headerFor c with
  | .ok h => hdrBad h || !inClause c.t.pc c.t.cb h || (waitClear c.t h && s.clauseRoom c h)
  | .held => false
  | .fault _ | .miss | .bad | .lost => true

/-- The thread in its clause: the fields of the header are taken, and a PC at the header moves to the first
word. -/
def Thread.enter (t : Thread) (h : Word) : Thread :=
  { t with hdr := h, entered := true, pc := if t.pc = t.cb then t.cb + 4 else t.pc }

/-- The thread waits for the header of its clause (R48, R55): it stands at it or at a word of the clause, or it has
executed the instruction there. -/
def Thread.atHeader (t : Thread) : Bool :=
  !t.entered &&
    (match t.wait with
     | .run | .past _ => true
     | .walk _ _ _ | .replay _ | .ops _ | .version _ _ _ _ _ _ | .step _ | .token | .flagRoom | .join _ | .sleep _ _ |
       .barrier _ _ | .sign _ _ | .asleep _ _ _ | .accept _ _ | .exiting => false)

/-- Two threads stand at the same header and would form one issue group there (R24). -/
def samePoint (s : State) (c : Ctx) (t : Thread) : Bool :=
  match s.ctx? t.id with
  | none => false
  | some d =>
    t.slice == c.t.slice && d.tm.core == c.tm.core && d.l.id == c.l.id && t.level == c.t.level && t.pc == c.t.pc && t.cb == c.t.cb &&
      t.atHeader && t.wait == c.t.wait && t.place == c.t.place && (!c.l.det || (t.team == c.t.team && t.grp == c.t.grp))

/-- The threads that stand with a thread at its header, on distinct lanes, in ascending lane order (R24,
R380). -/
def State.peers (s : State) (c : Ctx) : List Thread :=
  (List.finRange 32).filterMap fun lane =>
    if lane = c.t.lane then some c.t else s.threads.find? fun t => t.lane == lane && samePoint s c t

/-- Gives some threads the number of a new issue group (R25, R380). -/
def State.newIssue (s : State) (ids : List Nat) : State :=
  { s with
    nextId := s.nextId + 1
    threads := s.threads.map fun t => if ids.contains t.id then { t with issue := s.nextId } else t }

/-- Runs a step for each of several threads as members of one issue group (R25, R380). -/
def State.asGroup (s : State) (ids : List Nat) (f : State → Thread → State) : State :=
  let r := ids.foldl (fun s id =>
    match s.thread? id with
    | none => s
    | some t => f { s with issuing := { s.issuing with members := [id] } } t) { s.newIssue ids with issuing := Issue.idle }
  { r with issuing := s.issuing }

/-- A thread that has waited for the flags of its clause issues in the cycle after the one in which they are clear, on an
Eddy core in the next Eddy cycle (R50, R171). -/
def Thread.afterFlags (t : Thread) (h : Word) (tick : Nat) : Thread :=
  let home := t.place == .home
  if bits h.toNat 31 20 ≠ 0 ∧ 2 * t.ready + b2n t.readyHalf ≤ 2 * tick then
    { t with ready := if home then tick + 1 else tick, readyHalf := !home }
  else t

/-- A thread enters its clause: a thread whose instruction there is done goes on past it (R55). -/
def State.enterClause (s : State) (t : Thread) (h : Word) : State :=
  let u := (t.enter h).afterFlags h s.tick
  match t.wait with
  | .past n => s.settleThread t.stepAt ({ u with wait := .run }.past n)
  | _ => s.setThread u

/-- CLAUSE_START (R48, R50, R55): the header is fetched and checked, and once its flags are clear the
clause starts.  A header that fails traps every thread that stands at it. -/
def execClauseStart (th : Nat) (s : State) : Host.Outcome State Fault Refusal :=
  match s.ctx? th with
  | none => .next s
  | some c =>
    if !c.t.atHeader then .next s
    else
      let ids := (s.peers c).map fun t => t.id
      match s.headerFor c with
      | .ok h =>
        if hdrBad h || !inClause c.t.pc c.t.cb h then
          .next (s.asGroup ids fun s t =>
            s.deliver { t with pc := t.cb } .illegalClause (rejectInfo ⟨true, 0, 0, h⟩))
        else if waitClear c.t h && s.clauseRoom c h then .next ((s.codeUse c c.t.cb).enterClause c.t h)
        else .next s
      | .held => .next s
      | .lost => .next (s.asGroup ids fun s t => s.fetchFail t c.l.dev c.t.cb .lost)
      | .fault f => .next (s.asGroup ids fun s t => s.fetchFail t c.l.dev c.t.cb (.fault f))
      | .miss => .next (s.asGroup ids fun s t => s.fetchFail t c.l.dev c.t.cb .miss)
      | .bad => .next (s.asGroup ids fun s t => s.fetchFail t c.l.dev c.t.cb .bad)

/-! ## Lane-class results -/

/-- A thread has a lane-class result that is due. -/
def Thread.landDue (t : Thread) (tick : Nat) : Bool := t.pend.any fun p => decide (p.due ≤ tick)

/-- LANE_RESULT_WRITE (R51): the results that are due are written, in issue order. -/
def execLaneResultWrite (th : Nat) (s : State) : Host.Outcome State Fault Refusal :=
  match s.thread? th with
  | none => .next s
  | some t => .next (s.setThread (t.land s.tick))

/-! ## Words that are no instruction -/

/-- ILLEGAL_INSN (R57, R63, R75, R76): the issuing thread's words are no instruction; it takes
ILLEGAL_INSN or ILLEGAL_CLAUSE. -/
def execIllegalInsn (r : Reject) (s : State) : Host.Outcome State Fault Refusal :=
  s.run fun c => s.deliver c.t (if r.clause then .illegalClause else .illegalInsn) (rejectInfo r)

end Sys2Proof.Machine
end

