-- ==== Sys2Proof/Machine/Int.lean ====
section
/-! DEFINITION. The integer, compare, select and predicate instructions, majors 0x01 to 0x0F (R113 to
R126). -/

namespace Sys2Proof.Machine

/-! ## Arithmetic of one element -/

/-- Narrows an exact result to w bits: the nearest value of the signed range when `sat` holds, else
wrapped (R8, R9, R94). -/
def narrowS {w : Nat} (sat : Bool) (v : Int) : BitVec w :=
  if sat then BitVec.ofInt w (max (-(2 ^ (w - 1))) (min v (2 ^ (w - 1) - 1))) else BitVec.ofInt w v

/-- Narrows an exact result to w bits: the nearest value of the unsigned range when `sat` holds, else
wrapped (R8, R9, R94). -/
def narrowU {w : Nat} (sat : Bool) (v : Int) : BitVec w :=
  if sat then BitVec.ofInt w (max 0 (min v (2 ^ w - 1))) else BitVec.ofInt w v

/-- ADD. -/
def elAdd {w : Nat} (sat : Bool) (a b : BitVec w) : BitVec w := narrowS sat (a.toInt + b.toInt)

/-- SUB. -/
def elSub {w : Nat} (sat : Bool) (a b : BitVec w) : BitVec w := narrowS sat (a.toInt - b.toInt)

/-- MUL. -/
def elMul {w : Nat} (sat : Bool) (a b : BitVec w) : BitVec w := narrowS sat (a.toInt * b.toInt)

/-- MULHS: the high half of the signed product. -/
def elMulhs {w : Nat} (a b : BitVec w) : BitVec w := BitVec.ofInt w (Int.fdiv (a.toInt * b.toInt) (2 ^ w))

/-- MULHU: the high half of the unsigned product. -/
def elMulhu {w : Nat} (a b : BitVec w) : BitVec w := BitVec.ofNat w (a.toNat * b.toNat / 2 ^ w)

/-- MINS. -/
def elMins {w : Nat} (a b : BitVec w) : BitVec w := if a.toInt ≤ b.toInt then a else b

/-- MINU. -/
def elMinu {w : Nat} (a b : BitVec w) : BitVec w := if a.toNat ≤ b.toNat then a else b

/-- MAXS. -/
def elMaxs {w : Nat} (a b : BitVec w) : BitVec w := if a.toInt ≤ b.toInt then b else a

/-- MAXU. -/
def elMaxu {w : Nat} (a b : BitVec w) : BitVec w := if a.toNat ≤ b.toNat then b else a

/-- AND. -/
def elAnd {w : Nat} (a b : BitVec w) : BitVec w := a &&& b

/-- OR. -/
def elOr {w : Nat} (a b : BitVec w) : BitVec w := a ||| b

/-- XOR. -/
def elXor {w : Nat} (a b : BitVec w) : BitVec w := a ^^^ b

/-- ANDN. -/
def elAndn {w : Nat} (a b : BitVec w) : BitVec w := a &&& ~~~b

/-- The shift or rotate count of R116. -/
def shiftCount {w : Nat} (b : BitVec w) : Nat := b.toNat % w

/-- SHL. -/
def elShl {w : Nat} (a b : BitVec w) : BitVec w := a <<< shiftCount b

/-- SHR. -/
def elShr {w : Nat} (a b : BitVec w) : BitVec w := a >>> shiftCount b

/-- SAR. -/
def elSar {w : Nat} (a b : BitVec w) : BitVec w := BitVec.ofInt w (Int.fdiv a.toInt (2 ^ shiftCount b))

/-- ROL. -/
def elRol {w : Nat} (a b : BitVec w) : BitVec w := (a <<< shiftCount b) ||| (a >>> (w - shiftCount b))

/-- ROR. -/
def elRor {w : Nat} (a b : BitVec w) : BitVec w := (a >>> shiftCount b) ||| (a <<< (w - shiftCount b))

/-- CLZ: the count of leading zeros, w for a zero element (R117). -/
def elClz {w : Nat} (a : BitVec w) : BitVec w :=
  BitVec.ofNat w (if a.toNat = 0 then w else w - 1 - a.toNat.log2)

/-- The index of the least significant 1 bit. -/
def lowestSet {w : Nat} (a : BitVec w) : Option Nat := (List.range w).find? fun k => a.getLsbD k

/-- FFS: all ones for a zero element (R117). -/
def elFfs {w : Nat} (a : BitVec w) : BitVec w :=
  match lowestSet a with
  | some k => BitVec.ofNat w k
  | none => BitVec.allOnes w

/-- POPC. -/
def elPopc {w : Nat} (a : BitVec w) : BitVec w :=
  BitVec.ofNat w ((List.range w).foldl (fun n k => n + b2n (a.getLsbD k)) 0)

/-- BREV. -/
def elBrev {w : Nat} (a : BitVec w) : BitVec w :=
  BitVec.ofNat w ((List.range w).foldl (fun n k => n + b2n (a.getLsbD k) * 2 ^ (w - 1 - k)) 0)

/-- ABS. -/
def elAbs {w : Nat} (sat : Bool) (a : BitVec w) : BitVec w := narrowS sat a.toInt.natAbs

/-- NEG. -/
def elNeg {w : Nat} (sat : Bool) (a : BitVec w) : BitVec w := narrowS sat (0 - a.toInt)

/-- ADDUS: unsigned saturation always. -/
def elAddus {w : Nat} (a b : BitVec w) : BitVec w := narrowU true (a.toNat + b.toNat)

/-- SUBUS: unsigned saturation always. -/
def elSubus {w : Nat} (a b : BitVec w) : BitVec w := narrowU true ((a.toNat : Int) - (b.toNat : Int))

/-! ## Elements of a register -/

/-- Applies an operation to the two 16-bit elements of two registers (R93). -/
def mapX2 (f : BitVec 16 → BitVec 16 → BitVec 16) (a b : Word) : Word :=
  f (a.extractLsb' 16 16) (b.extractLsb' 16 16) ++ f (a.extractLsb' 0 16) (b.extractLsb' 0 16)

/-- Applies an operation to the four 8-bit elements of two registers (R93). -/
def mapX4 (f : BitVec 8 → BitVec 8 → BitVec 8) (a b : Word) : Word :=
  f (a.extractLsb' 24 8) (b.extractLsb' 24 8) ++ f (a.extractLsb' 16 8) (b.extractLsb' 16 8) ++
    f (a.extractLsb' 8 8) (b.extractLsb' 8 8) ++ f (a.extractLsb' 0 8) (b.extractLsb' 0 8)

/-- The two register writes of a 64-bit result (R16). -/
def pairWrites (d : Reg) (v : DWord) : List (Nat × Word) := [(d.val, lo32 v), (d.val + 1, hi32 v)]

/-! ## The register forms -/

/-- A form on whole registers (R115, R116). -/
def State.int32 (s : State) (c : Ctx) (m : Mods) (d : Reg) (srcs : List Reg) (v : Word) : State :=
  s.lane c m [one d] [] (srcs.map one) (LaneResult.ofRegs [(d.val, v)])

/-- A form on register pairs (R115, R116). -/
def State.int64 (s : State) (c : Ctx) (m : Mods) (d : Reg) (srcs : List Reg) (v : DWord) : State :=
  s.lane c m [pair d] [] (srcs.map pair) (LaneResult.ofRegs (pairWrites d v))

/-- ADD (R116). -/
def execAdd (m : Mods) (d a b : Reg) (s : State) : Host.Outcome State Fault Refusal :=
  s.run fun c => s.int32 c m d [a, b] (elAdd m.sat (s.reg32 c.t a) (s.reg32 c.t b))

/-- SUB (R116). -/
def execSub (m : Mods) (d a b : Reg) (s : State) : Host.Outcome State Fault Refusal :=
  s.run fun c => s.int32 c m d [a, b] (elSub m.sat (s.reg32 c.t a) (s.reg32 c.t b))

/-- MUL (R116). -/
def execMul (m : Mods) (d a b : Reg) (s : State) : Host.Outcome State Fault Refusal :=
  s.run fun c => s.int32 c m d [a, b] (elMul m.sat (s.reg32 c.t a) (s.reg32 c.t b))

/-- MULHS (R116). -/
def execMulhs (m : Mods) (d a b : Reg) (s : State) : Host.Outcome State Fault Refusal :=
  s.run fun c => s.int32 c m d [a, b] (elMulhs (s.reg32 c.t a) (s.reg32 c.t b))

/-- MULHU (R116). -/
def execMulhu (m : Mods) (d a b : Reg) (s : State) : Host.Outcome State Fault Refusal :=
  s.run fun c => s.int32 c m d [a, b] (elMulhu (s.reg32 c.t a) (s.reg32 c.t b))

/-- MINS (R116). -/
def execMins (m : Mods) (d a b : Reg) (s : State) : Host.Outcome State Fault Refusal :=
  s.run fun c => s.int32 c m d [a, b] (elMins (s.reg32 c.t a) (s.reg32 c.t b))

/-- MINU (R116). -/
def execMinu (m : Mods) (d a b : Reg) (s : State) : Host.Outcome State Fault Refusal :=
  s.run fun c => s.int32 c m d [a, b] (elMinu (s.reg32 c.t a) (s.reg32 c.t b))

/-- MAXS (R116). -/
def execMaxs (m : Mods) (d a b : Reg) (s : State) : Host.Outcome State Fault Refusal :=
  s.run fun c => s.int32 c m d [a, b] (elMaxs (s.reg32 c.t a) (s.reg32 c.t b))

/-- MAXU (R116). -/
def execMaxu (m : Mods) (d a b : Reg) (s : State) : Host.Outcome State Fault Refusal :=
  s.run fun c => s.int32 c m d [a, b] (elMaxu (s.reg32 c.t a) (s.reg32 c.t b))

/-- AND (R116). -/
def execAnd (m : Mods) (d a b : Reg) (s : State) : Host.Outcome State Fault Refusal :=
  s.run fun c => s.int32 c m d [a, b] (elAnd (s.reg32 c.t a) (s.reg32 c.t b))

/-- OR (R116). -/
def execOr (m : Mods) (d a b : Reg) (s : State) : Host.Outcome State Fault Refusal :=
  s.run fun c => s.int32 c m d [a, b] (elOr (s.reg32 c.t a) (s.reg32 c.t b))

/-- XOR (R116). -/
def execXor (m : Mods) (d a b : Reg) (s : State) : Host.Outcome State Fault Refusal :=
  s.run fun c => s.int32 c m d [a, b] (elXor (s.reg32 c.t a) (s.reg32 c.t b))

/-- ANDN (R116). -/
def execAndn (m : Mods) (d a b : Reg) (s : State) : Host.Outcome State Fault Refusal :=
  s.run fun c => s.int32 c m d [a, b] (elAndn (s.reg32 c.t a) (s.reg32 c.t b))

/-- SHL (R116). -/
def execShl (m : Mods) (d a b : Reg) (s : State) : Host.Outcome State Fault Refusal :=
  s.run fun c => s.int32 c m d [a, b] (elShl (s.reg32 c.t a) (s.reg32 c.t b))

/-- SHR (R116). -/
def execShr (m : Mods) (d a b : Reg) (s : State) : Host.Outcome State Fault Refusal :=
  s.run fun c => s.int32 c m d [a, b] (elShr (s.reg32 c.t a) (s.reg32 c.t b))

/-- SAR (R116). -/
def execSar (m : Mods) (d a b : Reg) (s : State) : Host.Outcome State Fault Refusal :=
  s.run fun c => s.int32 c m d [a, b] (elSar (s.reg32 c.t a) (s.reg32 c.t b))

/-- ROL (R116). -/
def execRol (m : Mods) (d a b : Reg) (s : State) : Host.Outcome State Fault Refusal :=
  s.run fun c => s.int32 c m d [a, b] (elRol (s.reg32 c.t a) (s.reg32 c.t b))

/-- ROR (R116). -/
def execRor (m : Mods) (d a b : Reg) (s : State) : Host.Outcome State Fault Refusal :=
  s.run fun c => s.int32 c m d [a, b] (elRor (s.reg32 c.t a) (s.reg32 c.t b))

/-- CLZ (R116). -/
def execClz (m : Mods) (d a : Reg) (s : State) : Host.Outcome State Fault Refusal :=
  s.run fun c => s.int32 c m d [a] (elClz (s.reg32 c.t a))

/-- FFS (R116). -/
def execFfs (m : Mods) (d a : Reg) (s : State) : Host.Outcome State Fault Refusal :=
  s.run fun c => s.int32 c m d [a] (elFfs (s.reg32 c.t a))

/-- POPC (R116). -/
def execPopc (m : Mods) (d a : Reg) (s : State) : Host.Outcome State Fault Refusal :=
  s.run fun c => s.int32 c m d [a] (elPopc (s.reg32 c.t a))

/-- BREV (R116). -/
def execBrev (m : Mods) (d a : Reg) (s : State) : Host.Outcome State Fault Refusal :=
  s.run fun c => s.int32 c m d [a] (elBrev (s.reg32 c.t a))

/-- ABS (R116). -/
def execAbs (m : Mods) (d a : Reg) (s : State) : Host.Outcome State Fault Refusal :=
  s.run fun c => s.int32 c m d [a] (elAbs m.sat (s.reg32 c.t a))

/-- NEG (R116). -/
def execNeg (m : Mods) (d a : Reg) (s : State) : Host.Outcome State Fault Refusal :=
  s.run fun c => s.int32 c m d [a] (elNeg m.sat (s.reg32 c.t a))

/-- ADDUS (R116). -/
def execAddus (m : Mods) (d a b : Reg) (s : State) : Host.Outcome State Fault Refusal :=
  s.run fun c => s.int32 c m d [a, b] (elAddus (s.reg32 c.t a) (s.reg32 c.t b))

/-- SUBUS (R116). -/
def execSubus (m : Mods) (d a b : Reg) (s : State) : Host.Outcome State Fault Refusal :=
  s.run fun c => s.int32 c m d [a, b] (elSubus (s.reg32 c.t a) (s.reg32 c.t b))

/-- MULWS (R116): the exact 64-bit product. -/
def execMulws (m : Mods) (d a b : Reg) (s : State) : Host.Outcome State Fault Refusal :=
  s.run fun c => s.lane c m [pair d] [] [one a, one b]
    (LaneResult.ofRegs (pairWrites d (BitVec.ofInt 64 ((s.reg32 c.t a).toInt * (s.reg32 c.t b).toInt))))

/-- MULWU (R116): the exact 64-bit product. -/
def execMulwu (m : Mods) (d a b : Reg) (s : State) : Host.Outcome State Fault Refusal :=
  s.run fun c => s.lane c m [pair d] [] [one a, one b]
    (LaneResult.ofRegs (pairWrites d (BitVec.ofNat 64 ((s.reg32 c.t a).toNat * (s.reg32 c.t b).toNat))))

/-- ADD_X2 (R116). -/
def execAddX2 (m : Mods) (d a b : Reg) (s : State) : Host.Outcome State Fault Refusal :=
  s.run fun c => s.int32 c m d [a, b] (mapX2 (elAdd m.sat) (s.reg32 c.t a) (s.reg32 c.t b))

/-- SUB_X2 (R116). -/
def execSubX2 (m : Mods) (d a b : Reg) (s : State) : Host.Outcome State Fault Refusal :=
  s.run fun c => s.int32 c m d [a, b] (mapX2 (elSub m.sat) (s.reg32 c.t a) (s.reg32 c.t b))

/-- MUL_X2 (R116). -/
def execMulX2 (m : Mods) (d a b : Reg) (s : State) : Host.Outcome State Fault Refusal :=
  s.run fun c => s.int32 c m d [a, b] (mapX2 (elMul m.sat) (s.reg32 c.t a) (s.reg32 c.t b))

/-- MULHS_X2 (R116). -/
def execMulhsX2 (m : Mods) (d a b : Reg) (s : State) : Host.Outcome State Fault Refusal :=
  s.run fun c => s.int32 c m d [a, b] (mapX2 elMulhs (s.reg32 c.t a) (s.reg32 c.t b))

/-- MULHU_X2 (R116). -/
def execMulhuX2 (m : Mods) (d a b : Reg) (s : State) : Host.Outcome State Fault Refusal :=
  s.run fun c => s.int32 c m d [a, b] (mapX2 elMulhu (s.reg32 c.t a) (s.reg32 c.t b))

/-- MINS_X2 (R116). -/
def execMinsX2 (m : Mods) (d a b : Reg) (s : State) : Host.Outcome State Fault Refusal :=
  s.run fun c => s.int32 c m d [a, b] (mapX2 elMins (s.reg32 c.t a) (s.reg32 c.t b))

/-- MINU_X2 (R116). -/
def execMinuX2 (m : Mods) (d a b : Reg) (s : State) : Host.Outcome State Fault Refusal :=
  s.run fun c => s.int32 c m d [a, b] (mapX2 elMinu (s.reg32 c.t a) (s.reg32 c.t b))

/-- MAXS_X2 (R116). -/
def execMaxsX2 (m : Mods) (d a b : Reg) (s : State) : Host.Outcome State Fault Refusal :=
  s.run fun c => s.int32 c m d [a, b] (mapX2 elMaxs (s.reg32 c.t a) (s.reg32 c.t b))

/-- MAXU_X2 (R116). -/
def execMaxuX2 (m : Mods) (d a b : Reg) (s : State) : Host.Outcome State Fault Refusal :=
  s.run fun c => s.int32 c m d [a, b] (mapX2 elMaxu (s.reg32 c.t a) (s.reg32 c.t b))

/-- AND_X2 (R116). -/
def execAndX2 (m : Mods) (d a b : Reg) (s : State) : Host.Outcome State Fault Refusal :=
  s.run fun c => s.int32 c m d [a, b] (mapX2 elAnd (s.reg32 c.t a) (s.reg32 c.t b))

/-- OR_X2 (R116). -/
def execOrX2 (m : Mods) (d a b : Reg) (s : State) : Host.Outcome State Fault Refusal :=
  s.run fun c => s.int32 c m d [a, b] (mapX2 elOr (s.reg32 c.t a) (s.reg32 c.t b))

/-- XOR_X2 (R116). -/
def execXorX2 (m : Mods) (d a b : Reg) (s : State) : Host.Outcome State Fault Refusal :=
  s.run fun c => s.int32 c m d [a, b] (mapX2 elXor (s.reg32 c.t a) (s.reg32 c.t b))

/-- ANDN_X2 (R116). -/
def execAndnX2 (m : Mods) (d a b : Reg) (s : State) : Host.Outcome State Fault Refusal :=
  s.run fun c => s.int32 c m d [a, b] (mapX2 elAndn (s.reg32 c.t a) (s.reg32 c.t b))

/-- SHL_X2 (R116). -/
def execShlX2 (m : Mods) (d a b : Reg) (s : State) : Host.Outcome State Fault Refusal :=
  s.run fun c => s.int32 c m d [a, b] (mapX2 elShl (s.reg32 c.t a) (s.reg32 c.t b))

/-- SHR_X2 (R116). -/
def execShrX2 (m : Mods) (d a b : Reg) (s : State) : Host.Outcome State Fault Refusal :=
  s.run fun c => s.int32 c m d [a, b] (mapX2 elShr (s.reg32 c.t a) (s.reg32 c.t b))

/-- SAR_X2 (R116). -/
def execSarX2 (m : Mods) (d a b : Reg) (s : State) : Host.Outcome State Fault Refusal :=
  s.run fun c => s.int32 c m d [a, b] (mapX2 elSar (s.reg32 c.t a) (s.reg32 c.t b))

/-- ROL_X2 (R116). -/
def execRolX2 (m : Mods) (d a b : Reg) (s : State) : Host.Outcome State Fault Refusal :=
  s.run fun c => s.int32 c m d [a, b] (mapX2 elRol (s.reg32 c.t a) (s.reg32 c.t b))

/-- ROR_X2 (R116). -/
def execRorX2 (m : Mods) (d a b : Reg) (s : State) : Host.Outcome State Fault Refusal :=
  s.run fun c => s.int32 c m d [a, b] (mapX2 elRor (s.reg32 c.t a) (s.reg32 c.t b))

/-- CLZ_X2 (R116). -/
def execClzX2 (m : Mods) (d a : Reg) (s : State) : Host.Outcome State Fault Refusal :=
  s.run fun c => s.int32 c m d [a] (mapX2 (fun x _ => elClz x) (s.reg32 c.t a) 0)

/-- FFS_X2 (R116). -/
def execFfsX2 (m : Mods) (d a : Reg) (s : State) : Host.Outcome State Fault Refusal :=
  s.run fun c => s.int32 c m d [a] (mapX2 (fun x _ => elFfs x) (s.reg32 c.t a) 0)

/-- POPC_X2 (R116). -/
def execPopcX2 (m : Mods) (d a : Reg) (s : State) : Host.Outcome State Fault Refusal :=
  s.run fun c => s.int32 c m d [a] (mapX2 (fun x _ => elPopc x) (s.reg32 c.t a) 0)

/-- BREV_X2 (R116). -/
def execBrevX2 (m : Mods) (d a : Reg) (s : State) : Host.Outcome State Fault Refusal :=
  s.run fun c => s.int32 c m d [a] (mapX2 (fun x _ => elBrev x) (s.reg32 c.t a) 0)

/-- ABS_X2 (R116). -/
def execAbsX2 (m : Mods) (d a : Reg) (s : State) : Host.Outcome State Fault Refusal :=
  s.run fun c => s.int32 c m d [a] (mapX2 (fun x _ => elAbs m.sat x) (s.reg32 c.t a) 0)

/-- NEG_X2 (R116). -/
def execNegX2 (m : Mods) (d a : Reg) (s : State) : Host.Outcome State Fault Refusal :=
  s.run fun c => s.int32 c m d [a] (mapX2 (fun x _ => elNeg m.sat x) (s.reg32 c.t a) 0)

/-- ADDUS_X2 (R116). -/
def execAddusX2 (m : Mods) (d a b : Reg) (s : State) : Host.Outcome State Fault Refusal :=
  s.run fun c => s.int32 c m d [a, b] (mapX2 elAddus (s.reg32 c.t a) (s.reg32 c.t b))

/-- SUBUS_X2 (R116). -/
def execSubusX2 (m : Mods) (d a b : Reg) (s : State) : Host.Outcome State Fault Refusal :=
  s.run fun c => s.int32 c m d [a, b] (mapX2 elSubus (s.reg32 c.t a) (s.reg32 c.t b))

/-- ADD_X4 (R116). -/
def execAddX4 (m : Mods) (d a b : Reg) (s : State) : Host.Outcome State Fault Refusal :=
  s.run fun c => s.int32 c m d [a, b] (mapX4 (elAdd m.sat) (s.reg32 c.t a) (s.reg32 c.t b))

/-- SUB_X4 (R116). -/
def execSubX4 (m : Mods) (d a b : Reg) (s : State) : Host.Outcome State Fault Refusal :=
  s.run fun c => s.int32 c m d [a, b] (mapX4 (elSub m.sat) (s.reg32 c.t a) (s.reg32 c.t b))

/-- MUL_X4 (R116). -/
def execMulX4 (m : Mods) (d a b : Reg) (s : State) : Host.Outcome State Fault Refusal :=
  s.run fun c => s.int32 c m d [a, b] (mapX4 (elMul m.sat) (s.reg32 c.t a) (s.reg32 c.t b))

/-- MULHS_X4 (R116). -/
def execMulhsX4 (m : Mods) (d a b : Reg) (s : State) : Host.Outcome State Fault Refusal :=
  s.run fun c => s.int32 c m d [a, b] (mapX4 elMulhs (s.reg32 c.t a) (s.reg32 c.t b))

/-- MULHU_X4 (R116). -/
def execMulhuX4 (m : Mods) (d a b : Reg) (s : State) : Host.Outcome State Fault Refusal :=
  s.run fun c => s.int32 c m d [a, b] (mapX4 elMulhu (s.reg32 c.t a) (s.reg32 c.t b))

/-- MINS_X4 (R116). -/
def execMinsX4 (m : Mods) (d a b : Reg) (s : State) : Host.Outcome State Fault Refusal :=
  s.run fun c => s.int32 c m d [a, b] (mapX4 elMins (s.reg32 c.t a) (s.reg32 c.t b))

/-- MINU_X4 (R116). -/
def execMinuX4 (m : Mods) (d a b : Reg) (s : State) : Host.Outcome State Fault Refusal :=
  s.run fun c => s.int32 c m d [a, b] (mapX4 elMinu (s.reg32 c.t a) (s.reg32 c.t b))

/-- MAXS_X4 (R116). -/
def execMaxsX4 (m : Mods) (d a b : Reg) (s : State) : Host.Outcome State Fault Refusal :=
  s.run fun c => s.int32 c m d [a, b] (mapX4 elMaxs (s.reg32 c.t a) (s.reg32 c.t b))

/-- MAXU_X4 (R116). -/
def execMaxuX4 (m : Mods) (d a b : Reg) (s : State) : Host.Outcome State Fault Refusal :=
  s.run fun c => s.int32 c m d [a, b] (mapX4 elMaxu (s.reg32 c.t a) (s.reg32 c.t b))

/-- AND_X4 (R116). -/
def execAndX4 (m : Mods) (d a b : Reg) (s : State) : Host.Outcome State Fault Refusal :=
  s.run fun c => s.int32 c m d [a, b] (mapX4 elAnd (s.reg32 c.t a) (s.reg32 c.t b))

/-- OR_X4 (R116). -/
def execOrX4 (m : Mods) (d a b : Reg) (s : State) : Host.Outcome State Fault Refusal :=
  s.run fun c => s.int32 c m d [a, b] (mapX4 elOr (s.reg32 c.t a) (s.reg32 c.t b))

/-- XOR_X4 (R116). -/
def execXorX4 (m : Mods) (d a b : Reg) (s : State) : Host.Outcome State Fault Refusal :=
  s.run fun c => s.int32 c m d [a, b] (mapX4 elXor (s.reg32 c.t a) (s.reg32 c.t b))

/-- ANDN_X4 (R116). -/
def execAndnX4 (m : Mods) (d a b : Reg) (s : State) : Host.Outcome State Fault Refusal :=
  s.run fun c => s.int32 c m d [a, b] (mapX4 elAndn (s.reg32 c.t a) (s.reg32 c.t b))

/-- SHL_X4 (R116). -/
def execShlX4 (m : Mods) (d a b : Reg) (s : State) : Host.Outcome State Fault Refusal :=
  s.run fun c => s.int32 c m d [a, b] (mapX4 elShl (s.reg32 c.t a) (s.reg32 c.t b))

/-- SHR_X4 (R116). -/
def execShrX4 (m : Mods) (d a b : Reg) (s : State) : Host.Outcome State Fault Refusal :=
  s.run fun c => s.int32 c m d [a, b] (mapX4 elShr (s.reg32 c.t a) (s.reg32 c.t b))

/-- SAR_X4 (R116). -/
def execSarX4 (m : Mods) (d a b : Reg) (s : State) : Host.Outcome State Fault Refusal :=
  s.run fun c => s.int32 c m d [a, b] (mapX4 elSar (s.reg32 c.t a) (s.reg32 c.t b))

/-- ROL_X4 (R116). -/
def execRolX4 (m : Mods) (d a b : Reg) (s : State) : Host.Outcome State Fault Refusal :=
  s.run fun c => s.int32 c m d [a, b] (mapX4 elRol (s.reg32 c.t a) (s.reg32 c.t b))

/-- ROR_X4 (R116). -/
def execRorX4 (m : Mods) (d a b : Reg) (s : State) : Host.Outcome State Fault Refusal :=
  s.run fun c => s.int32 c m d [a, b] (mapX4 elRor (s.reg32 c.t a) (s.reg32 c.t b))

/-- CLZ_X4 (R116). -/
def execClzX4 (m : Mods) (d a : Reg) (s : State) : Host.Outcome State Fault Refusal :=
  s.run fun c => s.int32 c m d [a] (mapX4 (fun x _ => elClz x) (s.reg32 c.t a) 0)

/-- FFS_X4 (R116). -/
def execFfsX4 (m : Mods) (d a : Reg) (s : State) : Host.Outcome State Fault Refusal :=
  s.run fun c => s.int32 c m d [a] (mapX4 (fun x _ => elFfs x) (s.reg32 c.t a) 0)

/-- POPC_X4 (R116). -/
def execPopcX4 (m : Mods) (d a : Reg) (s : State) : Host.Outcome State Fault Refusal :=
  s.run fun c => s.int32 c m d [a] (mapX4 (fun x _ => elPopc x) (s.reg32 c.t a) 0)

/-- BREV_X4 (R116). -/
def execBrevX4 (m : Mods) (d a : Reg) (s : State) : Host.Outcome State Fault Refusal :=
  s.run fun c => s.int32 c m d [a] (mapX4 (fun x _ => elBrev x) (s.reg32 c.t a) 0)

/-- ABS_X4 (R116). -/
def execAbsX4 (m : Mods) (d a : Reg) (s : State) : Host.Outcome State Fault Refusal :=
  s.run fun c => s.int32 c m d [a] (mapX4 (fun x _ => elAbs m.sat x) (s.reg32 c.t a) 0)

/-- NEG_X4 (R116). -/
def execNegX4 (m : Mods) (d a : Reg) (s : State) : Host.Outcome State Fault Refusal :=
  s.run fun c => s.int32 c m d [a] (mapX4 (fun x _ => elNeg m.sat x) (s.reg32 c.t a) 0)

/-- ADDUS_X4 (R116). -/
def execAddusX4 (m : Mods) (d a b : Reg) (s : State) : Host.Outcome State Fault Refusal :=
  s.run fun c => s.int32 c m d [a, b] (mapX4 elAddus (s.reg32 c.t a) (s.reg32 c.t b))

/-- SUBUS_X4 (R116). -/
def execSubusX4 (m : Mods) (d a b : Reg) (s : State) : Host.Outcome State Fault Refusal :=
  s.run fun c => s.int32 c m d [a, b] (mapX4 elSubus (s.reg32 c.t a) (s.reg32 c.t b))

/-- ADD_64 (R116). -/
def execAdd64 (m : Mods) (d a b : Reg) (s : State) : Host.Outcome State Fault Refusal :=
  s.run fun c => s.int64 c m d [a, b] (elAdd m.sat (s.reg64 c.t a) (s.reg64 c.t b))

/-- SUB_64 (R116). -/
def execSub64 (m : Mods) (d a b : Reg) (s : State) : Host.Outcome State Fault Refusal :=
  s.run fun c => s.int64 c m d [a, b] (elSub m.sat (s.reg64 c.t a) (s.reg64 c.t b))

/-- MUL_64 (R116). -/
def execMul64 (m : Mods) (d a b : Reg) (s : State) : Host.Outcome State Fault Refusal :=
  s.run fun c => s.int64 c m d [a, b] (elMul m.sat (s.reg64 c.t a) (s.reg64 c.t b))

/-- MULHS_64 (R116). -/
def execMulhs64 (m : Mods) (d a b : Reg) (s : State) : Host.Outcome State Fault Refusal :=
  s.run fun c => s.int64 c m d [a, b] (elMulhs (s.reg64 c.t a) (s.reg64 c.t b))

/-- MULHU_64 (R116). -/
def execMulhu64 (m : Mods) (d a b : Reg) (s : State) : Host.Outcome State Fault Refusal :=
  s.run fun c => s.int64 c m d [a, b] (elMulhu (s.reg64 c.t a) (s.reg64 c.t b))

/-- MINS_64 (R116). -/
def execMins64 (m : Mods) (d a b : Reg) (s : State) : Host.Outcome State Fault Refusal :=
  s.run fun c => s.int64 c m d [a, b] (elMins (s.reg64 c.t a) (s.reg64 c.t b))

/-- MINU_64 (R116). -/
def execMinu64 (m : Mods) (d a b : Reg) (s : State) : Host.Outcome State Fault Refusal :=
  s.run fun c => s.int64 c m d [a, b] (elMinu (s.reg64 c.t a) (s.reg64 c.t b))

/-- MAXS_64 (R116). -/
def execMaxs64 (m : Mods) (d a b : Reg) (s : State) : Host.Outcome State Fault Refusal :=
  s.run fun c => s.int64 c m d [a, b] (elMaxs (s.reg64 c.t a) (s.reg64 c.t b))

/-- MAXU_64 (R116). -/
def execMaxu64 (m : Mods) (d a b : Reg) (s : State) : Host.Outcome State Fault Refusal :=
  s.run fun c => s.int64 c m d [a, b] (elMaxu (s.reg64 c.t a) (s.reg64 c.t b))

/-- AND_64 (R116). -/
def execAnd64 (m : Mods) (d a b : Reg) (s : State) : Host.Outcome State Fault Refusal :=
  s.run fun c => s.int64 c m d [a, b] (elAnd (s.reg64 c.t a) (s.reg64 c.t b))

/-- OR_64 (R116). -/
def execOr64 (m : Mods) (d a b : Reg) (s : State) : Host.Outcome State Fault Refusal :=
  s.run fun c => s.int64 c m d [a, b] (elOr (s.reg64 c.t a) (s.reg64 c.t b))

/-- XOR_64 (R116). -/
def execXor64 (m : Mods) (d a b : Reg) (s : State) : Host.Outcome State Fault Refusal :=
  s.run fun c => s.int64 c m d [a, b] (elXor (s.reg64 c.t a) (s.reg64 c.t b))

/-- ANDN_64 (R116). -/
def execAndn64 (m : Mods) (d a b : Reg) (s : State) : Host.Outcome State Fault Refusal :=
  s.run fun c => s.int64 c m d [a, b] (elAndn (s.reg64 c.t a) (s.reg64 c.t b))

/-- SHL_64 (R116). -/
def execShl64 (m : Mods) (d a b : Reg) (s : State) : Host.Outcome State Fault Refusal :=
  s.run fun c => s.int64 c m d [a, b] (elShl (s.reg64 c.t a) (s.reg64 c.t b))

/-- SHR_64 (R116). -/
def execShr64 (m : Mods) (d a b : Reg) (s : State) : Host.Outcome State Fault Refusal :=
  s.run fun c => s.int64 c m d [a, b] (elShr (s.reg64 c.t a) (s.reg64 c.t b))

/-- SAR_64 (R116). -/
def execSar64 (m : Mods) (d a b : Reg) (s : State) : Host.Outcome State Fault Refusal :=
  s.run fun c => s.int64 c m d [a, b] (elSar (s.reg64 c.t a) (s.reg64 c.t b))

/-- ROL_64 (R116). -/
def execRol64 (m : Mods) (d a b : Reg) (s : State) : Host.Outcome State Fault Refusal :=
  s.run fun c => s.int64 c m d [a, b] (elRol (s.reg64 c.t a) (s.reg64 c.t b))

/-- ROR_64 (R116). -/
def execRor64 (m : Mods) (d a b : Reg) (s : State) : Host.Outcome State Fault Refusal :=
  s.run fun c => s.int64 c m d [a, b] (elRor (s.reg64 c.t a) (s.reg64 c.t b))

/-- CLZ_64 (R116). -/
def execClz64 (m : Mods) (d a : Reg) (s : State) : Host.Outcome State Fault Refusal :=
  s.run fun c => s.int64 c m d [a] (elClz (s.reg64 c.t a))

/-- FFS_64 (R116). -/
def execFfs64 (m : Mods) (d a : Reg) (s : State) : Host.Outcome State Fault Refusal :=
  s.run fun c => s.int64 c m d [a] (elFfs (s.reg64 c.t a))

/-- POPC_64 (R116). -/
def execPopc64 (m : Mods) (d a : Reg) (s : State) : Host.Outcome State Fault Refusal :=
  s.run fun c => s.int64 c m d [a] (elPopc (s.reg64 c.t a))

/-- BREV_64 (R116). -/
def execBrev64 (m : Mods) (d a : Reg) (s : State) : Host.Outcome State Fault Refusal :=
  s.run fun c => s.int64 c m d [a] (elBrev (s.reg64 c.t a))

/-- ABS_64 (R116). -/
def execAbs64 (m : Mods) (d a : Reg) (s : State) : Host.Outcome State Fault Refusal :=
  s.run fun c => s.int64 c m d [a] (elAbs m.sat (s.reg64 c.t a))

/-- NEG_64 (R116). -/
def execNeg64 (m : Mods) (d a : Reg) (s : State) : Host.Outcome State Fault Refusal :=
  s.run fun c => s.int64 c m d [a] (elNeg m.sat (s.reg64 c.t a))

/-- ADDUS_64 (R116). -/
def execAddus64 (m : Mods) (d a b : Reg) (s : State) : Host.Outcome State Fault Refusal :=
  s.run fun c => s.int64 c m d [a, b] (elAddus (s.reg64 c.t a) (s.reg64 c.t b))

/-- SUBUS_64 (R116). -/
def execSubus64 (m : Mods) (d a b : Reg) (s : State) : Host.Outcome State Fault Refusal :=
  s.run fun c => s.int64 c m d [a, b] (elSubus (s.reg64 c.t a) (s.reg64 c.t b))

/-! ## Immediate forms -/

/-- ADDI (R118). -/
def execAddi (m : Mods) (d a : Reg) (i : BitVec 9) (s : State) : Host.Outcome State Fault Refusal :=
  s.run fun c => s.int32 c m d [a] (elAdd m.sat (s.reg32 c.t a) (BitVec.ofInt 32 (immS m.wide i)))

/-- MULI (R118). -/
def execMuli (m : Mods) (d a : Reg) (i : BitVec 9) (s : State) : Host.Outcome State Fault Refusal :=
  s.run fun c => s.int32 c m d [a] (elMul m.sat (s.reg32 c.t a) (BitVec.ofInt 32 (immS m.wide i)))

/-- ANDI (R118). -/
def execAndi (m : Mods) (d a : Reg) (i : BitVec 9) (s : State) : Host.Outcome State Fault Refusal :=
  s.run fun c => s.int32 c m d [a] (elAnd (s.reg32 c.t a) (BitVec.ofNat 32 (immU m.wide i)))

/-- ORI (R118). -/
def execOri (m : Mods) (d a : Reg) (i : BitVec 9) (s : State) : Host.Outcome State Fault Refusal :=
  s.run fun c => s.int32 c m d [a] (elOr (s.reg32 c.t a) (BitVec.ofNat 32 (immU m.wide i)))

/-- XORI (R118). -/
def execXori (m : Mods) (d a : Reg) (i : BitVec 9) (s : State) : Host.Outcome State Fault Refusal :=
  s.run fun c => s.int32 c m d [a] (elXor (s.reg32 c.t a) (BitVec.ofNat 32 (immU m.wide i)))

/-- SHLI (R118). -/
def execShli (m : Mods) (d a : Reg) (i : BitVec 9) (s : State) : Host.Outcome State Fault Refusal :=
  s.run fun c => s.int32 c m d [a] (elShl (s.reg32 c.t a) (BitVec.ofNat 32 (immU m.wide i)))

/-- SHRI (R118). -/
def execShri (m : Mods) (d a : Reg) (i : BitVec 9) (s : State) : Host.Outcome State Fault Refusal :=
  s.run fun c => s.int32 c m d [a] (elShr (s.reg32 c.t a) (BitVec.ofNat 32 (immU m.wide i)))

/-- SARI (R118). -/
def execSari (m : Mods) (d a : Reg) (i : BitVec 9) (s : State) : Host.Outcome State Fault Refusal :=
  s.run fun c => s.int32 c m d [a] (elSar (s.reg32 c.t a) (BitVec.ofNat 32 (immU m.wide i)))

/-- ADDI_64 (R118). -/
def execAddi64 (m : Mods) (d a : Reg) (i : BitVec 9) (s : State) : Host.Outcome State Fault Refusal :=
  s.run fun c => s.int64 c m d [a] (elAdd m.sat (s.reg64 c.t a) (BitVec.ofInt 64 (immS m.wide i)))

/-- MULI_64 (R118). -/
def execMuli64 (m : Mods) (d a : Reg) (i : BitVec 9) (s : State) : Host.Outcome State Fault Refusal :=
  s.run fun c => s.int64 c m d [a] (elMul m.sat (s.reg64 c.t a) (BitVec.ofInt 64 (immS m.wide i)))

/-- ANDI_64 (R118). -/
def execAndi64 (m : Mods) (d a : Reg) (i : BitVec 9) (s : State) : Host.Outcome State Fault Refusal :=
  s.run fun c => s.int64 c m d [a] (elAnd (s.reg64 c.t a) (BitVec.ofNat 64 (immU m.wide i)))

/-- ORI_64 (R118). -/
def execOri64 (m : Mods) (d a : Reg) (i : BitVec 9) (s : State) : Host.Outcome State Fault Refusal :=
  s.run fun c => s.int64 c m d [a] (elOr (s.reg64 c.t a) (BitVec.ofNat 64 (immU m.wide i)))

/-- XORI_64 (R118). -/
def execXori64 (m : Mods) (d a : Reg) (i : BitVec 9) (s : State) : Host.Outcome State Fault Refusal :=
  s.run fun c => s.int64 c m d [a] (elXor (s.reg64 c.t a) (BitVec.ofNat 64 (immU m.wide i)))

/-- SHLI_64 (R118). -/
def execShli64 (m : Mods) (d a : Reg) (i : BitVec 9) (s : State) : Host.Outcome State Fault Refusal :=
  s.run fun c => s.int64 c m d [a] (elShl (s.reg64 c.t a) (BitVec.ofNat 64 (immU m.wide i)))

/-- SHRI_64 (R118). -/
def execShri64 (m : Mods) (d a : Reg) (i : BitVec 9) (s : State) : Host.Outcome State Fault Refusal :=
  s.run fun c => s.int64 c m d [a] (elShr (s.reg64 c.t a) (BitVec.ofNat 64 (immU m.wide i)))

/-- SARI_64 (R118). -/
def execSari64 (m : Mods) (d a : Reg) (i : BitVec 9) (s : State) : Host.Outcome State Fault Refusal :=
  s.run fun c => s.int64 c m d [a] (elSar (s.reg64 c.t a) (BitVec.ofNat 64 (immU m.wide i)))

/-! ## Bit fields -/

/-- The effective length of the field (R119). -/
def fieldLen (p l : Fin 32) : Nat := min (l.val + 1) (32 - p.val)

/-- The field of BFEZ and BFES, zero-extended. -/
def fieldOf (a : Word) (p l : Fin 32) : Nat := bits a.toNat (p.val + fieldLen p l - 1) p.val

/-- BFES: the field with its top bit as the sign. -/
def fieldSigned (a : Word) (p l : Fin 32) : Word :=
  let f := fieldOf a p l
  let n := fieldLen p l
  BitVec.ofInt 32 (if 2 ^ (n - 1) ≤ f then (f : Int) - 2 ^ n else f)

/-- BFI: the low bits of a inserted into d. -/
def fieldInsert (d a : Word) (p l : Fin 32) : Word :=
  let mask := BitVec.ofNat 32 ((2 ^ fieldLen p l - 1) * 2 ^ p.val)
  (d &&& ~~~mask) ||| ((a <<< p.val) &&& mask)

/-- BFEZ (R119). -/
def execBfez (m : Mods) (d a : Reg) (p l : Fin 32) (s : State) : Host.Outcome State Fault Refusal :=
  s.run fun c => s.int32 c m d [a] (BitVec.ofNat 32 (fieldOf (s.reg32 c.t a) p l))

/-- BFES (R119). -/
def execBfes (m : Mods) (d a : Reg) (p l : Fin 32) (s : State) : Host.Outcome State Fault Refusal :=
  s.run fun c => s.int32 c m d [a] (fieldSigned (s.reg32 c.t a) p l)

/-- BFI (R119): it reads its destination. -/
def execBfi (m : Mods) (d a : Reg) (p l : Fin 32) (s : State) : Host.Outcome State Fault Refusal :=
  s.run fun c => s.int32 c m d [a, d] (fieldInsert (s.reg32 c.t d) (s.reg32 c.t a) p l)

/-! ## Moves and addresses -/

/-- MOVI (R120). -/
def execMovi (m : Mods) (d : Reg) (i : BitVec 9) (s : State) : Host.Outcome State Fault Refusal :=
  s.run fun c => s.int32 c m d [] (BitVec.ofInt 32 (immS m.wide i))

/-- MOVDI (R120). -/
def execMovdi (m : Mods) (d : Reg) (i : BitVec 9) (s : State) : Host.Outcome State Fault Refusal :=
  s.run fun c => s.int64 c m d [] (BitVec.ofInt 64 (immS m.wide i))

/-- LEAI (R120). -/
def execLeai (m : Mods) (d a : Reg) (i : BitVec 9) (s : State) : Host.Outcome State Fault Refusal :=
  s.run fun c => s.int64 c m d [a] (s.reg64 c.t a + BitVec.ofInt 64 (immS m.wide i))

/-- MOV (R120). -/
def execMov (m : Mods) (d a : Reg) (s : State) : Host.Outcome State Fault Refusal :=
  s.run fun c => s.int32 c m d [a] (s.reg32 c.t a)

/-- MOVD (R120). -/
def execMovd (m : Mods) (d a : Reg) (s : State) : Host.Outcome State Fault Refusal :=
  s.run fun c => s.int64 c m d [a] (s.reg64 c.t a)

/-- MOVQ (R120). -/
def execMovq (m : Mods) (d a : Reg) (s : State) : Host.Outcome State Fault Refusal :=
  s.run fun c => s.lane c m [quad d] [] [quad a] (LaneResult.ofRegs (toRegs d.val 4 (s.regN c.t a.val 4)))

/-- LEAS (R121). -/
def execLeas (m : Mods) (d a b : Reg) (sh : Fin 4) (s : State) : Host.Outcome State Fault Refusal :=
  s.run fun c => s.lane c m [pair d] [] [pair a, one b]
    (LaneResult.ofRegs (pairWrites d (s.reg64 c.t a + BitVec.ofInt 64 ((s.reg32 c.t b).toInt * 2 ^ sh.val))))

/-- LEAZ (R121). -/
def execLeaz (m : Mods) (d a b : Reg) (sh : Fin 4) (s : State) : Host.Outcome State Fault Refusal :=
  s.run fun c => s.lane c m [pair d] [] [pair a, one b]
    (LaneResult.ofRegs (pairWrites d (s.reg64 c.t a + BitVec.ofNat 64 ((s.reg32 c.t b).toNat * 2 ^ sh.val))))

/-! ## Multiply-add -/

/-- The register that holds the addend: OPD4 with a prefix, else the destination (R59, R122). -/
def addend (m : Mods) (d : Reg) : Reg :=
  match m.pre with
  | none => d
  | some p => p.opd4

/-- MAD (R122). -/
def execMad (m : Mods) (d a b : Reg) (s : State) : Host.Outcome State Fault Refusal :=
  s.run fun c => s.int32 c m d [a, b, addend m d]
    (narrowS m.sat ((s.reg32 c.t a).toInt * (s.reg32 c.t b).toInt + (s.reg32 c.t (addend m d)).toInt))

/-- MADWS (R122). -/
def execMadws (m : Mods) (d a b : Reg) (s : State) : Host.Outcome State Fault Refusal :=
  s.run fun c => s.lane c m [pair d] [] [one a, one b, pair (addend m d)]
    (LaneResult.ofRegs (pairWrites d
      (narrowS m.sat ((s.reg32 c.t a).toInt * (s.reg32 c.t b).toInt + (s.reg64 c.t (addend m d)).toInt))))

/-- MADWU (R122). -/
def execMadwu (m : Mods) (d a b : Reg) (s : State) : Host.Outcome State Fault Refusal :=
  s.run fun c => s.lane c m [pair d] [] [one a, one b, pair (addend m d)]
    (LaneResult.ofRegs (pairWrites d
      (narrowU m.sat ((s.reg32 c.t a).toNat * (s.reg32 c.t b).toNat + (s.reg64 c.t (addend m d)).toNat))))

/-- Byte k of a register. -/
def byteOf (a : Word) (k : Nat) : BitVec 8 := a.extractLsb' (8 * k) 8

/-- The signed dot product of the bytes of two registers. -/
def dotS (a b : Word) : Int := (List.range 4).foldl (fun v k => v + (byteOf a k).toInt * (byteOf b k).toInt) 0

/-- The unsigned dot product of the bytes of two registers. -/
def dotU (a b : Word) : Nat := (List.range 4).foldl (fun v k => v + (byteOf a k).toNat * (byteOf b k).toNat) 0

/-- DP4S (R122). -/
def execDp4s (m : Mods) (d a b : Reg) (s : State) : Host.Outcome State Fault Refusal :=
  s.run fun c => s.int32 c m d [a, b, addend m d]
    (narrowS m.sat ((s.reg32 c.t (addend m d)).toInt + dotS (s.reg32 c.t a) (s.reg32 c.t b)))

/-- DP4U (R122). -/
def execDp4u (m : Mods) (d a b : Reg) (s : State) : Host.Outcome State Fault Refusal :=
  s.run fun c => s.int32 c m d [a, b, addend m d]
    (narrowU m.sat ((s.reg32 c.t (addend m d)).toNat + dotU (s.reg32 c.t a) (s.reg32 c.t b) : Nat))

/-! ## Integer compares -/

/-- The relation of COND on two exact values; conditions that no integer type allows are false (R67,
R124). -/
def relation (c : Cond) (a b : Int) : Bool :=
  match c with
  | .eq | .ueq => a == b
  | .ne | .une => a != b
  | .lt | .ult => decide (a < b)
  | .le | .ule => decide (a ≤ b)
  | .gt | .ugt => decide (b < a)
  | .ge | .uge => decide (b ≤ a)
  | .num => true
  | .nan => false

/-- The value of an integer compare operand (R124). -/
def State.intOperand (s : State) (t : Thread) (ty : IntType) (r : Reg) : Int :=
  match ty with
  | .s32 => (s.reg32 t r).toInt
  | .u32 => (s.reg32 t r).toNat
  | .s64 => (s.reg64 t r).toInt
  | .u64 => (s.reg64 t r).toNat

/-- The immediate of an integer compare, wrapped to the type (R60, R124). -/
def intImmediate (ty : IntType) (m : Mods) (i : BitVec 10) : Int :=
  match ty with
  | .s32 => (BitVec.ofInt 32 (immS m.wide i)).toInt
  | .u32 => (BitVec.ofNat 32 (immU m.wide i)).toNat
  | .s64 => (BitVec.ofInt 64 (immS m.wide i)).toInt
  | .u64 => (BitVec.ofNat 64 (immU m.wide i)).toNat

/-- CMP_IMM (R124). -/
def execCmpImm (m : Mods) (p : Pred) (a : Reg) (cd : Cond) (ty : IntType) (i : BitVec 10) (s : State) : Host.Outcome State Fault Refusal :=
  s.run fun c => s.lane c m [] [p] [ty.blk a]
    (LaneResult.ofPred p (relation cd (s.intOperand c.t ty a) (intImmediate ty m i)))

/-! ## Select and predicate logic -/

/-- SEL (R125). -/
def execSel (m : Mods) (d a b : Reg) (ps : Pred) (n w : Bool) (s : State) : Host.Outcome State Fault Refusal :=
  s.run fun c =>
    let src := if s.pred c.t ps != n then a else b
    s.lane c m [wide w d] [] [wide w a, wide w b]
      (LaneResult.ofRegs (if w then pairWrites d (s.reg64 c.t src) else [(d.val, s.reg32 c.t src)]))

/-- A form on two predicates (R126). -/
def State.predLogic (s : State) (m : Mods) (p a : Pred) (na : Bool) (b : Pred) (nb : Bool)
    (f : Bool → Bool → Bool) : Host.Outcome State Fault Refusal :=
  s.run fun c => s.lane c m [] [p] []
    (LaneResult.ofPred p (f (s.pred c.t a != na) (s.pred c.t b != nb)))

/-- PAND (R126). -/
def execPand (m : Mods) (p a : Pred) (na : Bool) (b : Pred) (nb : Bool) (s : State) : Host.Outcome State Fault Refusal :=
  s.predLogic m p a na b nb fun x y => x && y

/-- POR (R126). -/
def execPor (m : Mods) (p a : Pred) (na : Bool) (b : Pred) (nb : Bool) (s : State) : Host.Outcome State Fault Refusal :=
  s.predLogic m p a na b nb fun x y => x || y

/-- PXOR (R126). -/
def execPxor (m : Mods) (p a : Pred) (na : Bool) (b : Pred) (nb : Bool) (s : State) : Host.Outcome State Fault Refusal :=
  s.predLogic m p a na b nb fun x y => x != y

/-- P2G (R126). -/
def execP2g (m : Mods) (g : Reg) (s : State) : Host.Outcome State Fault Refusal :=
  s.run fun c => s.int32 c m g [] ((s.predByte c.t).setWidth 32)

/-- The predicates p1 to p7. -/
def upperPreds : List Pred := [1, 2, 3, 4, 5, 6, 7]

/-- G2P (R126). -/
def execG2p (m : Mods) (g : Reg) (s : State) : Host.Outcome State Fault Refusal :=
  s.run fun c => s.lane c m [] upperPreds [one g]
    ⟨[], upperPreds.map fun p => (p, (s.reg32 c.t g).getLsbD p.val), FFlags.clear, false⟩

end Sys2Proof.Machine
end

