-- ==== Sys2Proof/Machine/Ctl.lean ====
section
/-! DEFINITION. The control instructions, majors 0x10 to 0x14, but for EXIT (R127 to R140), and the
decision to eject (R132, R342 to R345). -/

namespace Sys2Proof.Machine

/-! ## Targets -/

/-- The address of the instruction word, past the chain before it. -/
def Thread.wordAt (t : Thread) (m : Mods) : VAddr := t.pc + BitVec.ofNat 56 (4 * m.count)

/-- The target of a relative transfer: the word's address plus four times a signed offset, which a wide immediate
extends (R60, R131, R133). -/
def relTarget {n : Nat} (t : Thread) (m : Mods) (i : BitVec n) : VAddr :=
  t.wordAt m + BitVec.ofInt 56 (4 * immS m.wide i)

/-- A 64-bit target is no canonical address (R128). -/
def noncanon (x : DWord) : Bool := decide (bits x.toNat 63 56 ≠ 0)

/-! ## Ejection -/

/-- The Eddy contexts of a die that a partition holds (R342). -/
def State.eddyHeld (s : State) (part die : Nat) : Nat :=
  (s.threads.filter fun t => t.place.context.isSome && s.threadDie t == die &&
    (match s.ctx? t.id with
     | none => false
     | some c => s.vdPart c.l.dev == part)).length

/-- The contexts that a branch of a partition may take on a die (R342). -/
def State.eddyFree (s : State) (part die : Nat) : Nat :=
  min (96 - s.eddyBusy die) (s.regField (partOff part + 8) (39 + 8 * die) (32 + 8 * die) - s.eddyHeld part die)

/-- The busy contexts of an Eddy core. -/
def State.eddyUsed (s : State) (die core : Nat) : List Nat :=
  s.threads.filterMap fun t =>
    match t.place.context with
    | some (e, x) => if e = core ∧ s.threadDie t = die then some x else none
    | none => none

/-- The context a thread is placed in: the Eddy core with the fewest busy contexts, the lowest on a tie
(R343). -/
def State.eddyPick (s : State) (die : Nat) : Nat × Nat :=
  let core := (List.range 24).foldl (fun best e =>
    if (s.eddyUsed die e).length < (s.eddyUsed die best).length then e else best) 0
  (core, ((List.range 4).find? fun x => !(s.eddyUsed die core).contains x).getD 0)

/-- Counts events of a die's Eddy pool (R344). -/
def State.countEddy (s : State) (die : Nat) (f : EddyCounts → EddyCounts) : State :=
  { s with eddy := s.eddy.mapFinIdx fun i e _ => if i = die then f e else e }

/-- Ejects one thread: it claims a context and issues nothing more at home (R346).  A thread that has
trapped at the branch comes home before its handler runs (R351). -/
def State.eject (s : State) (die id : Nat) : State :=
  let e := s.eddyPick die
  let trapped := s.issuing.trapped.any fun x => x.1 == id
  let team := ((s.thread? id).map fun t => t.team).getD 0
  ((s.countEddy die fun c => { c with ejects := c.ejects + 1 }).countPm team 0x09 1).modThread id fun t =>
    { t with place := if trapped then .recallWanted e.1 e.2 else .leaving e.1 e.2 0 }

/-- Decides ejection for an issue group whose members have executed an ejectable branch (R132, R343). -/
def State.decideEject (s : State) (c : Ctx) : State :=
  let taken := s.issuing.taken
  let stayed := s.issuing.stayed
  let m := if taken.length ≤ stayed.length then taken else stayed
  let thresh := ((taken ++ stayed).filterMap fun id => (s.ctx? id).map fun x => x.tm.ejt).min?.getD 0
  let die := coreDie c.tm.core
  if c.l.det || !decide (0 < m.length ∧ m.length ≤ thresh) then s
  else if s.eddyFree (s.vdPart c.l.dev) die < m.length then
    s.countEddy die fun e => { e with short := e.short + 1 }
  else m.reverse.foldl (fun s id => s.eject die id) s

/-- Notes what a member did at an ejectable branch, and decides after the last member (R132); a member that has
trapped there did not take it (log entry 69).  On an Eddy core the hint has no effect (R345). -/
def State.ejectPoint (s : State) (c : Ctx) (taken : Bool) : State :=
  if c.t.place = .home then
    let i := s.issuing
    let s := { s with issuing :=
      if taken then { i with taken := c.t.id :: i.taken } else { i with stayed := c.t.id :: i.stayed } }
    if i.members.length ≤ 1 then s.decideEject c else s
  else s

/-! ## Branches -/

/-- Ends a branch: the PC moves to the target or past the word (R129, R131), and an ejectable branch may
eject (R132). -/
def State.branch (s : State) (c : Ctx) (m : Mods) (taken : Bool) (target : VAddr) : State :=
  let s' := if taken then s.commit c m 2 (c.t.jump target) else s.fallThrough c m
  if m.sub = 5 then s'.ejectPoint c taken else s'

/-- The governing predicate of a control word holds (R127). -/
def State.guard (s : State) (c : Ctx) (p : Pred) (n : Bool) : Bool := s.pred c.t p != n

/-- BRA (R131). -/
def execBra (m : Mods) (p : Pred) (n : Bool) (i : BitVec 19) (s : State) : Host.Outcome State Fault Refusal :=
  s.run fun c => s.branch c m (s.guard c p n) (relTarget c.t m i)

/-- A compare-and-branch (R131); a member of the issue group that traps at its checks takes no branch (R132). -/
def State.compareBranch (s : State) (m : Mods) (a b : Reg) (o : BitVec 9) (f : Word → Word → Bool) :
    Host.Outcome State Fault Refusal :=
  s.run fun c =>
    let taken := f (s.reg32 c.t a) (s.reg32 c.t b)
    if c.passes [one a, one b] [one a, one b] then s.branch c m taken (relTarget c.t m o)
    else
      let s' := s.checked c [one a, one b] [one a, one b] s
      if m.sub = 5 then s'.ejectPoint c false else s'

/-- BEQ (R131). -/
def execBeq (m : Mods) (a b : Reg) (o : BitVec 9) (s : State) : Host.Outcome State Fault Refusal :=
  s.compareBranch m a b o fun x y => x == y

/-- BNE (R131). -/
def execBne (m : Mods) (a b : Reg) (o : BitVec 9) (s : State) : Host.Outcome State Fault Refusal :=
  s.compareBranch m a b o fun x y => x != y

/-- BLT (R131). -/
def execBlt (m : Mods) (a b : Reg) (o : BitVec 9) (s : State) : Host.Outcome State Fault Refusal :=
  s.compareBranch m a b o fun x y => x.slt y

/-- BGE (R131). -/
def execBge (m : Mods) (a b : Reg) (o : BitVec 9) (s : State) : Host.Outcome State Fault Refusal :=
  s.compareBranch m a b o fun x y => !x.slt y

/-- BLTU (R131). -/
def execBltu (m : Mods) (a b : Reg) (o : BitVec 9) (s : State) : Host.Outcome State Fault Refusal :=
  s.compareBranch m a b o fun x y => x.ult y

/-- BGEU (R131). -/
def execBgeu (m : Mods) (a b : Reg) (o : BitVec 9) (s : State) : Host.Outcome State Fault Refusal :=
  s.compareBranch m a b o fun x y => !x.ult y

/-! ## Calls and returns -/

/-- Pushes a return address (R22). -/
def Flow.push (f : Flow) (a : VAddr) : Flow :=
  { f with rstk := if h : f.depth < 8 then f.rstk.set f.depth a else f.rstk, depth := f.depth + 1 }

/-- A call to a target: the return address is the header after the calling clause (R133, R134). -/
def State.callTo (s : State) (c : Ctx) (m : Mods) (delay : Nat) (target : VAddr) : State :=
  if 8 ≤ c.t.flow.depth then s.deliver c.t .rstackOver (target.setWidth 64)
  else s.commit c m delay ({ c.t with flow := c.t.flow.push c.t.nextHeader }.jump target)

/-- CALL (R133). -/
def execCall (m : Mods) (p : Pred) (n : Bool) (i : BitVec 19) (s : State) : Host.Outcome State Fault Refusal :=
  s.run fun c => if s.guard c p n then s.callTo c m 2 (relTarget c.t m i) else s.fallThrough c m

/-- Runs a transfer to the target in a register pair, which must be canonical (R128). -/
def State.indirect (s : State) (c : Ctx) (a : Reg) (f : VAddr → State) : State :=
  s.checked c [pair a] [pair a]
    (if noncanon (s.reg64 c.t a) then s.deliver c.t .addrNoncanon (s.reg64 c.t a)
     else f ((s.reg64 c.t a).setWidth 56))

/-- JMP (R133). -/
def execJmp (m : Mods) (p : Pred) (n : Bool) (a : Reg) (s : State) : Host.Outcome State Fault Refusal :=
  s.run fun c =>
    if s.guard c p n then s.indirect c a fun target => s.commit c m 3 (c.t.jump target) else s.fallThrough c m

/-- CALLI (R133, R134). -/
def execCalli (m : Mods) (p : Pred) (n : Bool) (a : Reg) (s : State) : Host.Outcome State Fault Refusal :=
  s.run fun c =>
    if s.guard c p n then s.indirect c a fun target => s.callTo c m 3 (target &&& ~~~3) else s.fallThrough c m

/-- RET (R133, R134). -/
def execRet (m : Mods) (p : Pred) (n : Bool) (s : State) : Host.Outcome State Fault Refusal :=
  s.run fun c =>
    if s.guard c p n then
      if c.t.flow.depth = 0 then s.deliver c.t .retEmpty 0
      else
        let d := c.t.flow.depth - 1
        s.commit c m 3 ({ c.t with flow := { c.t.flow with depth := d } }.jump (c.t.flow.rstk[d]?.getD 0))
    else s.fallThrough c m

/-! ## Hardware loops -/

/-- Replaces a loop level (R135). -/
def Flow.setLevel (f : Flow) (outer : Bool) (l : Loop) : Flow := if outer then { f with lc1 := l } else { f with lc0 := l }

/-- A loop level. -/
def Flow.level (f : Flow) (outer : Bool) : Loop := if outer then f.lc1 else f.lc0

/-- Leaves a loop past its end header: the header's LEN is fetched (R135, R137). -/
def State.pastLoop (s : State) (c : Ctx) (m : Mods) (endh : VAddr) (t : Thread) : State :=
  match s.fetchFor c endh with
  | .ok h => s.commit c m 2 (t.jump (endh + BitVec.ofNat 56 (4 * (hdrLen h + 2))))
  | .miss => s.fetchFail c.t c.l.dev endh .miss
  | .fault f => s.fetchFail c.t c.l.dev endh (.fault f)
  | .bad => s.fetchFail c.t c.l.dev endh .bad
  | .held => s.fetchFail c.t c.l.dev endh .held
  | .lost => s.fetchFail c.t c.l.dev endh .lost

/-- LOOP (R135).  DESIGN CHOICE: one with a non-zero count is a taken transfer, so the end clause of an active level
that it ends does not loop back (R136, log entry 82). -/
def execLoop (m : Mods) (l : Bool) (a : Reg) (o : BitVec 16) (s : State) : Host.Outcome State Fault Refusal :=
  s.run fun c =>
    s.checked c [one a] [one a]
      (let endh := c.t.wordAt m + BitVec.ofNat 56 (4 * immU m.wide o)
       if s.reg32 c.t a = 0 then s.pastLoop c m endh c.t
       else
         s.commit c m 2 ({ c.t with
           flow := c.t.flow.setLevel l ⟨c.t.nextHeader, endh, s.reg32 c.t a⟩ }.jump c.t.nextHeader))

/-- LBRK (R137). -/
def execLbrk (m : Mods) (l : Bool) (s : State) : Host.Outcome State Fault Refusal :=
  s.run fun c =>
    let lv := c.t.flow.level l
    s.pastLoop c m lv.stop { c.t with flow := c.t.flow.setLevel l { lv with count := 0 } }

/-! ## JOIN, YIELD and SLEEP -/

/-- A thread on an Eddy core is recalled home before the instruction takes effect (R350); else f. -/
def State.atHome (s : State) (c : Ctx) (f : State) : State :=
  match c.t.place with
  | .eddy e x => s.setThread { c.t with place := .recallWanted e x }
  | .home | .leaving _ _ _ | .recallWanted _ _ | .returning _ _ _ => f

/-- Another thread of the group is away on an Eddy core (R139). -/
def State.groupAway (s : State) (t : Thread) : Bool :=
  s.threads.any fun x => x.team == t.team && x.grp == t.grp && x.id != t.id && x.place.context.isSome

/-- The rejoin timeout of a JOIN (R61, R139). -/
def joinTimeout (m : Mods) : Nat := if m.sub = 2 then m.arg % 65536 else 4096

/-- JOIN (R139). -/
def execJoin (m : Mods) (p : Pred) (n : Bool) (s : State) : Host.Outcome State Fault Refusal :=
  s.run fun c =>
    if s.guard c p n then
      s.atHome c
        (let deadline := c.t.held.getD s.tick + joinTimeout m
         if !s.groupAway c.t || c.l.det || decide (deadline ≤ s.tick) then s.fallThrough c m
         else s.hold c.t (.join deadline))
    else s.fallThrough c m

/-- JOIN_TIMEOUT (R139): a thread whose timeout has passed waits no more. -/
def execJoinTimeout (th : Nat) (s : State) : Host.Outcome State Fault Refusal :=
  match s.thread? th with
  | none => .next s
  | some t =>
    match t.wait with
    | .join d => if d ≤ s.tick then .next (s.setThread { t with wait := .run }) else .next s
    | _ => .next s

/-- YIELD (R61, R140). -/
def execYield (m : Mods) (p : Pred) (n : Bool) (s : State) : Host.Outcome State Fault Refusal :=
  s.run fun c =>
    if s.guard c p n then (s.fallThrough c m).modThread c.t.id fun t => t.yield true
    else s.fallThrough c m

/-- How many cycles a SLEEP lasts (R140). -/
def sleepCycles (m : Mods) (i : BitVec 19) : Nat := immU m.wide i % 2 ^ 32

/-- SLEEP (R140): the thread stands at the next header and issues no word until the cycles have passed, which count
from the cycle in which SLEEP issues, on an Eddy core from that Eddy cycle (R348, log entry 88); a stepped thread takes
its step trap then (R432). -/
def execSleep (m : Mods) (p : Pred) (n : Bool) (i : BitVec 19) (s : State) : Host.Outcome State Fault Refusal :=
  s.run fun c =>
    if s.guard c p n && decide (sleepCycles m i ≠ 0) then
      s.setThread { s.issued c m (sleepCycles m i, s.secondHalf c.t) (c.t.past m.words) with
        wait := .sleep (s.tick + sleepCycles m i) (stepped c.tm c.t) }
    else s.fallThrough c m

/-- The thread's team has stopped issuing: it is pre-empted or freezes (R339, R379). -/
def State.teamStops (s : State) (t : Thread) : Bool :=
  match s.team? t.team with
  | none => false
  | some m => m.phase != .running

/-- A sleep is over: its cycles have passed, or its team stops, which completes it (R140, R339, R352). -/
def State.slept (s : State) (t : Thread) (until' : Nat) : Bool := decide (until' ≤ s.tick) || s.teamStops t

/-- SLEEP_EXPIRE (R140, R432). -/
def execSleepExpire (th : Nat) (s : State) : Host.Outcome State Fault Refusal :=
  match s.thread? th with
  | none => .next s
  | some t =>
    match t.wait with
    | .sleep u stepping => if s.slept t u then .next (s.settleThread stepping { t with wait := .run }) else .next s
    | _ => .next s

end Sys2Proof.Machine
end

