-- ==== Sys2Proof/Machine/Float.lean ====
section
/-! DEFINITION. Number formats and rounding (R93 to R109): values, decoding, `round`, and the sums and
products that the floating-point instructions share. -/

namespace Sys2Proof.Machine

/-! ## Formats and values -/

/-- A binary format (R95): mantissa bits, bias, the largest finite encoding, and whether the encoding has
infinities. -/
structure Format where
  bits : Nat
  mbits : Nat
  bias : Nat
  maxCode : Nat
  infs : Bool
  deriving DecidableEq, Repr

/-- FP32. -/
def fp32 : Format := ⟨32, 23, 127, 0x7F7FFFFF, true⟩

/-- FP16. -/
def fp16 : Format := ⟨16, 10, 15, 0x7BFF, true⟩

/-- BF16. -/
def bf16 : Format := ⟨16, 7, 127, 0x7F7F, true⟩

/-- E5M2. -/
def e5m2 : Format := ⟨8, 2, 15, 0x7B, true⟩

/-- E4M3. -/
def e4m3 : Format := ⟨8, 3, 7, 0x7E, false⟩

/-- FTZ acts on this format (R107). -/
def Format.flushes (f : Format) : Bool := decide (16 ≤ f.bits)

/-- The canonical NaN (R97). -/
def Format.nan (f : Format) : Nat :=
  if f.infs then f.maxCode + 1 + 2 ^ (f.mbits - 1) else f.maxCode + 1

/-- The sign bit at its place. -/
def Format.signed (f : Format) (neg : Bool) (mag : Nat) : Nat := b2n neg * 2 ^ (f.bits - 1) + mag

/-- A value: a NaN, an infinity, or a finite number, whose magnitude is counted in units of 2^-298, in
which every value and every product of two values is whole. -/
inductive FVal where
  | nan (signalling : Bool)
  | inf (neg : Bool)
  | fin (neg : Bool) (n : Nat)
  deriving DecidableEq, Repr

/-- 2^298: how many units make 1. -/
def unit : Nat := 2 ^ 298

/-- The value of an encoding (R96). -/
def Format.decode (f : Format) (x : Nat) : FVal :=
  let neg := bit x (f.bits - 1)
  let mag := x % 2 ^ (f.bits - 1)
  let e := mag / 2 ^ f.mbits
  let m := mag % 2 ^ f.mbits
  if f.maxCode < mag then
    if f.infs && m == 0 then .inf neg else .nan (f.infs && m < 2 ^ (f.mbits - 1))
  else if e = 0 then .fin neg (m * 2 ^ (299 - f.bias - f.mbits))
  else .fin neg ((2 ^ f.mbits + m) * 2 ^ (298 + e - f.bias - f.mbits))

/-- The encoding is a subnormal. -/
def Format.subnormal (f : Format) (x : Nat) : Bool :=
  let mag := x % 2 ^ (f.bits - 1)
  decide (mag ≠ 0 ∧ mag < 2 ^ f.mbits)

/-- The value of an operand, a subnormal flushed under FTZ (R107). -/
def Format.operand (f : Format) (ftz : Bool) (x : Nat) : FVal :=
  if ftz && f.flushes && f.subnormal x then .fin (bit x (f.bits - 1)) 0 else f.decode x

/-- The value is a NaN. -/
def FVal.isNan : FVal → Bool
  | .nan _ => true
  | .inf _ | .fin _ _ => false

/-- The value is a signalling NaN. -/
def FVal.isSnan : FVal → Bool
  | .nan s => s
  | .inf _ | .fin _ _ => false

/-- The value is an infinity. -/
def FVal.isInf : FVal → Bool
  | .inf _ => true
  | .nan _ | .fin _ _ => false

/-- The value is a zero. -/
def FVal.isZero : FVal → Bool
  | .fin _ n => n == 0
  | .nan _ | .inf _ => false

/-- The sign of a value. -/
def FVal.neg : FVal → Bool
  | .inf s => s
  | .fin s _ => s
  | .nan _ => false

/-- The value with its sign inverted. -/
def FVal.negate : FVal → FVal
  | .inf s => .inf !s
  | .fin s n => .fin (!s) n
  | .nan s => .nan s

/-- The place of a value that is no NaN in the order of the reals; both zeros share one place. -/
def FVal.key : FVal → Int
  | .inf s => if s then -(2 ^ 700) else 2 ^ 700
  | .fin s n => if s then -(n : Int) else n
  | .nan _ => 0

/-! ## Products and sums -/

/-- The product of two values is 0 × ∞ (R146). -/
def zeroTimesInf (a b : FVal) : Bool := (a.isZero && b.isInf) || (a.isInf && b.isZero)

/-- The exact product (R146, R180). -/
def FVal.mul (a b : FVal) : FVal :=
  if a.isNan || b.isNan || zeroTimesInf a b then .nan false
  else
    let s := a.neg != b.neg
    match a, b with
    | .fin _ x, .fin _ y => .fin s (x * y / unit)
    | _, _ => .inf s

/-- Infinities of opposite sign meet, whether or not another term is a NaN (R150, R181, log entry 8). -/
def opposed (l : List FVal) : Bool :=
  l.any (fun v => v.isInf && v.neg) && l.any (fun v => v.isInf && !v.neg)

/-- The exact sum of terms (R146, R181); an exact zero takes `exact_zero_sign` (R146). -/
def sumOf (down : Bool) (l : List FVal) : FVal :=
  if l.any FVal.isNan || opposed l then .nan false
  else if l.any FVal.isInf then .inf (l.any fun v => v.isInf && v.neg)
  else
    let total := l.foldl (fun v t => v + t.key) 0
    if total ≠ 0 then .fin (decide (total < 0)) total.natAbs
    else if l.all fun v => v.isZero && v.neg then .fin true 0
    else if l.all fun v => v.isZero && !v.neg then .fin false 0
    else .fin down 0

/-! ## Rounding -/

/-- What rounding depends on (R102, R103): the mode, FTZ, SAT, and the random bits of an element
(R105). -/
structure REnv where
  mode : RMode
  ftz : Bool
  sat : Bool
  sr : Nat → Nat

/-- The rounding of matrix instructions: RNE, no FTZ, no saturation (R181). -/
def rneEnv : REnv := ⟨.rne, false, false, fun _ => 0⟩

/-- `choose` (R103): whether the neighbour of larger magnitude is taken; the fraction is r / d, and `odd`
tells the last mantissa bit of the smaller neighbour. -/
def chooseUp (mode : RMode) (neg odd : Bool) (r d : Nat) (sr : Nat) : Bool :=
  match mode with
  | .rne => decide (d < 2 * r) || (decide (2 * r = d) && odd)
  | .rna => decide (d ≤ 2 * r)
  | .rtz => false
  | .rup => !neg
  | .rdn => neg
  | .sr => decide (2 ^ 16 ≤ r * 2 ^ 16 / d + sr)

/-- floor(log2(num / den)) for positive num and den. -/
def floorLog2 (num den : Nat) : Int :=
  let k : Int := (num.log2 : Int) - (den.log2 : Int)
  let below := if 0 ≤ k then decide (num < den * 2 ^ k.toNat) else decide (num * 2 ^ (-k).toNat < den)
  if below then k - 1 else k

/-- num / den in units of 2^k: the floor, the rest, and what the rest is counted against. -/
def inUnits (num den : Nat) (k : Int) : Nat × Nat × Nat :=
  let a := if k < 0 then num * 2 ^ (-k).toNat else num
  let d := if k < 0 then den else den * 2 ^ k.toNat
  (a / d, a % d, d)

/-- The result of a finite overflow (R104). -/
def Format.overflow (f : Format) (env : REnv) (neg : Bool) : Nat :=
  let big := if f.infs then f.signed neg (f.maxCode + 1) else f.nan
  let max := f.signed neg f.maxCode
  if env.sat then max
  else
    match env.mode with
    | .rne | .rna | .sr => big
    | .rtz => max
    | .rup => if neg then max else big
    | .rdn => if neg then big else max

/-- The result of an infinite operand (R104). -/
def Format.infinite (f : Format) (sat neg : Bool) : Nat × FFlags :=
  if sat then (f.signed neg f.maxCode, FFlags.clear)
  else if f.infs then (f.signed neg (f.maxCode + 1), FFlags.clear)
  else (f.nan, FFlags.invalid true)

/-- `round` of a non-zero magnitude num / den (R103). -/
def Format.roundMag (f : Format) (env : REnv) (elem : Nat) (neg : Bool) (num den : Nat) : Nat × FFlags :=
  let emin : Int := 1 - (f.bias : Int)
  let lg := floorLog2 num den
  let tiny := decide (lg < emin)
  if tiny && env.ftz && f.flushes then
    (f.signed neg 0, { FFlags.clear with uf := true, nx := true })
  else
    let e := max lg emin
    let u := inUnits num den (e - f.mbits)
    let up := decide (u.2.1 ≠ 0) && chooseUp env.mode neg (u.1 % 2 == 1) u.2.1 u.2.2 (env.sr elem)
    let code := (e - emin).toNat * 2 ^ f.mbits + u.1 + b2n up
    let nx := decide (u.2.1 ≠ 0)
    if f.maxCode < code then
      (f.overflow env neg, { FFlags.clear with of := true, nx := true, uf := false })
    else (f.signed neg code, { FFlags.clear with nx := nx, uf := tiny && nx })

/-- `round` of a value (R103). -/
def Format.round (f : Format) (env : REnv) (elem : Nat) (v : FVal) : Nat × FFlags :=
  match v with
  | .nan _ => (f.nan, FFlags.clear)
  | .inf s => f.infinite env.sat s
  | .fin s n => if n = 0 then (f.signed s 0, FFlags.clear) else f.roundMag env elem s n unit

/-! ## The generator -/

/-- The ten rounds of `mix` (R159). -/
def mixRounds : Nat → Nat → Nat → Nat → Nat → Nat → Nat → Nat
  | 0, x0, _, _, _, _, _ => x0
  | n + 1, x0, x1, x2, x3, k0, k1 =>
    let m0 := 0xD2511F53 * x0
    let m1 := 0xCD9E8D57 * x2
    mixRounds n ((m1 / 2 ^ 32) ^^^ x1 ^^^ k0) (m1 % 2 ^ 32) ((m0 / 2 ^ 32) ^^^ x3 ^^^ k1) (m0 % 2 ^ 32)
      ((k0 + 0x9E3779B9) % 2 ^ 32) ((k1 + 0xBB67AE85) % 2 ^ 32)

/-- `mix(key, (gid, sub), counter)` (R159). -/
def mix (key : DWord) (gid sub ctr : Nat) : Word :=
  BitVec.ofNat 32 (mixRounds 10 ctr sub (bits gid 31 0) (bits gid 47 32) (bits key.toNat 31 0) (bits key.toNat 63 32))

/-- The random bits of SR for an element (R105): `fold` is the XOR of the source registers. -/
def srBits (c : Ctx) (m : Mods) (fold : Word) (elem : Nat) : Nat :=
  let pc := c.t.pc + BitVec.ofNat 56 (4 * m.count)
  let ctr := BitVec.ofNat 32 (bits pc.toNat 33 2) ^^^ BitVec.ofNat 32 (elem * 2 ^ 24) ^^^ fold
  bits (mix c.tm.rngkey c.linear 0xFFFFFFFF ctr.toNat).toNat 15 0

/-- The rounding environment of a lane instruction (R102, R103, R143). -/
def State.renv (s : State) (c : Ctx) (m : Mods) (fold : Word) : REnv :=
  ⟨roundMode m (s.csr c.t), csrFtz (s.csr c.t), m.sat, srBits c m fold⟩

/-! ## Arithmetic of one element -/

/-- ADD, SUB with b negated, MUL and FMA as sums of terms (R146): the result of a sum whose operands are
`ops`; `bad` says that a product is 0 × ∞. -/
def Format.sum (f : Format) (env : REnv) (elem : Nat) (ops terms : List FVal) (bad : Bool) : Nat × FFlags :=
  let invalid := bad || ops.any FVal.isSnan || opposed terms
  let r := f.round env elem (sumOf (env.mode == .rdn) terms)
  (r.1, (FFlags.invalid invalid).join r.2)

/-- a + b. -/
def Format.add (f : Format) (env : REnv) (elem : Nat) (a b : FVal) : Nat × FFlags :=
  f.sum env elem [a, b] [a, b] false

/-- a − b. -/
def Format.sub (f : Format) (env : REnv) (elem : Nat) (a b : FVal) : Nat × FFlags :=
  f.sum env elem [a, b] [a, b.negate] false

/-- a × b. -/
def Format.mul (f : Format) (env : REnv) (elem : Nat) (a b : FVal) : Nat × FFlags :=
  let r := f.round env elem (a.mul b)
  (r.1, (FFlags.invalid (zeroTimesInf a b || a.isSnan || b.isSnan)).join r.2)

/-- a × b + c, rounded once. -/
def Format.fma (f : Format) (env : REnv) (elem : Nat) (a b c : FVal) : Nat × FFlags :=
  f.sum env elem [a, b, c] [a.mul b, c] (zeroTimesInf a b)

/-- MIN and MAX and their NUM forms (R147), on encodings: −0 is smaller than +0. -/
def Format.minMax (f : Format) (ftz max num : Bool) (x y : Nat) : Nat × FFlags :=
  let a := f.operand ftz x
  let b := f.operand ftz y
  let enc := fun (v : FVal) (raw : Nat) => if v.isZero then f.signed v.neg 0 else raw
  let nv := FFlags.invalid (a.isSnan || b.isSnan)
  if a.isNan || b.isNan then
    if num && a.isNan && !a.isSnan && !b.isNan then (enc b y, nv)
    else if num && b.isNan && !b.isSnan && !a.isNan then (enc a x, nv)
    else (f.nan, nv)
  else
    let aBelow := decide (a.key < b.key) || (decide (a.key = b.key) && a.neg)
    if aBelow != max then (enc a x, nv) else (enc b y, nv)

/-- CLASS (R148). -/
def Format.classOf (f : Format) (x : Nat) : Nat :=
  match f.decode x with
  | .nan s => if s then 2 ^ 8 else 2 ^ 9
  | .inf s => if s then 2 ^ 0 else 2 ^ 7
  | .fin s n =>
    if n = 0 then (if s then 2 ^ 3 else 2 ^ 4)
    else if f.subnormal x then (if s then 2 ^ 2 else 2 ^ 5)
    else if s then 2 ^ 1 else 2 ^ 6

/-- The integer square root, bit by bit. -/
def isqrt (n : Nat) : Nat :=
  (List.range 640).foldl (fun r k =>
    let x := r + 2 ^ (639 - k)
    if x * x ≤ n then x else r) 0

/-- A conversion to an integer (R106): w bits, signed or not. -/
def toInteger (mode : RMode) (sr : Nat) (signed : Bool) (w : Nat) (v : FVal) : Int × FFlags :=
  let lo : Int := if signed then -(2 ^ (w - 1)) else 0
  let hi : Int := if signed then 2 ^ (w - 1) - 1 else 2 ^ w - 1
  match v with
  | .nan _ => (0, FFlags.invalid true)
  | .inf s => (if s then lo else hi, FFlags.invalid true)
  | .fin s n =>
    let q := n / unit
    let r := n % unit
    let up := decide (r ≠ 0) && chooseUp mode s (q % 2 == 1) r unit sr
    let x : Int := (q + b2n up : Nat)
    let y := if s then -x else x
    if lo ≤ y ∧ y ≤ hi then (y, { FFlags.clear with nx := decide (r ≠ 0) })
    else (if y < lo then lo else hi, FFlags.invalid true)

end Sys2Proof.Machine
end

