-- ==== Sys2Proof/Machine/Elem.lean ====
section
/-! DEFINITION. Transcendentals and division (R151, R152): exact special cases, the correctly rounded
forms, and the approximate forms, whose results are free values within the bounds the manual states
(log entry 7). -/

namespace Sys2Proof.Machine

/-! ## Fixed-point approximations, with 200 fraction bits -/

/-- 1. -/
def fxOne : Int := 2 ^ 200

/-- The circle constant pi with 360 fraction bits, rounded down. -/
def piFix : Nat :=
  0x3243F6A8885A308D313198A2E03707344A4093822299F31D0082EFA98EC4E6C89452821E638D01377BE5466CF34

/-- The natural logarithm of 2, rounded down. -/
def ln2Fix : Int := 0xB17217F7D1CF79ABC9E3B39803F2F6AF40F343267298B62D8A

/-- The sum of a power series whose term k+1 is term k times x times `step k`. -/
def series (x term : Int) (next : Nat → Int) (n : Nat) : Int :=
  ((List.range n).foldl (fun (acc : Int × Int) k =>
    let t := acc.2 * x / fxOne / next k
    (acc.1 + t, t)) (term, term)).1

/-- e^f. -/
def expFix (f : Int) : Int := series f fxOne (fun k => (k : Int) + 1) 64

/-- sin r and cos r for r in [−pi, pi]. -/
def sinFix (r : Int) : Int :=
  series (-(r * r / fxOne)) r (fun k => (2 * (k : Int) + 2) * (2 * (k : Int) + 3)) 48

/-- cos r. -/
def cosFix (r : Int) : Int :=
  series (-(r * r / fxOne)) fxOne (fun k => (2 * (k : Int) + 1) * (2 * (k : Int) + 2)) 48

/-- An angle of n units reduced to [−pi, pi]. -/
def reduceAngle (neg : Bool) (n : Nat) : Int :=
  let r := n * 2 ^ 62 % (2 * piFix)
  let r : Int := if piFix < r then (r : Int) - 2 * piFix else r
  (if neg then -r else r) / 2 ^ 160

/-- 2^x of a value of x units, in units. -/
def ex2Approx (x : Int) : Int :=
  let k := x / (unit : Int)
  let f := (x - k * unit) / 2 ^ 98
  let p := expFix (f * ln2Fix / fxOne)
  if 0 ≤ k + 98 then p * 2 ^ (k + 98).toNat else p / 2 ^ (-(k + 98)).toNat

/-- log2 of n units, in units. -/
def lg2Approx (n : Nat) : Int :=
  let k : Int := (n.log2 : Int) - 298
  let y := n * 2 ^ 200 / 2 ^ n.log2
  let r := (List.range 140).foldl (fun (acc : Nat × Nat) _ =>
    let sq := acc.1 * acc.1 / 2 ^ 200
    if 2 ^ 201 ≤ sq then (sq / 2, 2 * acc.2 + 1) else (sq, 2 * acc.2)) (y, 0)
  (k * 2 ^ 140 + r.2) * 2 ^ 158

/-- tanh of n units, n below 10, in units. -/
def tanhApprox (n : Nat) : Int :=
  let y : Int := (n : Int) * 2 / 2 ^ 98
  let k := y / ln2Fix
  let e := expFix (y - k * ln2Fix) * 2 ^ k.toNat
  (e - fxOne) * fxOne / (e + fxOne) * 2 ^ 98

/-! ## The approximate forms -/

/-- The spacing q of R103 at an exact value of x units, in units. -/
def ulpAt (x : Int) : Nat :=
  let e := max (floorLog2 (max 1 x.natAbs) unit) (-126)
  2 ^ (e - 23 + 298).toNat

/-- The free result of an approximate form: the candidate encoding when it lies within the bound of the
exact value, else the encoding nearest the exact value (R151, log entry 7). -/
def bounded (code : Nat) (x : Word) (exact : Int) (bound : Nat) : Word :=
  let cand := Config.transResult code x
  let near : Word := BitVec.ofNat 32 (if exact = 0 then 0 else (fp32.roundMag rneEnv 0 (decide (exact < 0)) exact.natAbs unit).1)
  match fp32.decode cand.toNat with
  | .nan _ | .inf _ => near
  | .fin s n => if ((if s then -(n : Int) else n) - exact).natAbs ≤ bound then cand else near

/-- The result of an approximate form with its flags: NX always, UF below 2^−126, flushed under FTZ
(R107, R151). -/
def approxResult (ftz : Bool) (r : Word) : Word × FFlags :=
  let small := decide (r.toNat % 2 ^ 31 < 0x00800000)
  (if small && ftz then BitVec.ofNat 32 (fp32.signed (bit r.toNat 31) 0) else r,
    { FFlags.clear with nx := true, uf := small })

/-- An exact result. -/
def exactly (n : Nat) : Word × FFlags := (BitVec.ofNat 32 n, FFlags.clear)

/-- NaN with NV when the condition holds. -/
def nanResult (nv : Bool) : Word × FFlags := (0x7FC00000, FFlags.invalid nv)

/-- An infinity of a sign with DZ. -/
def divZero (neg : Bool) : Word × FFlags :=
  (BitVec.ofNat 32 (fp32.signed neg 0x7F800000), { FFlags.clear with dz := true })

/-- A rounded result as a word. -/
def asWord (r : Nat × FFlags) : Word × FFlags := (BitVec.ofNat 32 r.1, r.2)

/-- RCP (R151, R152). -/
def rcpOf (env : REnv) (v : FVal) : Word × FFlags :=
  match v with
  | .nan s => nanResult s
  | .inf s => exactly (fp32.signed s 0)
  | .fin s n => if n = 0 then divZero s else asWord (fp32.roundMag env 0 s unit n)

/-- DIV (R151, R152). -/
def divOf (env : REnv) (a b : FVal) : Word × FFlags :=
  let s := a.neg != b.neg
  if a.isNan || b.isNan then nanResult (a.isSnan || b.isSnan)
  else
    match a, b with
    | .inf _, .inf _ => nanResult true
    | .inf _, _ => exactly (fp32.signed s 0x7F800000)
    | _, .inf _ => exactly (fp32.signed s 0)
    | .fin _ x, .fin _ y =>
      if x = 0 then (if y = 0 then nanResult true else exactly (fp32.signed s 0))
      else if y = 0 then divZero s
      else asWord (fp32.roundMag env 0 s x y)
    | _, _ => nanResult false

/-- SQRT (R151, R152).  The root is computed to 2^−213 with a sticky bit. -/
def sqrtOf (env : REnv) (v : FVal) : Word × FFlags :=
  match v with
  | .nan s => nanResult s
  | .inf s => if s then nanResult true else exactly 0x7F800000
  | .fin s n =>
    if n = 0 then exactly (fp32.signed s 0)
    else if s then nanResult true
    else
      let r := isqrt (n * 2 ^ 128)
      asWord (fp32.roundMag env 0 false (2 * r + b2n (r * r != n * 2 ^ 128)) (2 ^ 214))

/-- RSQ (R151, R152): the exact value where it is representable, else one of its two neighbours, which one
being a free choice by operand. -/
def rsqOf (x : Word) (v : FVal) : Word × FFlags :=
  match v with
  | .nan s => nanResult s
  | .inf s => if s then nanResult true else exactly 0
  | .fin s n =>
    if n = 0 then divZero s
    else if s then nanResult true
    else
      let r := isqrt (2 ^ 800 / n)
      let down := fp32.roundMag { rneEnv with mode := .rtz } 0 false (2 * r + b2n (r * r * n != 2 ^ 800)) (2 ^ 252)
      if down.2.nx then (BitVec.ofNat 32 (down.1 + b2n (Config.rsqUpper x)), { FFlags.clear with nx := true })
      else exactly down.1

/-- EX2 (R151, R152). -/
def ex2Of (env : REnv) (x : Word) (v : FVal) : Word × FFlags :=
  match v with
  | .nan s => nanResult s
  | .inf s => exactly (if s then 0 else 0x7F800000)
  | .fin s n =>
    let i : Int := if s then -(n : Int) else n
    if n % unit = 0 ∧ -126 ≤ i / (unit : Int) ∧ i / (unit : Int) ≤ 127 then
      exactly ((i / (unit : Int) + 127).toNat * 2 ^ 23)
    else if (unit : Int) * 128 ≤ i then
      (BitVec.ofNat 32 (fp32.overflow { rneEnv with sat := env.sat } false), { FFlags.clear with of := true, nx := true })
    else
      let e := if i < -(unit : Int) * 400 then 0 else ex2Approx i
      approxResult env.ftz (bounded 3 x e (2 * ulpAt e))

/-- LG2 (R151, R152). -/
def lg2Of (env : REnv) (x : Word) (v : FVal) : Word × FFlags :=
  match v with
  | .nan s => nanResult s
  | .inf s => if s then nanResult true else exactly 0x7F800000
  | .fin s n =>
    if n = 0 then divZero true
    else if s then nanResult true
    else if n = 2 ^ n.log2 then
      let k : Int := (n.log2 : Int) - 298
      asWord (fp32.round env 0 (.fin (decide (k < 0)) (k.natAbs * unit)))
    else
      let e := lg2Approx n
      let near := decide (unit ≤ 2 * n ∧ n ≤ 2 * unit)
      approxResult env.ftz (bounded 4 x e (if near then 2 ^ 276 else 2 * ulpAt e))

/-- SIN and COS (R151, R152). -/
def sinCosOf (env : REnv) (cos : Bool) (x : Word) (v : FVal) : Word × FFlags :=
  match v with
  | .nan s => nanResult s
  | .inf _ => nanResult true
  | .fin s n =>
    if n = 0 then exactly (if cos then 0x3F800000 else fp32.signed s 0)
    else
      let r := reduceAngle s n
      let e := (if cos then cosFix r else sinFix r) * 2 ^ 98
      approxResult env.ftz (bounded (if cos then 6 else 5) x e (2 ^ 277))

/-- TANH (R151, R152). -/
def tanhOf (env : REnv) (x : Word) (v : FVal) : Word × FFlags :=
  match v with
  | .nan s => nanResult s
  | .inf s => exactly (fp32.signed s 0x3F800000)
  | .fin s n =>
    if 10 * unit ≤ n then exactly (fp32.signed s 0x3F800000)
    else if n < 2 ^ 286 then exactly (if n = 0 then fp32.signed s 0 else x.toNat)
    else
      let e := tanhApprox n
      approxResult env.ftz (bounded 7 x (if s then -e else e) (2 ^ 278))

end Sys2Proof.Machine
end

