-- ==== Sys2Proof/Machine/Fp.lean ====
section
/-! DEFINITION. The floating-point, conversion and generator instructions, majors 0x18 to 0x22 (R143 to
R160), and the floating-point compares (R109, R124). -/

namespace Sys2Proof.Machine

/-! ## Shared shapes -/

/-- The XOR of the source registers, which SR rounding folds in (R105).  DESIGN CHOICE: a register that two operands
name counts once for each (log entry 79). -/
def State.fold (s : State) (t : Thread) (srcs : List Reg) : Word :=
  srcs.foldl (fun v r => v ^^^ s.reg32 t r) 0

/-- A form that writes one register and raises flags (R143). -/
def State.float32 (s : State) (c : Ctx) (m : Mods) (d : Reg) (srcs : List Reg) (r : Word × FFlags) : State :=
  s.lane c m [one d] [] (srcs.map one) ⟨[(d.val, r.1)], [], r.2, false⟩

/-- An FP32 operand, flushed under FTZ (R107). -/
def State.f32 (s : State) (t : Thread) (r : Reg) : FVal := fp32.operand (csrFtz (s.csr t)) (s.reg32 t r).toNat

/-- A result with the flags of its elements as one word. -/
def packX2 (lo hi : Nat × FFlags) : Word × FFlags := (BitVec.ofNat 32 (hi.1 * 65536 + lo.1), lo.2.join hi.2)

/-- The 16-bit format of major 0x19. -/
def halfFormat : HalfFmt → Format
  | .f16 => fp16
  | .bf16 => bf16

/-- Element k of a packed register. -/
def half (x : Word) (k : Nat) : Nat := bits x.toNat (16 * k + 15) (16 * k)

/-- Applies an operation to both elements (R149). -/
def eachHalf (f : Nat → Nat × FFlags) : Word × FFlags := packX2 (f 0) (f 1)

/-! ## FP32 arithmetic -/

/-- FADD (R145, R146). -/
def execFadd (m : Mods) (d a b : Reg) (s : State) : Host.Outcome State Fault Refusal :=
  s.run fun c =>
    s.float32 c m d [a, b]
      (asWord (fp32.add (s.renv c m (s.fold c.t [a, b])) 0 (s.f32 c.t a) (s.f32 c.t b)))

/-- FSUB (R145, R146). -/
def execFsub (m : Mods) (d a b : Reg) (s : State) : Host.Outcome State Fault Refusal :=
  s.run fun c =>
    s.float32 c m d [a, b]
      (asWord (fp32.sub (s.renv c m (s.fold c.t [a, b])) 0 (s.f32 c.t a) (s.f32 c.t b)))

/-- FMUL (R145, R146). -/
def execFmul (m : Mods) (d a b : Reg) (s : State) : Host.Outcome State Fault Refusal :=
  s.run fun c =>
    s.float32 c m d [a, b]
      (asWord (fp32.mul (s.renv c m (s.fold c.t [a, b])) 0 (s.f32 c.t a) (s.f32 c.t b)))

/-- FMA (R145, R146). -/
def execFma (m : Mods) (d a b : Reg) (s : State) : Host.Outcome State Fault Refusal :=
  s.run fun c =>
    s.float32 c m d [a, b, addend m d]
      (asWord (fp32.fma (s.renv c m (s.fold c.t [a, b, addend m d])) 0 (s.f32 c.t a) (s.f32 c.t b)
        (s.f32 c.t (addend m d))))

/-- FMIN (R147). -/
def execFmin (m : Mods) (d a b : Reg) (s : State) : Host.Outcome State Fault Refusal :=
  s.run fun c =>
    s.float32 c m d [a, b]
      (asWord (fp32.minMax (csrFtz (s.csr c.t)) false false (s.reg32 c.t a).toNat (s.reg32 c.t b).toNat))

/-- FMAX (R147). -/
def execFmax (m : Mods) (d a b : Reg) (s : State) : Host.Outcome State Fault Refusal :=
  s.run fun c =>
    s.float32 c m d [a, b]
      (asWord (fp32.minMax (csrFtz (s.csr c.t)) true false (s.reg32 c.t a).toNat (s.reg32 c.t b).toNat))

/-- FMINNUM (R147). -/
def execFminnum (m : Mods) (d a b : Reg) (s : State) : Host.Outcome State Fault Refusal :=
  s.run fun c =>
    s.float32 c m d [a, b]
      (asWord (fp32.minMax (csrFtz (s.csr c.t)) false true (s.reg32 c.t a).toNat (s.reg32 c.t b).toNat))

/-- FMAXNUM (R147). -/
def execFmaxnum (m : Mods) (d a b : Reg) (s : State) : Host.Outcome State Fault Refusal :=
  s.run fun c =>
    s.float32 c m d [a, b]
      (asWord (fp32.minMax (csrFtz (s.csr c.t)) true true (s.reg32 c.t a).toNat (s.reg32 c.t b).toNat))

/-- FABS (R145): a sign-only form. -/
def execFabs (m : Mods) (d a : Reg) (s : State) : Host.Outcome State Fault Refusal :=
  s.run fun c =>
    s.int32 c m d [a] (s.reg32 c.t a &&& 0x7FFFFFFF)

/-- FNEG (R145): a sign-only form. -/
def execFneg (m : Mods) (d a : Reg) (s : State) : Host.Outcome State Fault Refusal :=
  s.run fun c =>
    s.int32 c m d [a] (s.reg32 c.t a ^^^ 0x80000000)

/-- FCLASS (R148). -/
def execFclass (m : Mods) (d a : Reg) (s : State) : Host.Outcome State Fault Refusal :=
  s.run fun c =>
    s.int32 c m d [a] (BitVec.ofNat 32 (fp32.classOf (s.reg32 c.t a).toNat))

/-- FCOPYSIGN (R145): a sign-only form. -/
def execFcopysign (m : Mods) (d a b : Reg) (s : State) : Host.Outcome State Fault Refusal :=
  s.run fun c =>
    s.int32 c m d [a, b] ((s.reg32 c.t a &&& 0x7FFFFFFF) ||| (s.reg32 c.t b &&& 0x80000000))

/-- a × 2^n, rounded (R145, R146).  DESIGN CHOICE: under SAT an infinite operand gives the largest finite value (log
entry 81). -/
def scaleOf (env : REnv) (v : FVal) (n : Int) : Word × FFlags :=
  match v with
  | .nan s => nanResult s
  | .inf s => asWord (fp32.infinite env.sat s)
  | .fin s x =>
    if x = 0 then exactly (fp32.signed s 0)
    else
      let k := max (-1000) (min n 1000)
      if 0 ≤ k then asWord (fp32.roundMag env 0 s (x * 2 ^ k.toNat) unit)
      else asWord (fp32.roundMag env 0 s x (unit * 2 ^ (-k).toNat))

/-- FSCALE (R145, R146). -/
def execFscale (m : Mods) (d a b : Reg) (s : State) : Host.Outcome State Fault Refusal :=
  s.run fun c =>
    s.float32 c m d [a, b]
      (scaleOf (s.renv c m (s.fold c.t [a, b])) (s.f32 c.t a) (s.reg32 c.t b).toInt)

/-! ## Packed FP16 and BF16 -/

/-- An element of a packed operand, flushed under FTZ. -/
def State.halfVal (s : State) (t : Thread) (f : HalfFmt) (r : Reg) (k : Nat) : FVal :=
  (halfFormat f).operand (csrFtz (s.csr t)) (half (s.reg32 t r) k)

/-- FADD_X2 (R149). -/
def execFaddX2 (m : Mods) (d a b : Reg) (f : HalfFmt) (s : State) : Host.Outcome State Fault Refusal :=
  s.run fun c =>
    s.float32 c m d [a, b]
      (eachHalf fun k =>
        (halfFormat f).add (s.renv c m (s.fold c.t [a, b])) k (s.halfVal c.t f a k) (s.halfVal c.t f b k))

/-- FSUB_X2 (R149). -/
def execFsubX2 (m : Mods) (d a b : Reg) (f : HalfFmt) (s : State) : Host.Outcome State Fault Refusal :=
  s.run fun c =>
    s.float32 c m d [a, b]
      (eachHalf fun k =>
        (halfFormat f).sub (s.renv c m (s.fold c.t [a, b])) k (s.halfVal c.t f a k) (s.halfVal c.t f b k))

/-- FMUL_X2 (R149). -/
def execFmulX2 (m : Mods) (d a b : Reg) (f : HalfFmt) (s : State) : Host.Outcome State Fault Refusal :=
  s.run fun c =>
    s.float32 c m d [a, b]
      (eachHalf fun k =>
        (halfFormat f).mul (s.renv c m (s.fold c.t [a, b])) k (s.halfVal c.t f a k) (s.halfVal c.t f b k))

/-- FMA_X2 (R149). -/
def execFmaX2 (m : Mods) (d a b : Reg) (f : HalfFmt) (s : State) : Host.Outcome State Fault Refusal :=
  s.run fun c =>
    s.float32 c m d [a, b, addend m d]
      (eachHalf fun k =>
        (halfFormat f).fma (s.renv c m (s.fold c.t [a, b, addend m d])) k (s.halfVal c.t f a k) (s.halfVal c.t f b k)
          (s.halfVal c.t f (addend m d) k))

/-- FMIN_X2 (R147, R149). -/
def execFminX2 (m : Mods) (d a b : Reg) (f : HalfFmt) (s : State) : Host.Outcome State Fault Refusal :=
  s.run fun c =>
    s.float32 c m d [a, b]
      (eachHalf fun k =>
        (halfFormat f).minMax (csrFtz (s.csr c.t)) false false (half (s.reg32 c.t a) k) (half (s.reg32 c.t b) k))

/-- FMAX_X2 (R147, R149). -/
def execFmaxX2 (m : Mods) (d a b : Reg) (f : HalfFmt) (s : State) : Host.Outcome State Fault Refusal :=
  s.run fun c =>
    s.float32 c m d [a, b]
      (eachHalf fun k =>
        (halfFormat f).minMax (csrFtz (s.csr c.t)) true false (half (s.reg32 c.t a) k) (half (s.reg32 c.t b) k))

/-- FABS_X2 (R149). -/
def execFabsX2 (m : Mods) (d a : Reg) (_ : HalfFmt) (s : State) : Host.Outcome State Fault Refusal :=
  s.run fun c =>
    s.int32 c m d [a] (s.reg32 c.t a &&& 0x7FFF7FFF)

/-- FNEG_X2 (R149). -/
def execFnegX2 (m : Mods) (d a : Reg) (_ : HalfFmt) (s : State) : Host.Outcome State Fault Refusal :=
  s.run fun c =>
    s.int32 c m d [a] (s.reg32 c.t a ^^^ 0x80008000)

/-- DOT2 (R150): two exact products and an FP32 addend, rounded once. -/
def execDot2 (m : Mods) (d a b : Reg) (f : HalfFmt) (s : State) : Host.Outcome State Fault Refusal :=
  s.run fun c =>
    let a0 := s.halfVal c.t f a 0
    let a1 := s.halfVal c.t f a 1
    let b0 := s.halfVal c.t f b 0
    let b1 := s.halfVal c.t f b 1
    let x := s.f32 c.t (addend m d)
    s.float32 c m d [a, b, addend m d]
      (asWord (fp32.sum (s.renv c m (s.fold c.t [a, b, addend m d])) 0 [a0, a1, b0, b1, x]
        [a0.mul b0, a1.mul b1, x] (zeroTimesInf a0 b0 || zeroTimesInf a1 b1)))

/-! ## Transcendentals and division -/

/-- A form of major 0x1A (R112, R151, R153): long class, or block class while an exception enable is set.  A long-class
form completes after so many cycles, the most that R153 allows (log entry 89); a thread predicated off raises no flag,
and writes but the zero of ZERO (R59). -/
def State.trans (s : State) (c : Ctx) (m : Mods) (d : Reg) (srcs : List Reg) (delay : Nat)
    (r : Word × FFlags) : State :=
  let w := [(d.val, r.1)]
  let f := BitVec.ofNat 5 r.2.code
  if csrTraps (s.csr c.t) then
    s.block c m [one d] (srcs.map one)
      (match fpTrap (s.csr c.t) r.2 with
       | some cause => s.deliver c.t cause (BitVec.ofNat 64 r.2.code)
       | none => s.done c m ((c.t.puts w).orCsr (f.setWidth 32)))
  else if s.on c.t m then
    s.checked c ([one d] ++ srcs.map one) (srcs.map one) (s.long c m (.trans w f) delay)
  else if m.zero then s.done c m (c.t.put d.val 0)
  else s.done c m c.t

/-- RCP (R151, R152). -/
def execRcp (m : Mods) (d a : Reg) (s : State) : Host.Outcome State Fault Refusal :=
  s.run fun c =>
    s.trans c m d [a] 24 (rcpOf (s.renv c m (s.fold c.t [a])) (s.f32 c.t a))

/-- RSQ (R151, R152). -/
def execRsq (m : Mods) (d a : Reg) (s : State) : Host.Outcome State Fault Refusal :=
  s.run fun c =>
    s.trans c m d [a] 24 (rsqOf (s.reg32 c.t a) (s.f32 c.t a))

/-- SQRT (R151, R152). -/
def execSqrt (m : Mods) (d a : Reg) (s : State) : Host.Outcome State Fault Refusal :=
  s.run fun c =>
    s.trans c m d [a] 40 (sqrtOf (s.renv c m (s.fold c.t [a])) (s.f32 c.t a))

/-- EX2 (R151, R152). -/
def execEx2 (m : Mods) (d a : Reg) (s : State) : Host.Outcome State Fault Refusal :=
  s.run fun c =>
    s.trans c m d [a] 24 (ex2Of (s.renv c m 0) (s.reg32 c.t a) (s.f32 c.t a))

/-- LG2 (R151, R152). -/
def execLg2 (m : Mods) (d a : Reg) (s : State) : Host.Outcome State Fault Refusal :=
  s.run fun c =>
    s.trans c m d [a] 24 (lg2Of (s.renv c m 0) (s.reg32 c.t a) (s.f32 c.t a))

/-- TANH (R151, R152). -/
def execTanh (m : Mods) (d a : Reg) (s : State) : Host.Outcome State Fault Refusal :=
  s.run fun c =>
    s.trans c m d [a] 24 (tanhOf (s.renv c m 0) (s.reg32 c.t a) (s.f32 c.t a))

/-- SIN (R151, R152). -/
def execSin (m : Mods) (d a : Reg) (s : State) : Host.Outcome State Fault Refusal :=
  s.run fun c =>
    s.trans c m d [a] 24 (sinCosOf (s.renv c m 0) false (s.reg32 c.t a) (s.f32 c.t a))

/-- COS (R151, R152). -/
def execCos (m : Mods) (d a : Reg) (s : State) : Host.Outcome State Fault Refusal :=
  s.run fun c =>
    s.trans c m d [a] 24 (sinCosOf (s.renv c m 0) true (s.reg32 c.t a) (s.f32 c.t a))

/-- DIV (R151, R152). -/
def execDiv (m : Mods) (d a b : Reg) (s : State) : Host.Outcome State Fault Refusal :=
  s.run fun c =>
    s.trans c m d [a, b] 40 (divOf (s.renv c m (s.fold c.t [a, b])) (s.f32 c.t a) (s.f32 c.t b))

/-- TRANSCENDENTAL_COMPLETE (R110, R153): the result and the flags are written and the clause's flags
lowered. -/
def execTranscendentalComplete (op : Nat) (s : State) : Host.Outcome State Fault Refusal :=
  match s.op? op with
  | none => .next s
  | some o =>
    match o.kind with
    | .trans w f =>
      match s.thread? o.th with
      | none => .next (s.endOp o)
      | some t => .next ((s.setThread ((t.puts w).orCsr (f.setWidth 32))).endOp o)
    | _ => .next s

/-! ## Conversion -/

/-- The floating-point format of a conversion, none for an integer format (R69, R155). -/
def fmtFloat : Fmt → Option Format
  | .f32 => some fp32
  | .f16 => some fp16
  | .bf16 => some bf16
  | .e4m3 => some e4m3
  | .e5m2 => some e5m2
  | .s8 | .u8 | .s16 | .u16 | .s32 | .u32 | .s64 | .u64 => none

/-- The format is a signed integer format. -/
def fmtSigned : Fmt → Bool
  | .s8 | .s16 | .s32 | .s64 => true
  | .f32 | .f16 | .bf16 | .e4m3 | .e5m2 | .u8 | .u16 | .u32 | .u64 => false

/-- An element of w bits read signed or unsigned. -/
def readInt (signed : Bool) (w x : Nat) : Int := if signed && bit x (w - 1) then (x : Int) - 2 ^ w else x

/-- The converted element (R155). -/
def convert (env : REnv) (elem : Nat) (tf ff : Fmt) (x : Nat) : Nat × FFlags :=
  let w := tf.width
  match fmtFloat ff, fmtFloat tf with
  | none, none =>
    let v := readInt (fmtSigned ff) ff.width x
    let y : Int :=
      if env.sat then
        (if (fmtSigned tf) then max (-(2 ^ (w - 1))) (min v (2 ^ (w - 1) - 1)) else max 0 (min v (2 ^ w - 1)))
      else v
    ((y % 2 ^ w).toNat, FFlags.clear)
  | some f, none =>
    let r := toInteger env.mode (env.sr elem) (fmtSigned tf) w (f.operand env.ftz x)
    ((r.1 % 2 ^ w).toNat, r.2)
  | none, some g =>
    let v := readInt (fmtSigned ff) ff.width x
    g.round env elem (.fin (decide (v < 0)) (v.natAbs * unit))
  | some f, some g =>
    let v := f.operand env.ftz x
    let r := g.round env elem v
    (r.1, (FFlags.invalid v.isSnan).join r.2)

/-- The source element of a conversion. -/
def State.cvtSource (s : State) (t : Thread) (f : Fmt) (a : Reg) (pos : Fin 4) : Nat :=
  if f.width = 64 then (s.reg64 t a).toNat
  else bits (s.reg32 t a).toNat (f.width * pos.val + f.width - 1) (f.width * pos.val)

/-- The registers a conversion writes: element `pos` replaced, or the destination whole. -/
def cvtWrites (old : Word) (f : Fmt) (d : Reg) (pos : Fin 4) (y : Nat) : List (Nat × Word) :=
  if f.width = 64 then pairWrites d (BitVec.ofNat 64 y)
  else
    let mask := BitVec.ofNat 32 ((2 ^ f.width - 1) * 2 ^ (f.width * pos.val))
    [(d.val, (old &&& ~~~mask) ||| (BitVec.ofNat 32 (y * 2 ^ (f.width * pos.val)) &&& mask))]

/-- The source registers of a conversion, for the fold of R105.  DESIGN CHOICE: the prior destination that a narrow
result merges into is not one (R155, log entry 80). -/
def cvtSrcs (f : Fmt) (a : Reg) : List Reg := if f.width = 64 then [a, a + 1] else [a]

/-- CVT (R154, R155). -/
def execCvt (m : Mods) (d a : Reg) (tf ff : Fmt) (p sp : Fin 4) (s : State) : Host.Outcome State Fault Refusal :=
  s.run fun c =>
    let r := convert (s.renv c m (s.fold c.t (cvtSrcs ff a))) p.val tf ff (s.cvtSource c.t ff a sp)
    s.lane c m [tf.blk d] [] (ff.blk a :: (if tf.width < 32 then [one d] else []))
      ⟨cvtWrites (s.reg32 c.t d) tf d p r.1, [], r.2, false⟩

/-! ## C4 -/

/-- The magnitude of a code by its type and index, in quarters (R100). -/
def c4Mag (ty idx : Nat) : Nat :=
  if ty = 1 then [0, 2, 4, 6, 8, 12, 16, 24].getD idx 0
  else if ty = 2 then [0, 1, 2, 4, 8, 16, 32, 64].getD idx 0
  else if ty = 3 then [0, 4, 8, 12, 16, 24, 32, 64].getD idx 0
  else 4 * idx

/-- The value of a code (R100). -/
def c4Value (ty code : Nat) : FVal :=
  if ty = 0 then
    if 8 ≤ code % 16 then .fin true ((16 - code % 16) * unit) else .fin false (code % 16 * unit)
  else .fin (8 ≤ code % 16) (c4Mag ty (code % 8) * (unit / 4))

/-- A scale is invalid: its NaN, bit 7, or reserved bits of a whole scale word (R101). -/
def scaleBad (w : Nat) : Bool := decide (w % 256 = 0x7F) || bit w 7 || decide (bits w 15 10 ≠ 0)

/-- The largest index of a type and sign: 8 for a negative integer code, else 7. -/
def c4Top (ty : Nat) (neg : Bool) : Nat := if ty = 0 ∧ neg then 8 else 7

/-- The code of an index with a sign (R100). -/
def c4Code (ty : Nat) (neg : Bool) (idx : Nat) : Nat :=
  if idx = 0 then (if ty ≠ 0 ∧ neg then 8 else 0)
  else if ty = 0 then (if neg then 16 - idx else idx)
  else b2n neg * 8 + idx

/-- One code of QC4 (R156). -/
def quantise (env : REnv) (elem w : Nat) (v : FVal) : Nat × FFlags :=
  let ty := bits w 9 8
  if scaleBad w || v.isNan then (0, FFlags.invalid true)
  else
    match e4m3.decode (w % 256), v with
    | .fin _ sc, .inf neg =>
      if sc = 0 then (0, { FFlags.clear with dz := true })
      else (c4Code ty neg (c4Top ty neg), FFlags.invalid (!env.sat))
    | .fin _ sc, .fin neg n =>
      if sc = 0 then (0, { FFlags.clear with dz := decide (n ≠ 0) })
      else
        let top := c4Top ty neg
        -- |q| in quarters is 4n / sc
        if c4Mag ty top * sc < 4 * n then
          (c4Code ty neg top, { FFlags.clear with of := true, nx := true })
        else
          let lo := ((List.range (top + 1)).filter fun k => c4Mag ty k * sc ≤ 4 * n).length - 1
          let rest := 4 * n - c4Mag ty lo * sc
          let up := decide (rest ≠ 0) &&
            chooseUp env.mode neg (lo % 2 == 1) rest ((c4Mag ty (lo + 1) - c4Mag ty lo) * sc) (env.sr elem)
          (c4Code ty neg (lo + b2n up), { FFlags.clear with nx := decide (rest ≠ 0) })
    | _, _ => (0, FFlags.invalid true)

/-- The eight registers of a block. -/
def eightRegs (a : Reg) : List Reg := (List.finRange 8).map fun (k : Fin 8) => a + ⟨k.val, by omega⟩

/-- QC4 (R156). -/
def execQc4 (m : Mods) (d a b : Reg) (s : State) : Host.Outcome State Fault Refusal :=
  s.run fun c =>
    let env := s.renv c m (s.fold c.t (eightRegs a ++ [b]))
    let w := bits (s.reg32 c.t b).toNat 15 0
    let r := (eightRegs a).zipIdx.foldl (fun (acc : Nat × FFlags) e =>
      let q := quantise env e.2 w (s.f32 c.t e.1)
      (acc.1 + q.1 * 16 ^ e.2, acc.2.join q.2)) (0, FFlags.clear)
    s.lane c m [one d] [] [eight a, one b] ⟨[(d.val, BitVec.ofNat 32 r.1)], [], r.2, false⟩

/-- One code decoded under a scale word (R101, R157). -/
def dequantise (w code : Nat) : Word :=
  if scaleBad w then 0x7FC00000
  else BitVec.ofNat 32 (fp32.round rneEnv 0 ((c4Value (bits w 9 8) code).mul (e4m3.decode (w % 256)))).1

/-- DQC4 (R157). -/
def execDqc4 (m : Mods) (d a b : Reg) (s : State) : Host.Outcome State Fault Refusal :=
  s.run fun c =>
    let w := bits (s.reg32 c.t b).toNat 15 0
    s.lane c m [eight d] [] [one a, one b]
      ⟨(List.range 8).map fun k => (d.val + k, dequantise w (bits (s.reg32 c.t a).toNat (4 * k + 3) (4 * k))), [],
        FFlags.invalid (scaleBad w), false⟩

/-! ## The generator -/

/-- RAND and RANDF (R160): the value is written to DST and the counter g[SA] is advanced; ZERO writes DST
alone. -/
def State.random (s : State) (c : Ctx) (m : Mods) (d a b : Reg) (f : Word → Word) : State :=
  let ctr := s.reg32 c.t a
  let y := f (mix c.tm.rngkey c.linear (s.reg32 c.t b).toNat ctr.toNat)
  if s.on c.t m then
    s.checked c [one d, one a, one b] [one a, one b]
      (s.laneDone c m ⟨[(d.val, y), (a.val, ctr + 1)], [], FFlags.clear, decide (ctr + 1 = 0)⟩)
  else if m.zero then s.laneDone c m (zeroed [one d] [])
  else s.laneDone c m (LaneResult.ofRegs [])

/-- RAND (R160). -/
def execRand (m : Mods) (d a b : Reg) (s : State) : Host.Outcome State Fault Refusal :=
  s.run fun c => s.random c m d a b id

/-- RANDF (R160). -/
def execRandf (m : Mods) (d a b : Reg) (s : State) : Host.Outcome State Fault Refusal :=
  s.run fun c => s.random c m d a b fun y =>
    BitVec.ofNat 32 (fp32.round rneEnv 0 (.fin false (y.toNat / 256 * (unit / 2 ^ 24)))).1

/-! ## Compares -/

/-- The value of a floating-point compare operand (R124). -/
def State.fltOperand (s : State) (t : Thread) (ty : CmpType) (r : Reg) : FVal :=
  let ftz := csrFtz (s.csr t)
  match ty with
  | .f16 => fp16.operand ftz (half (s.reg32 t r) 0)
  | .bf16 => bf16.operand ftz (half (s.reg32 t r) 0)
  | .f32 | .s32 | .u32 | .s64 | .u64 => fp32.operand ftz (s.reg32 t r).toNat

/-- The conditions that hold for unordered operands: codes 0x8 and above (R124). -/
def condUnordered : Cond → Bool
  | .ueq | .une | .ult | .ule | .ugt | .uge => true
  | .eq | .ne | .lt | .le | .gt | .ge | .num | .nan => false

/-- The conditions that raise NV for any NaN: codes 0x2 to 0x5 (R109). -/
def condSignalling : Cond → Bool
  | .lt | .le | .gt | .ge => true
  | .eq | .ne | .num | .nan | .ueq | .une | .ult | .ule | .ugt | .uge => false

/-- The outcome of a floating-point compare and its NV flag (R109, R124). -/
def fltCompare (cd : Cond) (a b : FVal) : Bool × FFlags :=
  let un := a.isNan || b.isNan
  let t :=
    match cd with
    | .num => !un
    | .nan => un
    | .eq | .ne | .lt | .le | .gt | .ge | .ueq | .une | .ult | .ule | .ugt | .uge =>
      if un then condUnordered cd else relation cd a.key b.key
  (t, FFlags.invalid (a.isSnan || b.isSnan || (un && condSignalling cd)))

/-- The integer type of an integer compare type. -/
def cmpInt : CmpType → IntType
  | .u32 => .u32
  | .s64 => .s64
  | .u64 => .u64
  | .s32 | .f32 | .f16 | .bf16 => .s32

/-- CMP (R123, R124). -/
def execCmp (m : Mods) (p : Pred) (a b : Reg) (cd : Cond) (ty : CmpType) (s : State) :
    Host.Outcome State Fault Refusal :=
  s.run fun c =>
    let r :=
      if ty.float then fltCompare cd (s.fltOperand c.t ty a) (s.fltOperand c.t ty b)
      else (relation cd (s.intOperand c.t (cmpInt ty) a) (s.intOperand c.t (cmpInt ty) b), FFlags.clear)
    s.lane c m [] [p] [ty.blk a, ty.blk b] ⟨[], [(p, r.1)], r.2, false⟩

end Sys2Proof.Machine
end

