-- ==== Sys2Proof/Machine/Life.lean ====
section
/-! DEFINITION. The life of threads, teams and launches: creation (R14, R15, R30, R326 to R328),
placement (R331), the spawn tree (R329), the end of a team (R13), saving and restoring a team (R339,
R340, R385, R386, R461). -/

namespace Sys2Proof.Machine

/-! ## Launch packets -/

/-- Registers per thread that a packet asks for (R320). -/
def pktRegs (p : List Byte) : Nat := (field p 5 1 % 16 + 1) * 8

/-- Groups per team. -/
def pktGroups (p : List Byte) : Nat := field p 6 1 % 64 + 1

/-- Cluster height in mesh rows. -/
def pktRows (p : List Byte) : Nat := bits (field p 7 1) 6 3 + 1

/-- Cluster width in mesh columns. -/
def pktCols (p : List Byte) : Nat := bits (field p 7 1) 2 0 + 1

/-- Entry clause header. -/
def pktCode (p : List Byte) : Nat := field p 8 8

/-- Clusters in the grid. -/
def pktNclu (p : List Byte) : Nat := field p 24 4

/-- Scratch units per team. -/
def pktScr (p : List Byte) : Nat := field p 28 2

/-- Barrier registers used. -/
def pktNbar (p : List Byte) : Nat := field p 30 1 % 32

/-- The status with which the checks of R321 refuse a descriptor before NO_FIT, 0 for none; `type` says
whether the TYPE is allowed. -/
def pktStatus (type : Bool) (p : List Byte) : Nat :=
  if !type then 1
  else if bits (field p 1 1) 7 3 ≠ 0 ∨ bits (field p 4 1) 7 3 ≠ 0 ∨ bits (field p 5 1) 7 4 ≠ 0 ∨
      bits (field p 6 1) 7 6 ≠ 0 ∨ bit (field p 7 1) 7 ∨ bits (field p 30 1) 7 5 ≠ 0 ∨ field p 31 1 ≠ 0 then 2
  else if 12 < pktRows p ∨ 12 < pktCols p * pktRows p ∨ pktNclu p = 0 ∨ 496 < pktScr p ∨ 16 < pktNbar p ∨
      field p 32 4 % 16 ≠ 0 ∨ 2 ^ 56 ≤ pktCode p ∨ 2 ^ 56 ≤ field p 40 8 ∨ pktCode p % 4 ≠ 0 then 3
  else if bit (field p 1 1) 0 ∧ bit (field p 36 1) 3 then 4
  else 0

/-! ## Room on a core (R15, R30, R331) -/

/-- The threads resident on a core. -/
def State.coreThreads (s : State) (core : Nat) : List Thread :=
  s.threads.filter fun t =>
    match s.team? t.team with
    | none => false
    | some m => m.core == core

/-- A thread slot of a slice is free on all 32 lanes. -/
def slotFree (ts : List Thread) (slice slot : Nat) : Bool := ts.all fun t => !(t.slice == slice && t.slot == slot)

/-- A slice has room for `alloc` more registers on all 32 lanes. -/
def regRoom (ts : List Thread) (slice alloc : Nat) : Bool :=
  (List.finRange 32).all fun lane =>
    decide ((ts.filter fun t => t.slice == slice && t.lane == lane).foldl (fun n t => n + t.alloc) 0 + alloc ≤ 2048)

/-- A slice and slot for one more group: the lowest slice with room that holds fewer than 16 of the
team's groups, and its lowest free slot. -/
def pickSlot (ts : List Thread) (taken : List (Nat × Nat)) (alloc : Nat) : Option (Nat × Nat) :=
  (List.range 4).findSome? fun slice =>
    let mine := taken.filter fun e => e.1 == slice
    if decide (mine.length < 16) && regRoom ts slice ((mine.length + 1) * alloc) then
      ((List.range 16).find? fun slot => slotFree ts slice slot && !(taken.contains (slice, slot))).map
        fun slot => (slice, slot)
    else none

/-- Slices and slots for n groups in ascending group index. -/
def pickSlots (ts : List Thread) (alloc : Nat) : Nat → Option (List (Nat × Nat))
  | 0 => some []
  | n + 1 =>
    match pickSlots ts alloc n with
    | none => none
    | some l => (pickSlot ts l alloc).map fun e => l ++ [e]

/-- The scratch units of a core that are free, by their banks (R252). -/
def State.freeUnits (s : State) (core : Nat) : List (Nat × List Nat) :=
  let used := (s.teams.filter fun m => m.core == core).flatMap fun m => m.units
  let banks := (List.range 32).filter fun b => (s.bank core b).mode == .scratch
  banks.map fun b => (b, (List.range 16).filter fun u => !used.contains (b, u))

/-- The bank with the most free units. -/
def fullest (l : List (Nat × List Nat)) : Option (Nat × List Nat) :=
  l.foldl (fun best e =>
    match best with
    | none => if e.2.isEmpty then none else some e
    | some b => if b.2.length < e.2.length then some e else best) none

/-- Takes n free units, each from another bank than the one before it as far as the free units allow (R252): of the
other banks, the one with the most, and there the lowest unit (log entry 104); none when there are too few. -/
def spread : Nat → Option Nat → List (Nat × List Nat) → Option (List (Nat × Nat))
  | 0, _, _ => some []
  | n + 1, last, l =>
    match (fullest (l.filter fun e => some e.1 != last)).or (fullest l) with
    | none => none
    | some e =>
      let rest := l.map fun x => if x.1 == e.1 then (x.1, x.2.tail) else x
      (spread n (some e.1) rest).map fun us => (e.1, e.2.head?.getD 0) :: us

/-- The slices, slots and scratch units that a team of a shape takes on a core; none when the core is
not eligible (R331). -/
def State.coreFit (s : State) (part core groups alloc scr : Nat) : Option (List (Nat × Nat) × List (Nat × Nat)) :=
  if coreExists core && s.corePart core == some part &&
      decide ((s.teams.filter fun m => m.core == core).length ≤ 15) then
    match pickSlots (s.coreThreads core) alloc groups with
    | none => none
    | some slots =>
      (spread scr none (s.freeUnits core)).map fun units => (slots, units)
  else none

/-- A core by die, column and row (R36). -/
def coreAt (die col row : Nat) : Nat := 128 * die + 16 * col + row

/-- The cores of a rectangle, row by row (log entry 17). -/
def rectCores (die col row cols rows : Nat) : List Nat :=
  (List.range rows).flatMap fun r => (List.range cols).map fun c => coreAt die (col + c) (row + r)

/-- The rectangles of a shape in the order of R331: lowest die, then column, then row. -/
def rects (cols rows : Nat) : List (List Nat) :=
  (List.range 4).flatMap fun die => (List.range (9 - cols)).flatMap fun col =>
    (List.range (13 - rows)).map fun row => rectCores die col row cols rows

/-- A placement for each core of a list; none when one of them is not eligible. -/
def State.fitAll (s : State) (part groups alloc scr : Nat) (cores : List Nat) :
    Option (List (Nat × List (Nat × Nat) × List (Nat × Nat))) :=
  cores.foldr (fun core acc =>
    match acc, s.coreFit part core groups alloc scr with
    | some l, some (slots, units) => some ((core, slots, units) :: l)
    | _, _ => none) (some [])

/-- The cluster placement that R331 chooses, none when there is no room. -/
def State.clusterFit (s : State) (part groups alloc scr cols rows : Nat) :
    Option (List (Nat × List (Nat × Nat) × List (Nat × Nat))) :=
  (rects cols rows).findSome? fun cores => s.fitAll part groups alloc scr cores

/-- The state with every thread and team of a partition's cores away: the empty cores of NO_FIT (R321). -/
def State.emptied (s : State) : State := { s with threads := [], teams := [] }

/-- The shape can be placed in the partition's empty cores (R321). -/
def State.canFit (s : State) (part : Nat) (p : List Byte) : Bool :=
  (s.emptied.clusterFit part (pktGroups p) (pktRegs p) (pktScr p) (pktCols p) (pktRows p)).isSome

/-! ## Creation -/

/-- A frame that nothing has written. -/
def Frame.zero : Frame := { xpc := 0, orig := 0, xcause := 0, xinfo := 0, xmask := 0, xpred := 0, xflags := 0, xcb := 0 }

/-- An inactive loop level (R14). -/
def Loop.zero : Loop := { start := 0, stop := 0, count := 0 }

/-- Loop levels and return stack at creation (R14). -/
def Flow.zero : Flow := { lc0 := Loop.zero, lc1 := Loop.zero, rstk := Vector.replicate 8 0, depth := 0 }

/-- A thread at creation (R14). -/
def Thread.create (id team grp : Nat) (lane : Fin 32) (slice slot alloc : Nat) (arg : DWord) (code : VAddr)
    (level : Level) : Thread :=
  { id := id, team := team, grp := grp, lane := lane, slice := slice, slot := slot, alloc := alloc
    regs := ((Vector.replicate 128 0).set 0 (lo32 arg)).set 1 (hi32 arg)
    preds := 1, flags := Vector.replicate 12 0, flow := Flow.zero, pc := code, cb := code, hdr := 0
    entered := false, fpcsr := 0, level := level, frameU := Frame.zero, frameS := Frame.zero
    activeU := false, activeS := false, region := none
    arr := Vector.replicate 16 { pending := false, phase := false, done := false }
    pend := [], wait := .run, held := none, age := 0, lastIssue := 0, ready := 0, demoted := false
    yielded := false, passed := false, place := .home, poison := 0, fails := []
    freeze := none, withdrawn := [], issue := 0, trapAt := none, gaveTurn := false
    readyHalf := false, lastHalf := false, chosen := [], born := 0, stepAt := false, uncounted := 0 }

/-- A team at placement (R13, R27 to R31, R239, R246). -/
def Team.create (id launch cluster tree core teamIdx cluIdx ngrp nteam nclu tbase regsF scr nbar : Nat)
    (rngkey : DWord) (units slots : List (Nat × Nat)) (order : Nat) : Team :=
  { id := id, launch := launch, cluster := cluster, tree := tree, core := core, teamIdx := teamIdx
    cluIdx := cluIdx, ngrp := ngrp, nteam := nteam, nclu := nclu, tbase := tbase, regsF := regsF, scr := scr
    nbar := nbar
    bars := Vector.replicate 16 { init := false, phase := false, arrived := 0, expect := 0 }
    convs := Vector.replicate 16 { state := 0, grp := 0, declared := 0, signed := 0, pc := 0 }
    cps := Vector.replicate 8 0x00FFF000
    trapvec := 0, rngkey := rngkey, ejt := 2, defer := false, scratch := [], full := [], scrPoison := []
    units := units, bins := Vector.replicate 256 0, pmcnt := Vector.replicate 8 0
    pmsel := Vector.replicate 8 0, pmfrz := false, stepmask := 0, fifoMark := none, slots := slots
    phase := .running, order := order }

/-- The threads of a team at placement, group by group and lane by lane. -/
def newThreads (first team alloc : Nat) (slots : List (Nat × Nat)) (arg : DWord) (code : VAddr) (level : Level) :
    List Thread :=
  slots.zipIdx.flatMap fun e => (List.finRange 32).map fun lane =>
    Thread.create (first + 32 * e.2 + lane.val) team e.2 lane e.1.1 e.1.2 alloc arg code level

/-- Places one team of a placement (R331). -/
def State.placeTeam (s : State) (l : Launch) (p : Placement) (cluster teamIdx : Nat)
    (at' : Nat × List (Nat × Nat) × List (Nat × Nat)) : State :=
  let id := s.nextId
  let tm := Team.create id l.id cluster p.tree at'.1 teamIdx p.next p.ngrp p.nteam p.nclu p.tbase
    (field p.desc 5 1 % 16) (pktScr p.desc) (pktNbar p.desc) (BitVec.ofNat 64 (field l.packet 48 8)) at'.2.2 at'.2.1 s.nextId
  let ts := newThreads (id + 1) id (pktRegs p.desc) at'.2.1 p.arg (BitVec.ofNat 56 (pktCode p.desc)) l.level
  let s := s.setLaunch { l with cores := if at'.1 ∈ l.cores then l.cores else at'.1 :: l.cores }
  let ms := s.ms.acquire at'.1 l.dev .sys
  { s with teams := s.teams ++ [tm], threads := s.threads ++ ts, nextId := id + 1 + ts.length, ms := ms }

/-- Places every team of a cluster (R331). -/
def State.placeCluster (s : State) (p : Placement)
    (ats : List (Nat × List (Nat × Nat) × List (Nat × Nat))) : State :=
  let cluster := s.nextId
  let s := { s with nextId := s.nextId + 1 }
  ats.zipIdx.foldl (fun s e =>
    match s.launch? p.launch with
    | none => s
    | some l => s.placeTeam l p cluster e.2 e.1) s

/-! ## The end of threads and teams -/

/-- The device of a resident team's launch. -/
def State.teamDev (s : State) (id : Nat) : Nat :=
  match s.team? id with
  | none => 0
  | some m => ((s.launch? m.launch).map fun l => l.dev).getD 0

/-- Team t has a thread that has not ended, resident or saved. -/
def State.teamLive (s : State) (id : Nat) : Bool :=
  s.threads.any (fun t => t.team == id) || s.saved.any (fun v => v.team.id == id && !v.frozen && !v.threads.isEmpty)

/-- Counts the end of the groups of one seed or SPAWN (R329): once all of them are placed and no thread of
them is live, the counter falls. -/
def State.treeCheck (s : State) (launch tree : Nat) : State :=
  match s.launch? launch with
  | none => s
  | some l =>
    let live := (s.liveThreads launch).any fun p => p.1.tree == tree
    if !live && l.trees.any (fun x => x.id == tree && x.unplaced == 0) then
      s.setLaunch { l with counter := l.counter - 1, trees := l.trees.filter fun x => x.id != tree }
    else s

/-- Ends the pins of a team of a device (R223); its home package is told of one on another member's page (R301). -/
def State.endPins (s : State) (dev team : Nat) : State :=
  let mine := fun p : Pin => p.src.isNone && p.team == team
  let far := s.ver.pins.filter fun p => mine p && isRemote p.entry && p.count != 0
  far.foldl (fun s p => s.sendTo dev (p.entry / 2 ^ 50 - 1) (.unpin (p.entry / 2 ^ 50 - 1) (p.entry % 2 ^ 50) team))
    { s with ver := { s.ver with pins := s.ver.pins.filter fun p => !mine p } }

/-- Ends a team whose last thread has exited and whose last engine operation has completed (R13): its
pins end with it (R223). -/
def State.teamCheck (s : State) (id : Nat) : State :=
  if s.teamLive id || s.eng.tcopies.any (fun c => c.team == id) || s.coll.stages.any (fun g => g.team == id && !g.read)
  then s
  else ({ s with teams := s.teams.filter fun m => m.id != id }).endPins (s.teamDev id) id

/-- Removes a thread, frees what it held, and counts its end (R141, R329). -/
def State.removeThread (s : State) (t : Thread) : State :=
  match s.team? t.team with
  | none => { s with threads := s.threads.filter fun x => x.id != t.id }
  | some m =>
    let s := { s with threads := s.threads.filter fun x => x.id != t.id }
    (((s.settle m.launch).treeCheck m.launch m.tree).teamCheck m.id)

/-! ## Saved teams -/

/-- The bytes of a frame but for XCB (R385). -/
def Frame.bytes (f : Frame) : List Byte :=
  toBytes 8 f.xpc.toNat ++ toBytes 8 f.xinfo.toNat ++ toBytes 4 f.xcause.toNat ++ toBytes 4 f.xmask.toNat ++
    toBytes 4 f.xpred.toNat ++ toBytes 4 f.xflags.toNat

/-- The bytes of a loop level (R385). -/
def Loop.bytes (l : Loop) : List Byte := toBytes 8 l.start.toNat ++ toBytes 8 l.stop.toNat ++ toBytes 8 l.count.toNat

/-- The bytes of the return stack. -/
def Flow.stack (f : Flow) : List Byte := f.rstk.toList.flatMap fun a => toBytes 8 a.toNat

/-- A withdrawn operation (R385): word address, FN and major, operand values, flag-count effect. -/
def Op.bytes (o : Op) : List Byte :=
  let (fn, a, b) := match o.kind with
    | .ldfe dst n team off clear => ((if clear then 1 else 0) * 64 + 0x2F, dst + 256 * n, off + 2 ^ 32 * team)
    | .fifoPop dst n core bank => (3 * 64 + 0x2F, dst + 256 * n, bank + 2 ^ 32 * core)
    | .fifoPush _ v _ _ => (4 * 64 + 0x2F, v % 2 ^ 64, v / 2 ^ 64)
    | _ => (0, 0, 0)
  toBytes 8 o.word.toNat ++ toBytes 4 fn ++ toBytes 8 a ++ toBytes 8 b ++ toBytes 4 o.flags.toNat

/-- The withdrawn operation of a thread (R385): the first that it has outstanding, or the LDV.MIN or VPIN in which it
waits (R223), with the address and the oldest acceptable step (log entry 71). -/
def Thread.withdrawnBytes (t : Thread) : Option (List Byte) :=
  match t.withdrawn with
  | o :: _ => some o.bytes
  | [] =>
    match t.wait with
    | .version _ va least _ pin _ =>
      some (toBytes 8 t.pc.toNat ++ toBytes 4 ((if pin then 2 else 0) * 64 + 0x36) ++ toBytes 8 va ++ toBytes 8 least.toNat ++
        toBytes 4 (hdrSets t.hdr).toNat)
    | _ => none

/-- The word of flags and modes at 0x024 of the thread block (R385). -/
def Thread.modeWord (t : Thread) : Nat :=
  let (op, re, point, n) := match t.region with
    | none => (0, 0, 0, 0)
    | some r => (1, b2n r.restarting, b2n (r.restarting && t.pc == r.cp.rgn), r.retries)
  b2n t.activeU + 2 * b2n t.activeS + 4 * t.level.code + 16 * op + 32 * re +
    64 * point + 128 * (n % 8) + 1024 * (t.flow.depth % 16) +
    2 ^ 14 * b2n t.passed + 2 ^ 15 * b2n t.demoted + 2 ^ 16 * b2n t.withdrawnBytes.isSome

/-- The bytes of a checkpoint at 0x0E0 to 0x1A3 (R385). -/
def Checkpoint.bytes (c : Checkpoint) : List Byte :=
  let regs := c.regs.flatMap fun e => toBytes 4 e.2.toNat
  toBytes 8 c.rgn.toNat ++ toBytes 4 (c.sa.val * 65536 + c.mask.toNat) ++ toBytes 4 (c.preds.toNat / 2 * 2) ++
    (regs ++ List.replicate 64 0).take 64 ++ c.flow.lc0.bytes ++ c.flow.lc1.bytes ++ c.flow.stack ++
    toBytes 4 c.flow.depth

/-- The arrival records of a thread in one word (R385). -/
def Thread.arrWord (t : Thread) : Nat :=
  (List.finRange 16).foldl (fun v (n : Fin 16) =>
    v + (b2n t.arr[n.val].pending + 2 * b2n t.arr[n.val].phase) * 4 ^ n.val) 0

/-- The 512-byte block of a thread (R385). -/
def Thread.block (t : Thread) : List Byte :=
  let cp := match t.region with
    | none => List.replicate 196 0
    | some r => r.cp.bytes
  let cpcb := match t.region with
    | none => 0
    | some r => r.cp.cb.toNat
  let wd := t.withdrawnBytes.getD (List.replicate 32 0)
  toBytes 8 t.pc.toNat ++ toBytes 8 t.cb.toNat ++ toBytes 4 (t.preds.toNat / 2 * 2 + 1) ++ toBytes 4 t.fpcsr.toNat ++
    t.flags.toList.flatMap (fun n => toBytes 1 n) ++ toBytes 4 t.modeWord ++ t.flow.lc0.bytes ++ t.flow.lc1.bytes ++
    toBytes 8 t.frameU.xcb.toNat ++ t.flow.stack ++ t.frameU.bytes ++ t.frameS.bytes ++ cp ++ toBytes 4 t.arrWord ++
    wd ++ toBytes 8 t.frameS.xcb.toNat ++ toBytes 8 cpcb ++ List.replicate 40 0

/-- A barrier register as BARn shows it (R27). -/
def Bar.word (b : Bar) : Word :=
  BitVec.ofNat 32 (b2n b.init * 2 ^ 31 + b2n b.phase * 2 ^ 24 + b.arrived.toNat * 4096 + b.expect.toNat)

/-- The control word CVCn of a convergence register (R28). -/
def Conv.word (c : Conv) : Word := BitVec.ofNat 32 (c.state.toNat * 256 + c.grp.toNat)

/-- The 4,096-byte team block (R461); `next` is the offset of the next save. -/
def Team.block (m : Team) (frozen : Bool) (next : Nat) : List Byte :=
  let pad := fun (l : List Byte) n => (l ++ List.replicate n 0).take n
  let slots := m.slots.map fun e => BitVec.ofNat 8 (e.1 * 64 + e.2)
  pad (m.bars.toList.flatMap fun b => toBytes 4 b.word.toNat) 0x40 ++
    pad (m.convs.toList.flatMap fun c =>
      toBytes 4 c.declared.toNat ++ toBytes 4 c.signed.toNat ++ toBytes 4 c.word.toNat ++ [0, 0, 0, 0]) 0x100 ++
    pad (m.convs.toList.flatMap fun c => toBytes 8 c.pc.toNat) 0x80 ++
    pad (m.cps.toList.flatMap fun w => toBytes 4 w.toNat) 0x20 ++
    toBytes 8 m.trapvec.toNat ++ toBytes 8 m.rngkey.toNat ++ toBytes 4 m.ejt ++ toBytes 4 (b2n m.defer) ++
    toBytes 4 (b2n m.pmfrz) ++
    toBytes 4 (b2n m.fifoMark.isSome * 2 ^ 31 + m.core) ++
    pad (toBytes 8 m.stepmask.toNat) 0x40 ++
    pad (m.pmcnt.toList.flatMap fun w => toBytes 8 w.toNat) 0x40 ++
    pad (m.pmsel.toList.flatMap fun w => toBytes 4 w.toNat) 0x180 ++
    pad (m.bins.toList.flatMap fun w => toBytes 4 w.toNat) 0x400 ++
    toBytes 8 next ++ toBytes 4 (b2n frozen * 2 ^ 31) ++ toBytes 4 ((m.ngrp - 1) * 256 + m.teamIdx) ++
    toBytes 8 (m.linear 0 0 / 32) ++ toBytes 4 m.cluIdx ++
    toBytes 4 (m.nbar * 2 ^ 20 + m.regsF * 2 ^ 16 + m.scr) ++ List.replicate 0x20 0 ++ pad slots 0x40 ++
    List.replicate 0x780 0

/-- The offset of the first thread within a save (R461). -/
def Team.threadOff (m : Team) : Nat := (4096 * (m.scr + 1) + 32 * m.scr + 63) / 64 * 64

/-- The bytes that a save takes, rounded up to 4,096. -/
def SavedTeam.size (v : SavedTeam) : Nat :=
  (v.team.threadOff + v.threads.foldl (fun n t => n + 512 + 4 * t.alloc) 0 + 4095) / 4096 * 4096

/-- The full-empty bits of a save (R461). -/
def Team.fullBytes (m : Team) : List Byte :=
  (List.range (32 * m.scr)).map fun j =>
    BitVec.ofNat 8 ((List.range 8).foldl (fun v i => v + b2n (m.full.contains (8 * j + i)) * 2 ^ i) 0)

/-- Writes a save and its link to memory (R461). -/
def State.writeSave (s : State) (base : Nat) (v : SavedTeam) (next : Nat) : State :=
  let a := base + v.off
  let s := s.pocWrite a (v.team.block v.frozen next)
  let s := s.pocWrite (a + 4096) (v.team.scrRead 0 (4096 * v.team.scr))
  let s := s.pocWrite (a + 4096 * (v.team.scr + 1)) v.team.fullBytes
  (v.threads.foldl (fun (acc : State × Nat) t =>
    let l := t.block ++ (t.regs.toList.take t.alloc).flatMap fun w => toBytes 4 w.toNat
    (acc.1.pocWrite acc.2 l, acc.2 + l.length)) (s, a + v.team.threadOff)).1

/-- The saves of a device. -/
def State.savesOf (s : State) (dev : Nat) : List SavedTeam := s.saved.filter fun v => v.dev == dev

/-- Writes the links of a device's saves: the head of the list, and each save's next (R461). -/
def State.linkSaves (s : State) (dev : Nat) : State :=
  let base := s.regField (vdOff dev 0x50) 49 0
  let l := s.savesOf dev
  let offs := l.map fun v => v.off
  let s := s.pocWrite base (toBytes 8 (offs.head?.getD 0))
  (offs.zip (offs.tail ++ [0])).foldl (fun s e => s.pocWrite (base + e.1 + 0x800) (toBytes 8 e.2)) s

/-- The lowest offset in the save area above every save of the device. -/
def State.saveOff (s : State) (dev : Nat) : Nat :=
  (s.savesOf dev).foldl (fun n v => max n (v.off + v.size)) 4096

/-- Restores the checkpoint, after the lane-class results that are still to be written, and sets the thread to
re-execute RGN.B (R229). -/
def Thread.restart (t : Thread) (r : Region) : Thread :=
  let u := t.landAll.puts r.cp.regs
  { u with
    preds := r.cp.preds
    flow := r.cp.flow
    pc := r.cp.rgn
    cb := r.cp.cb
    entered := false
    wait := .run
    held := none
    region := some { r with restarting := true } }

/-- A save restarts the thread's region, unless a handler runs or the thread stands at the trap that froze its team
(R229, R339, R379, R384). -/
def Thread.savedRestarts (t : Thread) : Bool := t.freeze.isNone && t.region.any fun r => !r.suspended t.activeU t.activeS

/-- The thread as it is saved (R339): no header is in force for it (R55), waits that return to their boundary do so, a withdrawn LDV.MIN or VPIN waits on
for its re-submission (R223), a sleep is complete, and an open region stands at its restart point. -/
def Thread.saving (t : Thread) : Thread :=
  let t := t.landAll
  let t :=
    match t.wait with
    | .barrier _ _ | .sign _ _ | .asleep _ _ _ | .past _ => { t with entered := false }
    | .version k va least d pin _ => { t with wait := .version k va least d pin none, held := none, entered := false }
    | .run | .walk _ _ _ | .replay _ | .ops _ | .step _ | .token | .flagRoom | .join _ | .sleep _ _ | .accept _ _ |
      .exiting => { t with wait := .run, held := none, entered := false }
  let t := { t with age := 0 }
  match t.region with
  | none => t
  | some r => if t.savedRestarts then t.restart r else t

/-- A saved thread back on its core (R386): a withdrawn LDV.MIN or VPIN is submitted again, its time counted anew
(R223). -/
def Thread.restored (t : Thread) (tick : Nat) : Thread :=
  { t with
    withdrawn := [], age := 0, lastIssue := tick, ready := tick + 1
    wait := match t.wait with
      | .version _ _ _ _ _ _ => .run
      | w => w }

end Sys2Proof.Machine
end

