-- ==== Sys2Proof/Machine/Group.lean ====
section
/-! DEFINITION. Signing on convergence registers and what completes when a set has signed (R28, R161 to
R167, R213 to R217); the group operations, majors 0x24 to 0x27; EXIT (R141). -/

namespace Sys2Proof.Machine

/-! ## Signing -/

/-- A convergence register of a team. -/
def Team.conv (tm : Team) (n : Fin 16) : Conv := tm.convs[n]

/-- Sets a convergence register of a team. -/
def Team.setConv (tm : Team) (n : Fin 16) (c : Conv) : Team := { tm with convs := tm.convs.set n c }

/-- Every declared lane has signed (R214). -/
def Conv.full (c : Conv) : Bool := c.declared &&& ~~~c.signed == 0

/-- The register is held by a completed ELECT, or its set has completed and has not taken effect yet
(R214). -/
def Conv.held (c : Conv) : Bool := decide (c.state = 2) && c.full

/-- A completed register serves the next instruction (R214). -/
def Conv.next (c : Conv) : Conv := { c with signed := 0, pc := 0, state := 1 }

/-- Removes the lanes of a mask from the signed mask; a register without a signer returns to STATE 01
(R384). -/
def Conv.unsign (c : Conv) (lane : Fin 32) : Conv :=
  let signed := c.signed &&& ~~~laneBit lane
  if signed = 0 then { c with signed := 0, pc := 0, state := 1 } else { c with signed := signed }

/-- The signature that a thread has given on a convergence register. -/
def Thread.signature (t : Thread) (n : Fin 16) : Option Sign :=
  match t.wait with
  | .sign k sg => if k = n then some sg else none
  | _ => none

/-- A signer: its thread and its signature. -/
abbrev Signer := Thread × Sign

/-- The signers of a set, in ascending lane order. -/
def State.signers (s : State) (team : Nat) (n : Fin 16) : List Signer :=
  (List.finRange 32).filterMap fun lane =>
    s.threads.findSome? fun t =>
      if t.team == team && t.lane == lane then (t.signature n).map fun sg => (t, sg) else none

/-- Ends a signer's wait: it continues with its next word (R161). -/
def State.release1 (s : State) (g : Signer) (f : Thread → Thread) : State :=
  match s.thread? g.1.id, s.team? g.1.team with
  | some t, some tm => s.resume tm g.2.words (f t)
  | _, _ => s

/-! ## Group operations -/

/-- The signers that are predicated on (R162). -/
def contributors (l : List Signer) : List Signer := l.filter fun g => g.2.on

/-- The mask of some signers. -/
def maskOf (l : List Signer) : Word := l.foldl (fun v g => v ||| laneBit g.1.lane) 0

/-- What a receiver is given: registers, predicates and flags. -/
structure Gift where
  regs : List (Nat × Word)
  preds : List (Pred × Bool)
  flags : FFlags
  deriving DecidableEq, Repr

/-- One register and no flag. -/
def Gift.reg (d : Reg) (v : Word) : Gift := ⟨[(d.val, v)], [], FFlags.clear⟩

/-- One predicate and no flag. -/
def Gift.pred (p : Pred) (v : Bool) : Gift := ⟨[], [(p, v)], FFlags.clear⟩

/-- The input predicate of an agreement form (R164). -/
def State.input (s : State) (a : PredSel) (g : Signer) : Bool := s.pred g.1 a.p != a.neg

/-- The source lane of a lane exchange (R163). -/
def exchangeLane (mode : XMode) (lane v : Nat) : Nat :=
  match mode with
  | .pick => v
  | .rotup => (lane + 32 - v % 32) % 32
  | .rotdn => (lane + v) % 32
  | .mirror => (lane ^^^ v) % 32

/-- The identity of a reduction (R165). -/
def groupIdentity (o : GroupOp) (float : Bool) : Word :=
  match o, float with
  | .add, true => 0x80000000
  | .mins, true => 0x7F800000
  | .maxs, true => 0xFF800000
  | .mins, false => 0x7FFFFFFF
  | .maxs, false => 0x80000000
  | .minu, _ => 0xFFFFFFFF
  | .and, _ => 0xFFFFFFFF
  | .add, false | .maxu, _ | .or, _ | .xor, _ => 0

/-- One step of a reduction (R165, R166). -/
def groupStep (env : REnv) (o : GroupOp) (float : Bool) (a b : Word) : Word × FFlags :=
  if float then
    match o with
    | .add => asWord (fp32.add env 0 (fp32.operand env.ftz a.toNat) (fp32.operand env.ftz b.toNat))
    | .mins | .minu => asWord (fp32.minMax env.ftz false false a.toNat b.toNat)
    | .maxs | .maxu => asWord (fp32.minMax env.ftz true false a.toNat b.toNat)
    | .and | .or | .xor => (a, FFlags.clear)
  else
    (match o with
     | .add => a + b
     | .mins => elMins a b
     | .minu => elMinu a b
     | .maxs => elMaxs a b
     | .maxu => elMaxu a b
     | .and => a &&& b
     | .or => a ||| b
     | .xor => a ^^^ b, FFlags.clear)

/-- The rounding of a group operation: the lowest contributor's, SR treated as RNE (R166). -/
def State.groupEnv (s : State) (l : List Signer) : REnv :=
  match l with
  | [] => rneEnv
  | g :: _ =>
    let mode := roundMode ⟨none, g.2.pre, none⟩ (s.csr g.1)
    ⟨if mode = .sr then .rne else mode, csrFtz (s.csr g.1), false, fun _ => 0⟩

/-- The result of a reduction or scan for a receiver (R165). -/
def State.groupReduce (s : State) (l : List Signer) (fn : ScanFn) (a : Reg) (o : GroupOp) (float : Bool)
    (g : Signer) : Word × FFlags × Bool :=
  let used := l.filter fun x =>
    match fn with
    | .reduce => true
    | .scan => decide (x.1.lane ≤ g.1.lane)
    | .scanx => decide (x.1.lane < g.1.lane)
  let r := used.foldl (fun (acc : Word × FFlags) x =>
    let y := groupStep (s.groupEnv l) o float acc.1 (s.reg32 x.1 a)
    (y.1, acc.2.join y.2)) (groupIdentity o float, FFlags.clear)
  (r.1, r.2, used.isEmpty)

/-- What a receiver is given by its own instruction, over the contributors l (R163 to R165). -/
def State.gift (s : State) (l : List Signer) (g : Signer) : Gift :=
  match g.2.op with
  | .xlane d a mode imm lane =>
    let v := if imm then lane.val else (s.reg32 g.1 ⟨lane.val, by omega⟩).toNat
    let src := exchangeLane mode g.1.lane.val v
    match l.find? fun x => x.1.lane.val == src with
    | some x => Gift.reg d (s.reg32 x.1 a)
    | none => Gift.reg d (s.reg32 g.1 a)
  | .agreeP fn a p =>
    let ins := l.map (s.input a)
    Gift.pred p
      (match fn with
       | .all => ins.all id
       | .some => ins.any id
       | .same => ins.all id || !ins.any id)
  | .agreeMask d a => Gift.reg d (maskOf (l.filter (s.input a)))
  | .agreeCount d a => Gift.reg d (BitVec.ofNat 32 (l.filter (s.input a)).length)
  | .peers d a => Gift.reg d (maskOf (l.filter fun x => s.reg32 x.1 a == s.reg32 g.1 a))
  | .peersAll d a p =>
    let same := l.all fun x => s.reg32 x.1 a == s.reg32 g.1 a
    ⟨[(d.val, if same then maskOf l else 0)], [(p, same)], FFlags.clear⟩
  | .reduce fn d a p o float =>
    let r := s.groupReduce l fn a o float g
    ⟨[(d.val, r.1)], [(p, r.2.2)], r.2.1⟩
  | .cvsync | .elect _ | .mma _ _ _ _ _ _ | .mmaPart _ _ _ _ _ _ | .mmaC4 _ _ _ _ _ | .scacc _ _ _ _ |
    .accmov _ _ | .acczero _ | .accadd _ _ => ⟨[], [], FFlags.clear⟩

/-- Gives a receiver its result: the flags of every step are ORed into each receiver, and a receiver whose
enables cover one traps instead (R166). -/
def State.giveTo (s : State) (flags : FFlags) (g : Signer) (gift : Gift) : State :=
  match fpTrap (s.csr g.1) flags with
  | some cause => s.deliver g.1 cause (BitVec.ofNat 64 flags.code)
  | none =>
    s.release1 g fun t =>
      gift.preds.foldl (fun t e => t.putPred e.1 e.2) ((t.puts gift.regs).orCsr (BitVec.ofNat 32 flags.code))

/-- What ZERO gives a signer that is predicated off (R162). -/
def zeroGift (g : Gift) : Gift := ⟨g.regs.map fun e => (e.1, 0), g.preds.map fun e => (e.1, false), FFlags.clear⟩

/-- A group operation takes effect once for all signers (R161). -/
def State.groupComplete (s : State) (l : List Signer) : State :=
  let on := contributors l
  let gifts := l.map fun g => (g, s.gift on g)
  let flags := gifts.foldl (fun f e => if e.1.2.on then f.join e.2.flags else f) FFlags.clear
  let ids := l.map fun g => g.1.id
  s.asGroup ids fun s t =>
    match gifts.find? fun e => e.1.1.id == t.id with
    | none => s
    | some e =>
      if e.1.2.on then s.giveTo flags (t, e.1.2) e.2
      else
        let z := match e.1.2.pre with
          | some p => p.zero
          | none => false
        let gift := if z then zeroGift e.2 else ⟨[], [], FFlags.clear⟩
        s.giveTo FFlags.clear (t, e.1.2) gift

/-- The signing instruction is one of the matrix unit's. -/
def SignOp.isMatrix : SignOp → Bool
  | .mma _ _ _ _ _ _ | .mmaPart _ _ _ _ _ _ | .mmaC4 _ _ _ _ _ | .scacc _ _ _ _ | .accmov _ _ | .acczero _ |
    .accadd _ _ => true
  | .cvsync | .elect _ | .xlane _ _ _ _ _ | .agreeP _ _ _ | .agreeMask _ _ | .agreeCount _ _ | .peers _ _ |
    .peersAll _ _ _ | .reduce _ _ _ _ _ _ => false

/-- Completes a set whose declared lanes have all signed (R214): CVSYNC and the group operations take
effect, ELECT makes its leader, and a matrix instruction waits for its port (R169). -/
def State.completeSet (s : State) (team : Nat) (n : Fin 16) : State :=
  match s.team? team, s.signers team n with
  | some tm, g :: rest =>
    let l := g :: rest
    if !(tm.conv n).held then s
    else
      match g.2.op with
      | .elect k =>
        let s := rest.foldl (fun s x => s.modThread x.1.id fun t => { t with wait := .asleep n k x.2.words }) s
        s.release1 g fun t => t.putPred k true
      | .cvsync =>
        l.foldl (fun s x => s.release1 x id) (s.modTeam team fun tm => tm.setConv n (tm.conv n).next)
      | .mma _ _ _ _ _ _ | .mmaPart _ _ _ _ _ _ | .mmaC4 _ _ _ _ _ | .scacc _ _ _ _ | .accmov _ _ | .acczero _ |
        .accadd _ _ => s
      | .xlane _ _ _ _ _ | .agreeP _ _ _ | .agreeMask _ _ | .agreeCount _ _ | .peers _ _ | .peersAll _ _ _ |
        .reduce _ _ _ _ _ _ =>
        (s.modTeam team fun tm => tm.setConv n (tm.conv n).next).groupComplete l
  | _, _ => s

/-- A thread signs (R214): the checks in their order, then the signature, then completion. -/
def State.sign (s : State) (c : Ctx) (m : Mods) (n : Fin 16) (op : SignOp) : State :=
  let cv := c.tm.conv n
  if cv.state = 0 ∨ c.t.grp ≠ cv.grp.toNat ∨ !cv.declared.getLsbD c.t.lane.val then
    s.deliver c.t .convMember (BitVec.ofNat 64 n.val)
  else if cv.held then s.deliver c.t .convBusy (BitVec.ofNat 64 n.val)
  else if cv.state ≠ 1 ∧ cv.pc ≠ c.t.pc then s.deliver c.t .convMismatch (cv.pc.setWidth 64)
  else
    let cv := { cv with
      pc := if cv.state = 1 then c.t.pc else cv.pc
      state := 2
      signed := cv.signed ||| laneBit c.t.lane }
    let t := { s.issued c m (1, false) c.t with wait := .sign n ⟨op, s.on c.t m, m.pre, m.words⟩ }
    ((s.setTeam (c.tm.setConv n cv)).setThread t).completeSet c.tm.id n

/-- Runs a signing instruction: an ejected thread comes home first (R350), then checks 5 and the read check
of a thread predicated on, then the signature (R161, R214). -/
def State.signing (s : State) (m : Mods) (n : Fin 16) (dst reads : List Blk) (op : SignOp) :
    Host.Outcome State Fault Refusal :=
  s.run fun c =>
    s.atHome c
      (if s.on c.t m then s.checked c (dst ++ reads) reads (s.sign c m n op) else s.sign c m n op)

/-! ## Majors 0x24 to 0x27 -/

/-- XLANE (R163). -/
def execXlane (m : Mods) (d a : Reg) (mode : XMode) (i : Bool) (l : Fin 32) (c : Fin 16) (s : State) :
    Host.Outcome State Fault Refusal :=
  s.signing m c [one d] (one a :: laneReg i l) (.xlane d a mode i l)

/-- AGREE_ALL (R164). -/
def execAgreeAll (m : Mods) (a : PredSel) (p : Pred) (c : Fin 16) (s : State) : Host.Outcome State Fault Refusal :=
  s.signing m c [] [] (.agreeP .all a p)

/-- AGREE_SOME (R164). -/
def execAgreeSome (m : Mods) (a : PredSel) (p : Pred) (c : Fin 16) (s : State) : Host.Outcome State Fault Refusal :=
  s.signing m c [] [] (.agreeP .some a p)

/-- AGREE_SAME (R164). -/
def execAgreeSame (m : Mods) (a : PredSel) (p : Pred) (c : Fin 16) (s : State) : Host.Outcome State Fault Refusal :=
  s.signing m c [] [] (.agreeP .same a p)

/-- AGREE_MASK (R164). -/
def execAgreeMask (m : Mods) (d : Reg) (a : PredSel) (c : Fin 16) (s : State) : Host.Outcome State Fault Refusal :=
  s.signing m c [one d] [] (.agreeMask d a)

/-- PEERS (R164). -/
def execPeers (m : Mods) (d a : Reg) (c : Fin 16) (s : State) : Host.Outcome State Fault Refusal :=
  s.signing m c [one d] [one a] (.peers d a)

/-- PEERS_ALL (R164). -/
def execPeersAll (m : Mods) (d a : Reg) (p : Pred) (c : Fin 16) (s : State) : Host.Outcome State Fault Refusal :=
  s.signing m c [one d] [one a] (.peersAll d a p)

/-- AGREE_COUNT (R164). -/
def execAgreeCount (m : Mods) (d : Reg) (a : PredSel) (c : Fin 16) (s : State) : Host.Outcome State Fault Refusal :=
  s.signing m c [one d] [] (.agreeCount d a)

/-- GRED (R165). -/
def execGred (m : Mods) (d a : Reg) (p : Pred) (o : GroupOp) (f : Bool) (c : Fin 16) (s : State) :
    Host.Outcome State Fault Refusal :=
  s.signing m c [one d] [one a] (.reduce .reduce d a p o f)

/-- GSCAN (R165). -/
def execGscan (m : Mods) (d a : Reg) (p : Pred) (o : GroupOp) (f : Bool) (c : Fin 16) (s : State) :
    Host.Outcome State Fault Refusal :=
  s.signing m c [one d] [one a] (.reduce .scan d a p o f)

/-- GSCANX (R165). -/
def execGscanx (m : Mods) (d a : Reg) (p : Pred) (o : GroupOp) (f : Bool) (c : Fin 16) (s : State) :
    Host.Outcome State Fault Refusal :=
  s.signing m c [one d] [one a] (.reduce .scanx d a p o f)

/-! ## RELEASE and EXIT -/

/-- The sleepers of a held register with the predicate and length of their ELECT. -/
def State.sleepers (s : State) (team : Nat) (n : Fin 16) : List (Thread × Pred × Nat) :=
  s.threads.filterMap fun t =>
    match t.wait with
    | .asleep k p w => if k = n ∧ t.team = team then some (t, p, w) else none
    | _ => none

/-- The lowest lane of a mask (R216). -/
def lowestLane (w : Word) : Option Nat := lowestSet w

/-- A thread is the leader of a held register: the lowest signed lane of the group (R216). -/
def isLeader (tm : Team) (t : Thread) (n : Fin 16) : Bool :=
  (tm.conv n).held && t.grp == (tm.conv n).grp.toNat && lowestLane (tm.conv n).signed == some t.lane.val &&
    (t.signature n).isNone

/-- Wakes the sleepers of a register and frees it (R216). -/
def State.wake (s : State) (team : Nat) (n : Fin 16) : State :=
  let l := s.sleepers team n
  let s := s.modTeam team fun tm => tm.setConv n (tm.conv n).next
  l.foldl (fun s e =>
    match s.team? team with
    | none => s
    | some tm => s.resume tm e.2.2 (e.1.putPred e.2.1 false)) s

/-- Clears an exiting lane from the convergence registers that record its group and recomputes their
completion (R28, R141). -/
def State.undeclare (s : State) (t : Thread) : State :=
  (List.finRange 16).foldl (fun s (n : Fin 16) =>
    match s.team? t.team with
    | none => s
    | some tm =>
      let cv := tm.conv n
      if cv.grp.toNat = t.grp then
        (s.setTeam (tm.setConv n { cv with declared := cv.declared &&& ~~~laneBit t.lane })).completeSet t.team n
      else s) s

/-- The exit of a thread (R141, R216): a leader releases first, its lane leaves the convergence registers,
and what it held is freed. -/
def State.exitThread (s : State) (t : Thread) : State :=
  let s := (List.finRange 16).foldl (fun s (n : Fin 16) =>
    match s.team? t.team with
    | none => s
    | some tm => if isLeader tm t n then s.wake t.team n else s) s
  (s.undeclare t).removeThread t

/-- The thread has an operation that is outstanding. -/
def State.busy (s : State) (id : Nat) : Bool := s.ops.any fun o => o.th == id

/-- EXIT (R141): the thread waits for its operations, then ends. -/
def execExit (m : Mods) (p : Pred) (n : Bool) (s : State) : Host.Outcome State Fault Refusal :=
  s.run fun c =>
    if s.guard c p n then
      if s.busy c.t.id then s.hold c.t .exiting else s.exitThread c.t
    else s.fallThrough c m

end Sys2Proof.Machine
end

