-- ==== Sys2Proof/Machine/MemInsn.lean ====
section
/-! DEFINITION. The memory instructions, majors 0x2C to 0x30, 0x32 and 0x33, up to their issue: the
address and its checks (R43, R44, R188, R189), the wait for the Mortar token (R294, R337), the FIFO bank
(R200, R201), and what a pod-remote request carries (R387 to R392).  What an operation does when it
completes is in Complete. -/

namespace Sys2Proof.Machine

/-! ## Addresses -/

/-- Where an access lands, or why it does not (R188). -/
inductive Access where
  | ok (loc : Loc) (ord : Bool)
  | trap (cause : Cause) (info : DWord)
  | fault (va : Nat) (f : XFault)
  | miss (va : Nat)
  deriving DecidableEq, Repr

/-- The address that BASE and an offset form (R188). -/
def State.address (s : State) (t : Thread) (sp : Space) (b : Reg) (off : Int) : Nat :=
  match sp with
  | .gl => (s.reg64 t b + BitVec.ofInt 64 off).toNat
  | .sc | .cl | .pv => (s.reg32 t b + BitVec.ofInt 32 off).toNat

/-- Translation of n bytes at a canonical address (R189): the last byte may lie in a 4 KiB unit of its own, the
smallest that a page or a host window covers (R266, R397). -/
def State.globalAccess (s : State) (c : Ctx) (va n : Nat) (want : XWant) : Access :=
  match s.translate c.tm.core c.t.slice c.l.dev va want with
  | .miss => .miss va
  | .fault f => .fault va f
  | .ok x =>
    let head := 4096 - va % 4096
    if n ≤ head then .ok (.mem x.key x.uncached) x.ord
    else
      match s.translate c.tm.core c.t.slice c.l.dev (va + head) want with
      | .miss => .miss (va + head)
      | .fault f => .fault (va + head) f
      | .ok y =>
        .ok (if y.key = x.key + head then .mem x.key (x.uncached || y.uncached)
          else .split head x.key y.key (x.uncached || y.uncached)) (x.ord || y.ord)

/-- The global address that an address of the private space names (R43). -/
def Ctx.privateVa (c : Ctx) (a : Nat) : Nat := (c.l.pvbase.toNat + c.linear * c.l.pvsize.toNat + a) % 2 ^ 64

/-- The name of a team of a cluster by its index, resident or saved; the cluster's own name, which is no
team's, when that team has ended (log entry 18). -/
def State.clusterTeamId (s : State) (tm : Team) (idx : Nat) : Nat :=
  match s.clusterTeam tm idx with
  | some x => x.id
  | none =>
    match s.saved.find? fun v => v.team.cluster == tm.cluster && v.team.teamIdx == idx && !v.frozen with
    | some v => v.team.id
    | none => tm.cluster

/-- Where an access of n bytes at an address of a space lands: the range checks of R43 and R44, then
translation.  A private access whose address wrapped past 2^64 to one without bits [63:56] goes on (log entry 101). -/
def State.resolve (s : State) (c : Ctx) (sp : Space) (a n : Nat) (want : XWant) : Access :=
  match sp with
  | .gl =>
    if a / 2 ^ 56 ≠ 0 ∨ (a + n - 1) / 2 ^ 56 ≠ 0 then .trap .addrNoncanon (BitVec.ofNat 64 a)
    else s.globalAccess c a n want
  | .sc =>
    if c.tm.scrSize < a + n then .trap .scratchBounds (BitVec.ofNat 64 (max a c.tm.scrSize))
    else .ok (.scr c.tm.id a) false
  | .cl =>
    let idx := bits a 24 21
    let off := a % 2 ^ 21
    if a / 2 ^ 25 ≠ 0 ∨ c.tm.nteam ≤ idx then .trap .scratchBounds (BitVec.ofNat 64 a)
    else if c.tm.scrSize < off + n then
      .trap .scratchBounds (BitVec.ofNat 64 (idx * 2 ^ 21 + max off c.tm.scrSize))
    else if idx = c.tm.teamIdx then .ok (.scr c.tm.id off) false
    else
      .ok (.scr (s.clusterTeamId c.tm idx) off) false
  | .pv =>
    let size := c.l.pvsize.toNat
    let g := c.privateVa a
    if size < a + n then .trap .privateBounds (BitVec.ofNat 64 (max a size))
    else if g / 2 ^ 56 ≠ 0 ∨ (g + n - 1) / 2 ^ 56 ≠ 0 then .trap .addrNoncanon (BitVec.ofNat 64 g)
    else s.globalAccess c g n want

/-- The whole address step of an instruction: alignment, range, translation (R188). -/
def State.access (s : State) (c : Ctx) (sp : Space) (a n : Nat) (want : XWant) : Access :=
  if a % n ≠ 0 then .trap .misaligned (BitVec.ofNat 64 a) else s.resolve c sp a n want

/-- Goes on with the location of an access; a thread whose access lands nowhere traps, parks or waits for
the walk (R189). -/
def State.withAccess (s : State) (c : Ctx) (want : XWant) (r : Access) (f : Loc → Bool → State) : State :=
  match r with
  | .ok loc ord => f loc ord
  | .trap cause info => s.deliver c.t cause info
  | .fault va x => s.xfault c.t c.l.dev va want.kind x
  | .miss va => s.hold c.t (.walk va want.kind want.special)

/-- In deterministic mode a store or an atomic to an ORD page waits for the token (R294, R337). -/
def State.ordered (s : State) (c : Ctx) (ord : Bool) (f : State) : State :=
  if c.l.det && ord && c.group != c.l.holder then s.hold c.t .token else f

/-! ## Pod-remote requests -/

/-- The uncached attribute of a location. -/
def Loc.uncached : Loc → Bool
  | .scr _ _ => false
  | .mem _ u | .split _ _ _ u => u

/-- The location as its home slice reaches it, past the L1. -/
def Loc.atHome : Loc → Loc
  | .scr team off => .scr team off
  | .mem k _ => .mem k true
  | .split n k next _ => .split n k next true

/-- The keys of the n bytes of a location in memory. -/
def Loc.keys (l : Loc) (n : Nat) : List Nat :=
  match l with
  | .scr _ _ => []
  | .mem k _ => (List.range n).map (k + ·)
  | .split m k k' _ => (List.range n).map fun i => if i < m then k + i else k' + (i - m)

/-- Every byte of a location is valid in a core's L1. -/
def State.locHit (s : State) (core : Nat) (l : Loc) (n : Nat) : Bool :=
  (l.keys n).all fun k => (s.ms.l1Find core k).isSome

/-- The logical planes of the requests for some keys that lie in another member's memory, one for each line
(R389). -/
def planesOf (keys : List Nat) : List Nat :=
  (((keys.filter isRemote).map lineOf).eraseDups).map fun l => logicalPlane (128 * l - 2 ^ 50)

/-- The operation with its pod-remote requests on some logical planes (R389, R391, R392): their physical planes
and their deadline.  They are held while one of the planes waits for a remap, or the partition's quota forbids
them (R401), and never leave the package on a dead plane. -/
def State.onPlanes (s : State) (dev : Nat) (ls : List Nat) (o : Op) : Op :=
  if ls.isEmpty then o
  else if ls.any s.planeMoving || s.noQuota dev then { o with held := true, planes := ls }
  else
    { o with
      held := false
      planes := ls.map s.planeOf
      deadline := some (if ls.all fun l => s.planeUp (s.planeOf l) then s.tick + 1250 * s.regField 0x70000018 15 0 else 0) }

/-- The cycles after which a memory operation that issues now may complete (log entry 12). -/
def State.delay (s : State) : Nat := 1 + Config.latency s.freeCount

/-- The access is a poll: it carries the SPIN hint (R196). -/
def Mods.poll (m : Mods) : Bool := m.sub == 3

/-- The accesses that the SPIN hint makes polls (R196). -/
def OpKind.polls : OpKind → Bool
  | .load _ _ _ _ _ | .ldfe _ _ _ _ _ | .fifoPop _ _ _ _ | .atom (some _) _ _ _ _ _ _ _ | .ldv _ _ _ _ _ | .vpin _ _ _ => true
  | .store _ _ _ _ | .stfull _ _ _ _ | .fifoPush _ _ _ _ | .atom none _ _ _ _ _ _ _ | .wb _ _ | .inv _ _ | .wbinv _ _ |
    .prefetch _ _ | .trans _ _ | .matrix _ _ | .vunpin _ | .tcopy _ | .qput _ _ _ | .coll _ | .spawn _ _ _ | .bin _ _ |
    .binrel _ | .carve _ _ _ _ => false

/-- The eviction class of an access to a virtual address (R29, R61, R197): that of its CPOL hint, or that of a
cache-policy register, cp0 without the hint. -/
def Ctx.evClass (c : Ctx) (m : Mods) (va : Nat) : EvClass :=
  let through := fun k : Nat => classOf (c.tm.cps[k]?.getD 0) (addrHash va)
  if m.sub = 1 then
    (match bits m.arg 1 0 with
     | 0 => through (bits m.arg 4 2)
     | 1 => .evictFirst
     | 2 => .normal
     | _ => .evictLast)
  else through 0

/-- The virtual address of an access, for its eviction class; scratch allocates in no cache (R261). -/
def Ctx.accessVa (c : Ctx) (sp : Space) (a : Nat) : Nat :=
  match sp with
  | .pv => c.privateVa a
  | .gl | .sc | .cl => a

/-- Issues a memory operation with an eviction class, whose pod-remote requests travel on some logical planes. -/
def State.memOp (s : State) (c : Ctx) (m : Mods) (kind : OpKind) (cls : EvClass) (ls : List Nat) : State :=
  s.issueOp c m (s.onPlanes c.l.dev ls
    { Op.mk' s.nextId c.t kind (s.tick + s.delay) with demote := Mods.poll m && kind.polls, cls := cls })

/-! ## Loads and stores -/

/-- How a load of a width fills its destination (R194). -/
def extOf : MemWidth → Ext
  | .s8 => .sign8
  | .s16 => .sign16
  | .b8 | .b16 | .b32 | .b64 | .b128 => .zero

/-- What an ordinary access wants of its page. -/
def Ctx.want (c : Ctx) (kind : XKind) (special : Bool) : XWant := ⟨kind, special, c.t.level⟩

/-- A load of a width from a space, with its acquire (R194, R195). -/
def State.load (s : State) (m : Mods) (v b : Reg) (sp : Space) (w : MemWidth) (off : Int) (acq : Option Scope) :
    Host.Outcome State Fault Refusal :=
  s.run fun c => s.block c m [w.blk v] [sp.blk b]
    (let a := s.address c.t sp b off
     s.withAccess c (c.want .read false) (s.access c sp a w.bytes (c.want .read false)) fun loc _ =>
       s.memOp c m (.load v.val w.bytes (extOf w) loc acq) (c.evClass m (c.accessVa sp a))
         (if loc.uncached || !s.locHit c.tm.core loc w.bytes then planesOf (loc.keys w.bytes) else []))

/-- A store of a width to a space, with its release (R194, R195). -/
def State.store (s : State) (m : Mods) (v b : Reg) (sp : Space) (w : MemWidth) (off : Int) (rel : Option Scope) :
    Host.Outcome State Fault Refusal :=
  s.run fun c => s.block c m [] [w.blk v, sp.blk b]
    (let a := s.address c.t sp b off
     s.withAccess c (c.want .write false) (s.access c sp a w.bytes (c.want .write false)) fun loc ord => s.ordered c ord
       (s.memOp c m (.store w.bytes (s.regN c.t v.val ((w.bytes + 3) / 4)) loc rel) (c.evClass m (c.accessVa sp a))
         (if loc.uncached || rel.any Scope.wide then planesOf (loc.keys w.bytes) else [])))

/-- LD (R194). -/
def execLd (m : Mods) (v b : Reg) (sp : Space) (w : MemWidth) (o : BitVec 7) (s : State) :
    Host.Outcome State Fault Refusal :=
  s.load m v b sp w (immS m.wide o) none

/-- ST (R194). -/
def execSt (m : Mods) (v b : Reg) (sp : Space) (w : MemWidth) (o : BitVec 7) (s : State) :
    Host.Outcome State Fault Refusal :=
  s.store m v b sp w (immS m.wide o) none

/-- LD_ACQ (R195). -/
def execLdAcq (m : Mods) (v b : Reg) (sp : Space) (w : MemWidth) (c : Scope) (s : State) :
    Host.Outcome State Fault Refusal :=
  s.load m v b sp w 0 (some c)

/-- ST_REL (R195). -/
def execStRel (m : Mods) (v b : Reg) (sp : Space) (w : MemWidth) (c : Scope) (s : State) :
    Host.Outcome State Fault Refusal :=
  s.store m v b sp w 0 (some c)

/-! ## Full-empty and FIFO access -/

/-- A thread in an open region traps before any effect of these forms (R228). -/
def State.outsideRegion (s : State) (c : Ctx) (f : State) : State :=
  if c.t.inRegion then s.deliver c.t .regionState 0 else f

/-- A full-empty load (R198). -/
def State.fullLoad (s : State) (m : Mods) (v b : Reg) (w : GranWidth) (off : Int) (clear : Bool) :
    Host.Outcome State Fault Refusal :=
  s.run fun c => s.block c m [w.blk v] [one b]
    (let f :=
       s.withAccess c (c.want .read false) (s.access c .sc (s.address c.t .sc b off) w.bytes (c.want .read false)) fun loc _ =>
         match loc with
         | .scr id off => s.memOp c m (.ldfe v.val w.bytes id off clear) .normal []
         | .mem _ _ | .split _ _ _ _ => s
     if clear then s.outsideRegion c f else f)

/-- LDFE (R198, R199). -/
def execLdfe (m : Mods) (v b : Reg) (w : GranWidth) (o : BitVec 6) (s : State) : Host.Outcome State Fault Refusal :=
  s.fullLoad m v b w (immS m.wide o) false

/-- LDFEC (R198, R199). -/
def execLdfec (m : Mods) (v b : Reg) (w : GranWidth) (o : BitVec 6) (s : State) : Host.Outcome State Fault Refusal :=
  s.fullLoad m v b w (immS m.wide o) true

/-- STFULL (R198, R199). -/
def execStfull (m : Mods) (v b : Reg) (w : GranWidth) (o : BitVec 6) (s : State) : Host.Outcome State Fault Refusal :=
  s.run fun c => s.block c m [] [w.blk v, one b]
    (s.withAccess c (c.want .write false)
      (s.access c .sc (s.address c.t .sc b (immS m.wide o)) w.bytes (c.want .write false)) fun loc _ =>
        match loc with
        | .scr id off => s.memOp c m (.stfull w.bytes (s.regN c.t v.val (w.bytes / 4)) id off) .normal []
        | .mem _ _ | .split _ _ _ _ => s)

/-- The bank is in FIFO mode and assigned to the thread's device (R200). -/
def State.fifoOk (s : State) (c : Ctx) (bank : Nat) : Bool :=
  let b := s.bank c.tm.core bank
  b.mode == .fifo && b.owner == c.l.dev

/-- Issues a FIFO operation on a bank of the team's core; the team carries the FIFO mark from now on (R200,
R201). -/
def State.fifoOp (s : State) (c : Ctx) (m : Mods) (bank : Nat) (kind : OpKind) : State :=
  s.outsideRegion c
    (if s.fifoOk c bank then
      if c.t.flagRoom (hdrSets c.t.hdr) then
        (s.memOp c m kind .normal []).modTeam c.tm.id fun tm => { tm with fifoMark := some tm.core }
      else s.hold c.t .flagRoom
    else s.deliver c.t .fifoBank (BitVec.ofNat 64 bank))

/-- LDFIFO (R198, R200). -/
def execLdfifo (m : Mods) (v : Reg) (w : GranWidth) (o : BitVec 6) (s : State) : Host.Outcome State Fault Refusal :=
  s.run fun c => s.block c m [w.blk v] []
    (s.fifoOp c m (immU m.wide o) (.fifoPop v.val w.bytes c.tm.core (immU m.wide o)))

/-- STFIFO (R198, R200). -/
def execStfifo (m : Mods) (v : Reg) (w : GranWidth) (o : BitVec 6) (s : State) : Host.Outcome State Fault Refusal :=
  s.run fun c => s.block c m [] [w.blk v]
    (s.fifoOp c m (immU m.wide o) (.fifoPush w.bytes (s.regN c.t v.val (w.bytes / 4)) c.tm.core (immU m.wide o)))

/-! ## Cache control -/

/-- The entries that a walk for a core reads are read at their home slices, and each read is a DEV-scope acquire
(R262, R269). -/
def State.walkUse (s : State) (core dev va : Nat) : State :=
  let reads := if s.rootSet dev then s.walkReads (some (coreDie core)) dev va (s.vdRoot dev) walkLevels else []
  reads.foldl (fun s a => s.homeUse (s.vdWays dev) .normal a 8) (s.setMs (s.ms.acquire core dev .dev))

/-- The walk that an access of a thread needs (R266, R269): the leaf's checks, and the TLBs and the walker cache as
its answer leaves them. -/
def State.threadWalk (s : State) (c : Ctx) (va : Nat) (want : XWant) : State × Except XFault XOk :=
  let s := (s.countPm c.tm.id 0x08 1).walkUse c.tm.core c.l.dev va
  match s.walkRoot (some (coreDie c.tm.core)) c.l.dev va with
  | .error f => (s, .error f)
  | .ok w =>
    match s.checkLeaf c.l.dev va want w.leaf w.level w.lo with
    | .error f => (s, .error f)
    | .ok x => (s.keepWalk c.tm.core c.t.slice c.l.dev va w, .ok x)

/-- Translation for a prefetch, which waits for no walk and is dropped where it would fault (R202). -/
def State.prefetchKey (s : State) (c : Ctx) (a : Nat) : State × Option Nat :=
  let key := fun x : XOk => if x.uncached then none else some x.key
  if a / 2 ^ 56 ≠ 0 then (s, none)
  else
    match s.translate c.tm.core c.t.slice c.l.dev a (c.want .read false) with
    | .ok x => (s, key x)
    | .fault _ => (s, none)
    | .miss =>
      match s.threadWalk c a (c.want .read false) with
      | (s, .ok x) => (s, key x)
      | (s, .error _) => (s, none)

/-- A prefetch into the L1 or into the memory-side cache (R202). -/
def State.prefetch (s : State) (m : Mods) (b : Reg) (o : BitVec 12) (l1 : Bool) : Host.Outcome State Fault Refusal :=
  s.run fun c => s.block c m [] [pair b]
    (let a := s.address c.t .gl b (immS m.wide o)
     if c.t.flagRoom (hdrSets c.t.hdr) then
       (match s.prefetchKey c a with
        | (s, key) => s.memOp c m (.prefetch key l1) (c.evClass m a) (planesOf key.toList))
     else s.hold c.t .flagRoom)

/-- PF_L1 (R202). -/
def execPfL1 (m : Mods) (b : Reg) (o : BitVec 12) (s : State) : Host.Outcome State Fault Refusal := s.prefetch m b o true

/-- PF_MSC (R202). -/
def execPfMsc (m : Mods) (b : Reg) (o : BitVec 12) (s : State) : Host.Outcome State Fault Refusal := s.prefetch m b o false

/-- A cache-control form (R202): it traps as a load of one byte would, and has no alignment rule; a write-back of a
pod-remote line travels (R389). -/
def State.cacheForm (s : State) (m : Mods) (sc : Scope) (b : Reg) (off : Int) (back : Bool) (kind : Nat → OpKind) :
    Host.Outcome State Fault Refusal :=
  s.run fun c => s.block c m [] [pair b]
    (let a := s.address c.t .gl b off
     s.withAccess c (c.want .read false) (s.resolve c .gl a 1 (c.want .read false)) fun loc _ =>
      match loc with
      | .mem k _ | .split _ k _ _ =>
        s.memOp c m (kind k) (c.evClass m a) (if back && Scope.wide sc then planesOf [k] else [])
      | .scr _ _ => s)

/-- WB (R202, R203). -/
def execWb (m : Mods) (c : Scope) (b : Reg) (o : BitVec 12) (s : State) : Host.Outcome State Fault Refusal :=
  s.cacheForm m c b (immS m.wide o) true (.wb c)

/-- INV (R202, R203). -/
def execInv (m : Mods) (c : Scope) (b : Reg) (o : BitVec 12) (s : State) : Host.Outcome State Fault Refusal :=
  s.cacheForm m c b (immS m.wide o) false (.inv c)

/-- WBINV (R202, R203). -/
def execWbinv (m : Mods) (c : Scope) (b : Reg) (o : BitVec 12) (s : State) : Host.Outcome State Fault Refusal :=
  s.cacheForm m c b (immS m.wide o) true (.wbinv c)

/-! ## Atomics and reductions -/

/-- The memory space of an atomic. -/
def spaceOf : AtomSpace → Space
  | .gl => .gl
  | .sc => .sc
  | .cl => .cl

/-- CAS takes two operand values. -/
def isCas (o : AtomOp) : Bool :=
  match o with
  | .cas => true
  | .add | .mins | .minu | .maxs | .maxu | .and | .or | .xor | .xchg | .fadd => false

/-- The bytes of an atomic: 4 or 8 (R204). -/
def atomBytes (w : Bool) : Nat := if w then 8 else 4

/-- An atomic or a reduction (R204 to R206). -/
def State.atomic (s : State) (m : Mods) (dst : Option Reg) (v b : Reg) (o : AtomOp) (w : Bool) (sp : AtomSpace)
    (sc : Scope) (ord : MemOrd) : Host.Outcome State Fault Refusal :=
  s.run fun c => s.block c m (dst.toList.map (wide w)) [o.blk w v, sp.blk b]
    (s.outsideRegion c
      (let n := atomBytes w
       let x := s.regN c.t v.val (n / 4)
       let y := if isCas o then s.regN c.t (v.val + n / 4) (n / 4) else 0
       let a := s.address c.t (spaceOf sp) b 0
       s.withAccess c (c.want .write true) (s.access c (spaceOf sp) a n (c.want .write true)) fun loc order =>
         s.ordered c order
           (s.memOp c m (.atom (dst.map fun d => d.val) o w loc sc ord x y) (c.evClass m a)
             (if Scope.wide sc || loc.uncached || !s.locHit c.tm.core loc n then planesOf (loc.keys n) else []))))

/-- ATOM (R205). -/
def execAtom (m : Mods) (v b : Reg) (o : AtomOp) (w : Bool) (sp : AtomSpace) (c : Scope) (r : MemOrd) (s : State) :
    Host.Outcome State Fault Refusal :=
  s.atomic m (some v) v b o w sp c r

/-- RED (R205). -/
def execRed (m : Mods) (v b : Reg) (o : AtomOp) (w : Bool) (sp : AtomSpace) (c : Scope) (r : MemOrd) (s : State) :
    Host.Outcome State Fault Refusal :=
  s.atomic m none v b o w sp c r

end Sys2Proof.Machine
end

