-- ==== Sys2Proof/Machine/Sync.lean ====
section
/-! DEFINITION. Fences (R207, R208), barrier registers (R27, R209 to R211) and the convergence forms of
major 0x35 (R212 to R216). -/

namespace Sys2Proof.Machine

/-! ## Waiting for earlier operations -/

/-- The operation reads memory or a queue of a bank, and its value is not yet taken (R207). -/
def OpKind.isRead : OpKind → Bool
  | .load _ _ _ _ _ | .ldfe _ _ _ _ _ | .fifoPop _ _ _ _ | .atom _ _ _ _ _ _ _ _ | .ldv _ _ _ _ _ | .vpin _ _ _ => true
  | .store _ _ _ _ | .stfull _ _ _ _ | .fifoPush _ _ _ _ | .prefetch _ _ | .wb _ _ | .inv _ _ | .wbinv _ _ |
    .trans _ _ | .matrix _ _ | .vunpin _ | .tcopy _ | .qput _ _ _ | .coll _ | .spawn _ _ _ | .bin _ _ |
    .binrel _ | .carve _ _ _ _ => false

/-- The operation is an access of its thread (R207, R281): what a fence or a release waits for. -/
def OpKind.isAccess : OpKind → Bool
  | .load _ _ _ _ _ | .ldfe _ _ _ _ _ | .fifoPop _ _ _ _ | .atom _ _ _ _ _ _ _ _ | .ldv _ _ _ _ _ | .vpin _ _ _ |
    .store _ _ _ _ | .stfull _ _ _ _ | .fifoPush _ _ _ _ | .wb _ _ | .inv _ _ | .wbinv _ _ | .vunpin _ => true
  | .prefetch _ _ | .trans _ _ | .matrix _ _ | .tcopy _ | .qput _ _ _ | .coll _ | .spawn _ _ _ | .bin _ _ |
    .binrel _ | .carve _ _ _ _ => false

/-- The operation writes memory or scratch. -/
def OpKind.writes : OpKind → Bool
  | .store _ _ _ _ | .stfull _ _ _ _ | .atom _ _ _ _ _ _ _ _ => true
  | .load _ _ _ _ _ | .ldfe _ _ _ _ _ | .fifoPop _ _ _ _ | .fifoPush _ _ _ _ | .prefetch _ _ | .wb _ _ | .inv _ _ |
    .wbinv _ _ | .trans _ _ | .matrix _ _ | .ldv _ _ _ _ _ | .vpin _ _ _ | .vunpin _ | .tcopy _ | .qput _ _ _ | .coll _ |
    .spawn _ _ _ | .bin _ _ | .binrel _ | .carve _ _ _ _ => false

/-- An operation is one that a class of waits waits for. -/
def OpClass.covers (cls : OpClass) (o : Op) : Bool :=
  match cls with
  | .reads => o.kind.isRead
  | .accesses | .wide | .arrival | .announce => o.kind.isAccess
  | .stores _ => o.kind.writes
  | .since first => decide (first ≤ o.id)

/-- Write-backs of a thread's core and device wait for a plane or a quota (R392, R402). -/
def State.backWaits (s : State) (th : Nat) : Bool :=
  match s.ctx? th with
  | none => false
  | some c => s.backHeld c.tm.core c.l.dev

/-- The class waits for the write-backs that a plane or a quota holds. -/
def OpClass.backs : OpClass → Bool
  | .wide | .announce | .stores true => true
  | .reads | .accesses | .arrival | .stores false | .since _ => false

/-- The class waits for the lower lanes of the issue group (R25, R210, R218). -/
def OpClass.byLane : OpClass → Bool
  | .arrival | .announce => true
  | .reads | .accesses | .wide | .stores _ | .since _ => false

/-- The thread waits for operations. -/
def Wait.forOps : Wait → Bool
  | .ops _ => true
  | .run | .walk _ _ _ | .replay _ | .version _ _ _ _ _ _ | .step _ | .token | .flagRoom | .join _ | .sleep _ _ |
    .barrier _ _ | .sign _ _ | .asleep _ _ _ | .accept _ _ | .past _ | .exiting => false

/-- A lower lane of the thread's issue group is still held at the same instruction by its operations (R25). -/
def State.lowerHeld (s : State) (t : Thread) : Bool :=
  s.threads.any fun x => x.issue == t.issue && x.id != t.id && decide (x.lane < t.lane) && x.pc == t.pc && x.cb == t.cb &&
    x.wait.forOps

/-- A thread still has an operation of a class outstanding, or what else the class waits for. -/
def State.outstanding (s : State) (t : Thread) (cls : OpClass) : Bool :=
  (s.ops.any fun o => o.th == t.id && cls.covers o) || (cls.backs && s.backWaits t.id) || (cls.byLane && s.lowerHeld t)

/-- What a release at a scope waits for (R259, R281). -/
def releaseClass (sc : Scope) : OpClass := if Scope.wide sc then .wide else .accesses

/-- The thread of an operation still has an earlier access outstanding, or a write-back, that the operation's fork
edge orders before it (R287). -/
def State.forkWaits (s : State) (o : Op) : Bool :=
  (s.ops.any fun x => x.th == o.th && decide (x.id < o.id) && x.kind.isAccess) || s.backWaits o.th

/-- Goes on once the thread's operations of a class have completed; until then the instruction waits. -/
def State.afterOps (s : State) (c : Ctx) (cls : OpClass) (f : State) : State :=
  if s.outstanding c.t cls then s.hold c.t (.ops cls) else f

/-- A release of the executing thread at a scope (R259). -/
def State.releaseAt (s : State) (c : Ctx) (sc : Scope) : State := s.releaseFrom c.tm.core c.l.dev sc

/-- An acquire of the executing thread at a scope (R259). -/
def State.acquireAt (s : State) (c : Ctx) (sc : Scope) : State := s.setMs (s.ms.acquire c.tm.core c.l.dev sc)

/-! ## Fences -/

/-- FENCE (R207): every earlier access is performed before any later one. -/
def execFence (m : Mods) (sc : Scope) (s : State) : Host.Outcome State Fault Refusal :=
  s.run fun c => s.block c m [] []
    (s.afterOps c (releaseClass sc) (((s.releaseAt c sc).acquireAt c sc).done c m c.t))

/-- FENCE_ACQ (R207): every earlier load has taken its value before any later access. -/
def execFenceAcq (m : Mods) (sc : Scope) (s : State) : Host.Outcome State Fault Refusal :=
  s.run fun c => s.block c m [] [] (s.afterOps c .reads ((s.acquireAt c sc).done c m c.t))

/-- FENCE_REL (R207): every earlier access is performed before any later store. -/
def execFenceRel (m : Mods) (sc : Scope) (s : State) : Host.Outcome State Fault Refusal :=
  s.run fun c => s.block c m [] [] (s.afterOps c (releaseClass sc) ((s.releaseAt c sc).done c m c.t))

/-- The layout caches within a scope of a core (R208): its own and its die's, those of the die, or all. -/
def inLayoutScope (sc : Scope) (core : Nat) (r : LayoutRec) : Bool :=
  match sc with
  | .grp | .team => decide (r.core = some core) || (r.core.isNone && r.die == coreDie core)
  | .clu => r.die == coreDie core
  | .dev | .pod | .sys => true

/-- TLFENCE (R208): the earlier stores are performed at the scope, and the device's cached tile-layout
records within it are dropped.  At every scope the next read of a record sees the thread's own stores (R292), so they
are written back; the thread's loads may still be outstanding. -/
def execTlfence (m : Mods) (sc : Scope) (s : State) : Host.Outcome State Fault Refusal :=
  s.run fun c => s.block c m [] []
    (s.afterOps c (.stores (Scope.wide sc))
      (let s := s.releaseAt c .dev
       let layout := s.ms.layout.filter fun r => !(r.dev == c.l.dev && inLayoutScope sc c.tm.core r)
       (s.setMs { s.ms with layout := layout }).done c m c.t))

/-! ## Barrier registers -/

/-- A barrier register of a team. -/
def Team.bar (tm : Team) (n : Fin 16) : Bar := tm.bars[n]

/-- Sets a barrier register of a team. -/
def Team.setBar (tm : Team) (n : Fin 16) (b : Bar) : Team := { tm with bars := tm.bars.set n b }

/-- Sets an arrival record of a thread. -/
def Thread.setArr (t : Thread) (n : Fin 16) (a : Arrival) : Thread := { t with arr := t.arr.set n a }

/-- An arrival record that holds nothing. -/
def Arrival.idle : Arrival := ⟨false, false, false⟩

/-- The thread waits on a barrier. -/
def Thread.waitsOn (t : Thread) (n : Fin 16) : Bool :=
  match t.wait with
  | .barrier k _ => decide (k = n)
  | _ => false

/-- A completed phase meets one thread of the team (R210): its arrival in that phase is done, and its wait
ends when it arrived in that phase or without an arrival. -/
def State.phaseDone (s : State) (tm : Team) (n : Fin 16) (old : Bool) (t : Thread) : State :=
  let a := t.arr[n]
  match t.wait with
  | .barrier k w =>
    if k = n ∧ (!a.pending ∨ a.phase = old) then s.resume tm w (t.setArr n Arrival.idle)
    else if a.pending ∧ a.phase = old then s.setThread (t.setArr n { a with done := true })
    else s
  | _ => if a.pending ∧ a.phase = old then s.setThread (t.setArr n { a with done := true }) else s

/-- One arrival on an initialised barrier (R210): at the expected count the phase flips, and the waits of
the old phase end. -/
def State.arrive (s : State) (team : Nat) (n : Fin 16) : State :=
  match s.team? team with
  | none => s
  | some tm =>
    let b := tm.bar n
    if b.arrived + 1 = b.expect then
      let tm := tm.setBar n { b with arrived := 0, phase := !b.phase }
      let ids := (s.threads.filter fun t => t.team == team).map fun t => t.id
      s.setTeam tm |> fun s => ids.foldl (fun s id =>
        match s.thread? id with
        | none => s
        | some t => s.phaseDone tm n b.phase t) s
    else s.setTeam (tm.setBar n { b with arrived := b.arrived + 1 })

/-- An engine's completion arrival (R210): it is discarded when the barrier is not initialised. -/
def State.engineArrive (s : State) (team : Nat) (n : Nat) : State :=
  match s.team? team with
  | none => s
  | some tm =>
    if h : n < 16 then (if (tm.bar ⟨n, h⟩).init then s.arrive team ⟨n, h⟩ else s) else s

/-- A form of major 0x35 meets an open region first, and a barrier that does not exist traps (R228, R320). -/
def State.barrierForm (s : State) (n : Fin 16) (f : Ctx → State) : Host.Outcome State Fault Refusal :=
  s.run fun c => s.outsideRegion c
    (if c.tm.nbar ≤ n.val then s.deliver c.t .barState (BitVec.ofNat 64 n.val) else f c)

/-- BAR.INIT with a count (R210). -/
def State.barInit (s : State) (c : Ctx) (m : Mods) (n : Fin 16) (e : BitVec 12) : State :=
  let b := c.tm.bar n
  let waits := s.threads.any fun t => t.team == c.tm.id && t.waitsOn n
  if e = 0 then s.deliver c.t .barState (BitVec.ofNat 64 n.val)
  else if b.init ∧ b.expect = e then s.done c m c.t
  else if b.init ∧ (b.arrived ≠ 0 ∨ waits) then s.deliver c.t .barState (BitVec.ofNat 64 n.val)
  else (s.setTeam (c.tm.setBar n { b with expect := e, arrived := 0, init := true })).done c m c.t

/-- BAR_INIT_IMM (R210). -/
def execBarInitImm (m : Mods) (n : Fin 16) (i : BitVec 11) (s : State) : Host.Outcome State Fault Refusal :=
  s.barrierForm n fun c => s.barInit c m n (BitVec.ofNat 12 (immU m.wide i))

/-- BAR_INIT_REG (R210). -/
def execBarInitReg (m : Mods) (n : Fin 16) (a : Reg) (s : State) : Host.Outcome State Fault Refusal :=
  s.run fun c => s.checked c [one a] [one a] <| s.outsideRegion c
    (if c.tm.nbar ≤ n.val then s.deliver c.t .barState (BitVec.ofNat 64 n.val)
     else s.barInit c m n ((s.reg32 c.t a).setWidth 12))

/-- Runs f on an initialised barrier, after the thread's earlier accesses; else BAR_STATE. -/
def State.onBar (s : State) (c : Ctx) (n : Fin 16) (f : State) : State :=
  if (c.tm.bar n).init then f else s.deliver c.t .barState (BitVec.ofNat 64 n.val)

/-- BAR_ARR (R210): a release at TEAM scope, then the arrival, after those of the lower lanes. -/
def execBarArr (m : Mods) (n : Fin 16) (s : State) : Host.Outcome State Fault Refusal :=
  s.barrierForm n fun c => s.onBar c n <| s.afterOps c .arrival
    (let t := c.t.setArr n ⟨true, (c.tm.bar n).phase, false⟩
     match (s.setThread t).arrive c.tm.id n with
     | s' =>
       match s'.thread? t.id with
       | none => s'
       | some t' => s'.done c m t')

/-- The wait of a thread on a barrier (R210), for a thread at the instruction: it goes on when its recorded
phase is complete, and waits otherwise. -/
def State.barWait (s : State) (c : Ctx) (m : Mods) (n : Fin 16) (t : Thread) : State :=
  let a := t.arr[n]
  if a.pending ∧ a.done then s.done c m (t.setArr n Arrival.idle)
  else s.setThread { s.issued c m (1, false) t with wait := .barrier n m.words }

/-- BAR_WAIT (R210, R211). -/
def execBarWait (m : Mods) (n : Fin 16) (s : State) : Host.Outcome State Fault Refusal :=
  s.barrierForm n fun c => s.onBar c n <| s.atHome c <| s.barWait c m n c.t

/-- BAR_SYNC (R210, R211): the arrival, then the wait. -/
def execBarSync (m : Mods) (n : Fin 16) (s : State) : Host.Outcome State Fault Refusal :=
  s.barrierForm n fun c => s.onBar c n <| s.atHome c <| s.afterOps c .arrival
    (let t := c.t.setArr n ⟨true, (c.tm.bar n).phase, false⟩
     match (s.setThread t).arrive c.tm.id n with
     | s' =>
       match s'.thread? t.id with
       | none => s'
       | some t' => s'.barWait c m n t')

/-! ## Convergence registers -/

/-- The lanes of a thread's group whose threads have not exited. -/
def State.groupLanes (s : State) (t : Thread) : Word :=
  (s.threads.filter fun x => x.team == t.team && x.grp == t.grp).foldl (fun v x => v ||| laneBit x.lane) 0

/-- CVDECL with a mask (R213). -/
def State.declare (s : State) (c : Ctx) (m : Mods) (n : Fin 16) (mask : Word) : State :=
  s.outsideRegion c
    (if (c.tm.conv n).state = 2 then s.deliver c.t .convBusy (BitVec.ofNat 64 n.val)
     else
       let cv : Conv :=
         { state := 1, grp := BitVec.ofNat 6 c.t.grp, declared := mask &&& s.groupLanes c.t, signed := 0, pc := 0 }
       (s.setTeam (c.tm.setConv n cv)).done c m c.t)

/-- CVDECL_IMM (R213). -/
def execCvdeclImm (m : Mods) (n : Fin 16) (i : BitVec 11) (s : State) : Host.Outcome State Fault Refusal :=
  s.run fun c => s.declare c m n (BitVec.ofNat 32 (immU m.wide i))

/-- CVDECL_REG (R213). -/
def execCvdeclReg (m : Mods) (n : Fin 16) (a : Reg) (s : State) : Host.Outcome State Fault Refusal :=
  s.run fun c => s.checked c [one a] [one a] (s.declare c m n (s.reg32 c.t a))

/-- A signing form of major 0x35: it orders the thread's earlier accesses before its completion (R215,
R216, R283). -/
def State.signForm (s : State) (m : Mods) (n : Fin 16) (op : SignOp) : Host.Outcome State Fault Refusal :=
  s.run fun c => s.outsideRegion c <| s.atHome c <| s.afterOps c .accesses <| s.sign c m n op

/-- CVSYNC (R214, R215). -/
def execCvsync (m : Mods) (n : Fin 16) (s : State) : Host.Outcome State Fault Refusal := s.signForm m n .cvsync

/-- ELECT (R214, R216). -/
def execElect (m : Mods) (n : Fin 16) (k : Pred) (s : State) : Host.Outcome State Fault Refusal :=
  s.signForm m n (.elect k)

/-- RELEASE (R216): the leader wakes the sleepers. -/
def execRelease (m : Mods) (n : Fin 16) (s : State) : Host.Outcome State Fault Refusal :=
  s.run fun c => s.outsideRegion c
    (if isLeader c.tm c.t n then
       s.afterOps c .accesses
         (match (s.wake c.tm.id n).thread? c.t.id with
          | none => s
          | some t => (s.wake c.tm.id n).done c m t)
     else s.deliver c.t .convMember (BitVec.ofNat 64 n.val))

end Sys2Proof.Machine
end

