-- ==== Sys2Proof/Machine/Versioned.lean ====
section
/-! DEFINITION. Versioned pages (R219 to R223, R295 to R303) and step announcement (R224, R225, R304 to
R310): majors 0x36 and STEP.ADV, the directory's installations, the progress table's messages and
timers. -/

namespace Sys2Proof.Machine

/-! ## The directory -/

/-- The directory entry of a page of another member's memory, as its home package answers (R301, log entry 3). -/
def State.homeEntry (s : State) (fpa : Nat) (big : Bool) : Option VEntry :=
  match Config.homeEntry s.freeCount fpa with
  | none => none
  | some (vtimeout, steps) =>
    some { idx := fpa, dev := 0, big := big, fpa := fpa, vtimeout := vtimeout, drops := 0, closing := none
           frames := (steps.take 4).map fun f =>
             match f with
             | none => (.empty, 0)
             | some st => (.valid, st) }

/-- A directory entry by its index. -/
def State.ventry? (s : State) (idx : Nat) : Option VEntry :=
  if isRemote idx then s.homeEntry idx false else s.ver.dir.find? fun e => e.idx == idx

/-- Replaces a directory entry. -/
def State.setVentry (s : State) (e : VEntry) : State :=
  { s with ver := { s.ver with dir := replaceBy (fun x => x.idx == e.idx) e s.ver.dir } }

/-- The page size of an entry as a power of two. -/
def VEntry.size (e : VEntry) : Nat := if e.big then 21 else 16

/-- The entry whose frame 0 lies at a key, in a page of some size (R298, R301). -/
def State.ventryAt (s : State) (fpa size : Nat) : Option VEntry :=
  if isRemote fpa then s.homeEntry fpa (size == 21) else s.ver.dir.find? fun e => e.fpa == fpa

/-- The key of frame 0 of a page by its index. -/
def State.pageKey (s : State) (idx : Nat) : Option Nat :=
  if isRemote idx then some idx else (s.ver.dir.find? fun e => e.idx == idx).map fun e => e.fpa

/-- The resident frames of a page with their steps (R297). -/
def VEntry.resident (e : VEntry) : List (Nat × Word) :=
  e.frames.zipIdx.filterMap fun x =>
    match x.1.1 with
    | .valid => some (x.2, x.1.2)
    | .empty | .filling => none

/-- `qualifying` (R221): the resident frame of the largest step among those with step ≥ s. -/
def VEntry.qualifying (e : VEntry) (s : Word) : Option (Nat × Word) :=
  (e.resident.filter fun f => s.ule f.2).foldl (fun best f =>
    match best with
    | none => some f
    | some b => if b.2.ult f.2 then some f else best) none

/-- The resident frame of exactly step s (R221). -/
def VEntry.exact (e : VEntry) (s : Word) : Option Nat := (e.resident.find? fun f => f.2 == s).map fun f => f.1

/-- The lowest step that LDV.MIN or VPIN of a thread takes from a page, for an oldest acceptable one: never less than
it has selected for that one before (R222, log entry 73). -/
def Thread.floor (t : Thread) (entry : Nat) (least : Word) : Word :=
  match t.chosen.find? fun x => x.1 == entry && x.2.1 == least with
  | none => least
  | some x => x.2.2

/-- The thread has selected a step of a page (R222). -/
def Thread.chose (t : Thread) (entry : Nat) (least step : Word) : Thread :=
  { t with chosen := (entry, least, step) :: t.chosen.filter fun x => !(x.1 == entry && x.2.1 == least) }

/-- The frame that LDV.MIN or VPIN of a thread takes (R221, R222). -/
def VEntry.frameFor (e : VEntry) (t : Thread) (least : Word) : Option (Nat × Word) := e.qualifying (t.floor e.idx least)

/-- A pin is that of a team on a page; `src` is the member whose team it is, none for a team of this package. -/
def Pin.of (p : Pin) (src : Option Nat) (team entry : Nat) : Bool := p.src == src && p.team == team && p.entry == entry

/-- What is left of a team's pin on a page: a pin, or one whose last VUNPIN travels (R222). -/
def State.pinLeft (s : State) (src : Option Nat) (team entry : Nat) : Option Pin :=
  s.ver.pins.find? fun p => p.of src team entry

/-- A team's pin on a page (R221). -/
def State.pin? (s : State) (src : Option Nat) (team entry : Nat) : Option Pin :=
  match s.pinLeft src team entry with
  | none => none
  | some p => if p.count = 0 then none else some p

/-- Replaces the peers' operations that wait for a frame. -/
def State.setWaits (s : State) (l : List PeerWait) : State := { s with ver := { s.ver with waits := l } }

/-- Replaces the pins. -/
def State.setPins (s : State) (l : List Pin) : State := { s with ver := { s.ver with pins := l } }

/-! ## Major 0x36 -/

/-- What the address of a versioned form meets (R220): the entry and the offset within the page, and the
key of the byte. -/
inductive VAccess where
  | ok (e : VEntry) (off : Nat) (key : Nat)
  | other (r : Access)
  deriving DecidableEq, Repr

/-- The address checks of R220 but for alignment. -/
def State.versioned (s : State) (c : Ctx) (a : Nat) (special : Bool) : VAccess :=
  if a / 2 ^ 56 ≠ 0 then .other (.trap .addrNoncanon (BitVec.ofNat 64 a))
  else
    match s.translate c.tm.core c.t.slice c.l.dev a (c.want .versioned special) with
    | .miss => .other (.miss a)
    | .fault f => .other (.fault a f)
    | .ok x =>
      match x.ver, s.ventryAt (x.key - a % 2 ^ x.size) x.size with
      | true, some e => .ok e (a % 2 ^ e.size) x.key
      | _, _ => .other (.trap .versionPage (BitVec.ofNat 64 a))

/-- The directory entry of the page of this package in whose wait for a frame a thread is: its operation has reached the
directory, and its address is not translated again (R302). -/
def State.waitEntry (s : State) (t : Thread) : Option VEntry :=
  match t.wait with
  | .version k _ _ _ _ _ => if isRemote k then none else s.ventry? k
  | _ => none

/-- Runs a versioned form: register checks, alignment to n bytes, then the page (R220). -/
def State.versionForm (s : State) (c : Ctx) (dst reads : List Blk) (b : Reg) (n : Nat) (special : Bool)
    (f : VEntry → Nat → Nat → State) : State :=
  s.checked c (dst ++ reads) reads
    (let a := (s.reg64 c.t b).toNat
     if a % n ≠ 0 then s.deliver c.t .misaligned (BitVec.ofNat 64 a)
     else
       match (match s.waitEntry c.t with
         | some e => VAccess.ok e (a % 2 ^ e.size) (e.fpa + a % 2 ^ e.size)
         | none => s.versioned c a special) with
       | .ok e off key => f e off key
       | .other r => s.withAccess c (c.want .versioned special) r fun _ _ => s)

/-- The deadline of a wait for a frame (R221): none when VTIMEOUT is 0xFFFF_FFFF. -/
def versionDeadline (e : VEntry) (start : Nat) : Option Nat :=
  if e.vtimeout = 0xFFFFFFFF then none else some (start + e.vtimeout)

/-- The thread already waits for a frame of a page. -/
def Thread.awaits (t : Thread) (e : VEntry) : Bool :=
  match t.wait with
  | .version k _ _ _ _ _ => decide (k = e.idx)
  | _ => false

/-- The deadline of a thread's wait for a frame of a page: the one that it has, or that of a wait that begins, whose
instruction issues now (R189, R221). -/
def State.frameDeadline (s : State) (t : Thread) (e : VEntry) : Option Nat :=
  match t.wait with
  | .version k _ _ d _ _ => if k = e.idx then d else versionDeadline e s.tick
  | _ => versionDeadline e s.tick

/-- Issues an operation on a versioned page; one on a pod-remote page travels (R301, R389). -/
def State.versionOp (s : State) (c : Ctx) (m : Mods) (b : Reg) (key : Nat) (kind : OpKind) : State :=
  s.memOp c m kind (c.evClass m (s.reg64 c.t b).toNat) (planesOf [key])

/-- Changes the count of a pin; at 0 the pin ends (R221). -/
def State.countPin (s : State) (p : Pin) (by' : Int) : State :=
  let mine := fun x : Pin => x.of p.src p.team p.entry
  let n := (p.count + by').toNat
  s.setPins (if n = 0 then s.ver.pins.filter fun x => !mine x else replaceBy mine { p with count := n } s.ver.pins)

/-- A team pins a frame of a page (R221). -/
def State.addPin (s : State) (p : Pin) : State := s.setPins (p :: s.ver.pins.filter fun x => !x.of p.src p.team p.entry)

/-- VUNPIN takes one from a pin's count; the last one on another member's page leaves the pin until its home has
answered (R222, R301). -/
def State.lessPin (s : State) (p : Pin) : State :=
  if isRemote p.entry && p.count == 1 then
    s.setPins (replaceBy (fun x => x.of p.src p.team p.entry) { p with count := 0 } s.ver.pins)
  else s.countPin p (-1)

/-- A VUNPIN of a team on a page has completed: a pin that it left with the count 0 ends (R222). -/
def State.unpinned (s : State) (team entry : Nat) : State :=
  s.setPins (s.ver.pins.filter fun p => !(p.of none team entry && p.count == 0))

/-- The frame, with its step, that an installation has given the thread for this page and this oldest acceptable step
(R302). -/
def Thread.given (t : Thread) (e : VEntry) (least : Word) : Option (Nat × Word) :=
  match t.wait with
  | .version k _ l _ _ got => if k = e.idx ∧ l = least then got else none
  | _ => none

/-- `choose_min` (R221): goes on with the frame chosen; without one the thread traps or waits.  `pin` tells VPIN
from LDV.MIN. -/
def State.chooseMin (s : State) (c : Ctx) (e : VEntry) (a : Nat) (least : Word) (pin : Bool) (f : Ctx → Nat → Word → State) :
    State :=
  match (c.t.given e least).or (e.frameFor c.t least) with
  | some (k, st) => f { c with t := c.t.chose e.idx least st } k st
  | none =>
    if (s.pin? none c.tm.id e.idx).isSome && !c.t.awaits e then s.deliver c.t .versionPin (BitVec.ofNat 64 a)
    else
      match s.frameDeadline c.t e with
      | none => s.hold c.t (.version e.idx a least none pin none)
      | some d =>
        if d ≤ s.tick then s.deliver c.t .versionTimeout (BitVec.ofNat 64 a)
        else s.hold c.t (.version e.idx a least (some d) pin none)

/-- An LDV.MIN that waits sets the demoted mark under DEFER (R335). -/
def State.demoteWaiting (s : State) (c : Ctx) : State :=
  match s.thread? c.t.id with
  | none => s
  | some t =>
    match t.wait with
    | .version _ _ _ _ _ _ => if c.tm.defer && !c.l.det then s.setThread { t with demoted := true } else s
    | _ => s

/-- LDV_MIN (R221). -/
def execLdvMin (m : Mods) (d b r : Reg) (w : VerWidth) (s : State) : Host.Outcome State Fault Refusal :=
  s.run fun c => s.versionForm c [w.blk d] [pair b, one r] b w.bytes true fun e off key =>
    if c.t.flagRoom (hdrSets c.t.hdr) then
      (s.chooseMin c e (s.reg64 c.t b).toNat (s.reg32 c.t r) false fun c f _ =>
        s.versionOp c m b key (.ldv d.val w.bytes e.idx f (e.fpa + f * 2 ^ e.size + off))).demoteWaiting c
    else s.hold c.t .flagRoom

/-- LDV_AT (R221). -/
def execLdvAt (m : Mods) (d b r : Reg) (w : VerWidth) (s : State) : Host.Outcome State Fault Refusal :=
  s.run fun c => s.versionForm c [w.blk d] [pair b, one r] b w.bytes true fun e off key =>
    match e.exact (s.reg32 c.t r) with
    | none => s.deliver c.t .versionAbsent (s.reg64 c.t b)
    | some f => s.versionOp c m b key (.ldv d.val w.bytes e.idx f (e.fpa + f * 2 ^ e.size + off))

/-- VPIN (R221). -/
def execVpin (m : Mods) (d b r : Reg) (s : State) : Host.Outcome State Fault Refusal :=
  s.run fun c => s.versionForm c [one d] [pair b, one r] b 1 true fun e _ key =>
    let a := s.reg64 c.t b
    let least := s.reg32 c.t r
    if c.t.flagRoom (hdrSets c.t.hdr) then
      match s.pin? none c.tm.id e.idx with
      | some p =>
        if p.step.ult least then s.deliver c.t .versionPin a
        else if p.count = 65535 then s.deliver c.t .pinLimit a
        else (s.countPin p 1).versionOp c m b key (.vpin d.val p.step e.idx)
      | none =>
        if 64 ≤ (s.ver.pins.filter fun p => p.src.isNone && p.team == c.tm.id && p.count != 0).length then s.deliver c.t .pinLimit a
        else
          s.chooseMin c e a.toNat least true fun c f st =>
            (s.addPin ⟨none, c.tm.id, e.idx, f, st, 1⟩).versionOp c m b key (.vpin d.val st e.idx)
    else s.hold c.t .flagRoom

/-- VUNPIN (R221). -/
def execVunpin (m : Mods) (b : Reg) (s : State) : Host.Outcome State Fault Refusal :=
  s.run fun c => s.versionForm c [] [pair b] b 1 false fun e _ key =>
    if c.t.flagRoom (hdrSets c.t.hdr) then
      match s.pin? none c.tm.id e.idx with
      | none => s.deliver c.t .versionPin (s.reg64 c.t b)
      | some p => (s.lessPin p).versionOp c m b key (.vunpin e.idx)
    else s.hold c.t .flagRoom

/-- VERSION_TIMEOUT (R221): VTIMEOUT ticks have passed and no frame qualifies. -/
def execVersionTimeout (th : Nat) (s : State) : Host.Outcome State Fault Refusal :=
  match s.thread? th with
  | none => .next s
  | some t =>
    match t.wait with
    | .version k a least (some d) _ none =>
      let found := match s.ventry? k with
        | some e => (e.frameFor t least).isSome
        | none => false
      if d ≤ s.tick ∧ !found then .next (s.deliver t .versionTimeout (BitVec.ofNat 64 a)) else .next s
    | _ => .next s

/-! ## Installation (R300) -/

/-- An installation by its name. -/
def State.install? (s : State) (id : Nat) : Option Install := s.ver.installs.find? fun i => i.id == id

/-- Replaces the installations. -/
def State.setInstalls (s : State) (l : List Install) : State := { s with ver := { s.ver with installs := l } }

/-- The thread holds a frame that an installation has given it (R301, R302). -/
def Thread.holdsFrame (t : Thread) (entry frame : Nat) : Bool :=
  match t.wait with
  | .version k _ _ _ _ (some g) => k == entry && g.1 == frame
  | _ => false

/-- The frame is held: a team pins it, or an LDV still reads it, or is about to (R300, R301). -/
def State.frameHeld (s : State) (entry frame : Nat) : Bool :=
  (s.ver.pins.any fun p => p.entry == entry && p.frame == frame) ||
  (s.threads.any fun t => t.holdsFrame entry frame) ||
  (s.ops.any fun o =>
    match o.kind with
    | .ldv _ _ e f _ => e == entry && f == frame
    | _ => false)

/-- The frame an installation takes: the lowest EMPTY one, else the unheld VALID frame of lowest step. -/
def State.installFrame (s : State) (e : VEntry) : Option Nat :=
  match (e.frames.zipIdx.find? fun x => x.1.1 == FState.empty) with
  | some x => some x.2
  | none =>
    ((e.resident.filter fun f => !s.frameHeld e.idx f.1).foldl (fun best f =>
      match best with
      | none => some f
      | some b => if f.2.ult b.2 then some f else best) none).map fun f => f.1

/-- Sets one frame of an entry. -/
def VEntry.setFrame (e : VEntry) (k : Nat) (st : FState) (step : Word) : VEntry :=
  { e with frames := e.frames.set k (st, step) }

/-- The installation is the first of its page that has not ended: operations on one page do not overlap. -/
def State.installFirst (s : State) (i : Install) : Bool :=
  match s.ver.installs.find? fun x => x.entry == i.entry with
  | some x => x.id == i.id
  | none => false

/-- The bytes of a frame's installation: the data, and zero in every byte that it does not cover. -/
def frameBytes (size : Nat) (data : List Word) : List Byte :=
  let l := data.flatMap fun w => toBytes 4 w.toNat
  (l ++ List.replicate (2 ^ size - l.length) 0).take (2 ^ size)

/-- The installation that is now the first of a page waits from now on (R300). -/
def State.startNext (s : State) (entry : Nat) : State :=
  match s.ver.installs.find? fun x => x.entry == entry with
  | none => s
  | some i =>
    if i.frame.isSome then s
    else s.setInstalls (replaceBy (fun x => x.id == i.id) { i with since := s.tick } s.ver.installs)

/-- A thread that waits for a frame of a page is given the one that qualifies, unless its team stops (R302, R352). -/
def State.givenFrame (s : State) (e : VEntry) (t : Thread) : Thread :=
  match t.wait with
  | .version k a least d pin none =>
    if k = e.idx ∧ ((s.team? t.team).any fun m => m.phase == .running) then { t with wait := .version k a least d pin (e.frameFor t least) }
    else t
  | _ => t

/-- Answers a peer's LDV with the bytes of a frame at the offset of an address in frame 0 (R222, R301). -/
def State.remoteFrame (s : State) (src pa n : Nat) (e : VEntry) (frame : Nat) : State :=
  let at' := pa + frame * 2 ^ e.size
  if s.ms.poisoned at' n then s.send (.remoteRefused src) else s.send (.remoteData src n (ofBytes (s.pocRead at' n)))

/-- A peer's operation joins those that wait for a frame at this package's directory (R301, R302). -/
def State.addWait (s : State) (w : PeerWait) : State := s.setWaits (s.ver.waits ++ [w])

/-- A peer's wait for a frame has timed out (R221). -/
def State.lateWait (s : State) (w : PeerWait) : Bool :=
  match w.deadline with
  | none => false
  | some d => decide (d ≤ s.tick)

/-- The peers whose waits for a frame have timed out are told so (R221, R302). -/
def State.expireWaits (s : State) : State :=
  (s.ver.waits.filter s.lateWait).foldl (fun s w => s.send (.remoteNoFrame w.src))
    (s.setWaits (s.ver.waits.filter fun w => !s.lateWait w))

/-- A peer's VPIN meets the pin that its team holds on the page: one count more, and the step of its frame (R221,
R301). -/
def State.repin (s : State) (src : Nat) (p : Pin) (least : Word) : State :=
  if p.step.ult least ∨ p.count = 65535 then s.send (.remoteNoFrame src)
  else (s.countPin p 1).send (.remoteData src 4 p.step.toNat)

/-- A result reaches a peer that waited for a frame of a page (R221, R301, R302). -/
def State.serveWait (s : State) (e : VEntry) (w : PeerWait) (f : Nat × Word) : State :=
  match w.req with
  | .ldvMin n _ _ => s.remoteFrame w.src w.pa n e f.1
  | .vpin team least =>
    match s.pin? (some w.src) team e.idx with
    | some p => s.repin w.src p least
    | none => (s.addPin ⟨some w.src, team, e.idx, f.1, f.2, 1⟩).send (.remoteData w.src 4 f.2.toNat)
  | .load _ | .store _ _ | .atomic _ _ _ _ | .ldvAt _ _ | .vunpin _ | .unpin _ => s

/-- Every operation that waits for a frame of a page tests it again, in the order in which they came (R302). -/
def State.retestFrames (s : State) (e : VEntry) : State :=
  let s : State := { s with threads := s.threads.map (s.givenFrame e) }
  let waits := s.ver.waits
  waits.foldl (fun s w =>
    if w.entry = e.idx then
      match e.qualifying w.least with
      | none => s.addWait w
      | some f => s.serveWait e w f
    else s.addWait w) (s.setWaits [])

/-- INSTALL_FRAME_TAKE (R300): an installation that comes first on its page takes a frame and marks it
FILLING.  A step that an earlier installation overtook is refused here. -/
def execInstallFrameTake (inst : Nat) (s : State) : Host.Outcome State Fault Refusal :=
  match s.install? inst with
  | none => .next s
  | some i =>
    if i.frame.isSome ∨ !s.installFirst i then .next s
    else
      match s.ventry? i.entry with
      | none => .next (s.setInstalls (s.ver.installs.filter fun x => x.id != inst))
      | some e =>
        if e.resident.any fun f => decide (i.step ≤ f.2.toNat) then
          .next (((s.setInstalls (s.ver.installs.filter fun x => x.id != inst)).setVentry
            { e with drops := min 0xFFFF (e.drops + 1) }).startNext e.idx)
        else
          match s.installFrame e with
          | none => .next s
          | some k =>
            .next (((s.setInstalls (replaceBy (fun x => x.id == inst)
                { i with frame := some k, ready := s.tick + s.delay } s.ver.installs))).setVentry
              (e.setFrame k .filling 0))

/-- INSTALL_COMPLETE (R300, R302): every byte of the frame is written at its point of coherence, the frame becomes VALID
with its step, and the operations that wait for one test the page again. -/
def execInstallComplete (inst : Nat) (s : State) : Host.Outcome State Fault Refusal :=
  match s.install? inst with
  | none => .next s
  | some i =>
    match i.frame, s.ventry? i.entry with
    | some k, some e =>
      let s := s.pocWrite (e.fpa + k * 2 ^ e.size) (frameBytes e.size i.data)
      let e := e.setFrame k .valid (BitVec.ofNat 32 i.step)
      .next ((((s.setInstalls (s.ver.installs.filter fun x => x.id != inst)).setVentry e).retestFrames e).startNext e.idx)
    | _, _ => .next s

/-- PINNED of an entry (R303). -/
def State.pinned (s : State) (e : VEntry) : Nat :=
  (List.range 4).foldl (fun v k => v + b2n (s.ver.pins.any fun p => p.entry == e.idx && p.frame == k) * 2 ^ k) 0

/-- INSTALL_STALL (R300, R311): an installation has waited longer than the page's VTIMEOUT; one record says
so. -/
def execInstallStall (inst : Nat) (s : State) : Host.Outcome State Fault Refusal :=
  match s.install? inst with
  | none => .next s
  | some i =>
    match s.ventry? i.entry with
    | none => .next s
    | some e =>
      if i.frame.isNone ∧ !i.stalled ∧ s.installFirst i ∧ i.since + e.vtimeout < s.tick then
        let s := s.setInstalls (replaceBy (fun x => x.id == inst) { i with stalled := true } s.ver.installs)
        .next (s.post e.dev true 0x05 0 0x0804 (toBytes 4 e.idx ++ toBytes 4 i.step ++ [BitVec.ofNat 8 (s.pinned e)]))
      else .next s

/-! ## Step announcement -/

/-- The clock unit of HEARD: bits [41:10] of TICK (R305). -/
def heardNow (tick : Nat) : Word := BitVec.ofNat 32 (bits tick 41 10)

/-- The counted peers of a worker (R309). -/
def State.countedPeers (s : State) (w : Worker) : List PEntry :=
  s.ver.ptable.filter fun e => e.job == w.job && e.state == .counted && e.widx != w.idx

/-- A worker may announce a step: no peer is counted, or it is within the lead of every counted peer
(R224). -/
def State.mayAnnounce (s : State) (w : Worker) (st : Word) : Bool :=
  (s.countedPeers w).all fun e => decide (st.toNat ≤ e.step.toNat + w.lead)

/-- A thread that waits in STEP.ADV for a change of an entry of its job has tested its condition again, and announces
its step once its accesses are performed (R308). -/
def State.retested (s : State) (job : Nat) (t : Thread) : Thread :=
  match t.wait, s.ctx? t.id with
  | .step st, some c =>
    (match c.l.worker with
     | none => t
     | some w => if w.job == job && s.mayAnnounce w st then { t with wait := .ops .announce } else t)
  | _, _ => t

/-- Changes the progress-table entries of a worker of a job; every STEP.ADV that waits tests its condition again
(R308). -/
def State.modPeer (s : State) (job widx : Nat) (f : PEntry → PEntry) : State :=
  let s : State := { s with ver := { s.ver with
      ptable := s.ver.ptable.map fun e => if e.job == job && e.widx == widx then f e else e } }
  { s with threads := s.threads.map (s.retested job) }

/-- The address of a worker of a job: its member, and its endpoint when that lies in another pod (R304, R395). -/
def State.peerAddr (s : State) (job widx : Nat) : Nat × DWord :=
  match (s.ver.jobs.find? fun j => j.job == job).bind fun j => (j.peers[widx]?).join with
  | none => (0, 0)
  | some a => (a.1, if s.regField 0x70000000 41 32 < a.1 then a.2 else 0)

/-- The packages that hold peers of a job's workers here: the member, and the endpoint across pods (R304, R306). -/
def State.peerPackages (s : State) (job : Nat) : List (Nat × DWord) :=
  match s.ver.jobs.find? fun j => j.job == job with
  | none => []
  | some j =>
    (j.peers.zipIdx.filterMap fun p =>
      match p.1 with
      | none => none
      | some a =>
        if s.ver.ptable.any fun e => e.job == job && e.widx == p.2 && !e.isLocal then
          some (a.1, if s.regField 0x70000000 41 32 < a.1 then a.2 else 0)
        else none).eraseDups

/-- Sends a message of a worker of a device to each of its peers' packages (R306). -/
def State.tell (s : State) (dev job : Nat) (msg : Nat → DWord → Msg) : State :=
  (s.peerPackages job).foldl (fun s p => s.sendTo dev p.1 (msg p.1 p.2)) s

/-- The devices with a worker of a job on this package (R311). -/
def State.jobDevices (s : State) (job : Nat) : List Nat :=
  (s.launches.filterMap fun l =>
    match l.worker with
    | some w => if w.job = job then some l.dev else none
    | none => none).eraseDups

/-- Posts a peer event to every device with a worker of the job (R311, R325). -/
def State.postPeer (s : State) (kind job widx : Nat) (step heard : Word) : State :=
  (s.jobDevices job).foldl (fun s vd =>
    s.post vd true kind 0 0x0805 (toBytes 2 job ++ toBytes 2 widx ++ toBytes 4 step.toNat ++ toBytes 4 heard.toNat)) s

/-- The entry of a worker of a job. -/
def State.pentry? (s : State) (job widx : Nat) : Option PEntry :=
  s.ver.ptable.find? fun e => e.job == job && e.widx == widx

/-- A worker's step reaches its entry (R307): the entry's step rises, and a silent worker is counted again. -/
def State.hear (s : State) (job widx stp : Nat) : State :=
  match s.pentry? job widx with
  | none => s
  | some e =>
    if e.state = .left then s
    else
      let st := BitVec.ofNat 32 (max e.step.toNat (stp % 2 ^ 32))
      let s' := s.modPeer job widx fun x => { x with step := st, heard := heardNow s.tick, state := .counted }
      if e.state = .silent then s'.postPeer 0x03 job widx st (heardNow s.tick) else s'

/-- PROGRESS_MESSAGE (R307). -/
def execProgressMessage (job widx stp : Nat) (s : State) : Host.Outcome State Fault Refusal := .next (s.hear job widx stp)

/-- A worker announces a step (R224, R306, R307): its step rises, its own entry is updated, and the step is
sent to its peers. -/
def State.announce (s : State) (l : Launch) (w : Worker) (st : Word) : State :=
  let s := s.setLaunch { l with worker := some { w with step := if w.step.ult st then st else w.step } }
  (s.hear w.job w.idx st.toNat).tell l.dev w.job fun d e => .progress d e w.job w.idx st

/-- STEP_ADV (R224, R225, R228, R308): once the lead has allowed the step, the release and then the announcement
follow, after those of the lower lanes of the issue group (R25). -/
def execStepAdv (m : Mods) (a : Reg) (s : State) : Host.Outcome State Fault Refusal :=
  s.run fun c => s.checked c [one a] [one a] <| s.outsideRegion c <|
    match c.l.worker with
    | none => s.deliver c.t .notWorker 0
    | some w =>
      let st := s.reg32 c.t a
      let allowed := c.t.wait == .ops .announce
      if !allowed && st.ule w.step then s.done c m c.t
      else if allowed || s.mayAnnounce w st then
        s.afterOps c .announce (((s.releaseAt c .dev).announce c.l w st).done c m c.t)
      else s.hold c.t (.step st)

/-- LEAVE_MESSAGE (R307): final for the life of the entry. -/
def execLeaveMessage (job widx : Nat) (s : State) : Host.Outcome State Fault Refusal :=
  match s.pentry? job widx with
  | none => .next s
  | some e =>
    if e.state = .left then .next s
    else .next ((s.modPeer job widx fun x => { x with state := .left }).postPeer 0x04 job widx e.step e.heard)

/-- The silence timeout of a job (R304). -/
def State.silence (s : State) (job : Nat) : Nat :=
  ((s.ver.jobs.find? fun j => j.job == job).map fun j => j.silence).getD 0

/-- A worker's next heartbeat is due: SILENCE / 8 units of 1,024 ticks have passed (R306). -/
def State.beatDue (s : State) (w : Worker) : Bool := decide (w.beat + s.silence w.job * 128 ≤ s.tick)

/-- HEARTBEAT (R306): a bound worker sends its current step. -/
def execHeartbeat (l : Nat) (s : State) : Host.Outcome State Fault Refusal :=
  match s.launch? l with
  | none => .next s
  | some ln =>
    match ln.worker with
    | none => .next s
    | some w =>
      if s.beatDue w then
        .next ((s.setLaunch { ln with worker := some { w with beat := s.tick } }).tell ln.dev w.job
          fun d e => .progress d e w.job w.idx w.step)
      else .next s

/-- An entry has been silent for longer than the job's SILENCE (R308). -/
def State.silentNow (s : State) (e : PEntry) : Bool :=
  e.state == .counted && !e.isLocal && decide (s.silence e.job < (heardNow s.tick - e.heard).toNat)

/-- PEER_SILENT (R308). -/
def execPeerSilent (entry : Nat) (s : State) : Host.Outcome State Fault Refusal :=
  match s.ver.ptable.find? fun e => e.idx == entry with
  | none => .next s
  | some e =>
    if s.silentNow e then
      .next ((s.modPeer e.job e.widx fun x => { x with state := .silent }).postPeer 0x02 e.job e.widx e.step e.heard)
    else .next s

end Sys2Proof.Machine
end

