-- ==== Sys2Proof/Machine/System.lean ====
section
/-! DEFINITION. Re-executable regions (R226 to R229, R382 to R384, R462), the Mortar token's instructions
(R230, R231), the special registers (R32 to R41, R242, R246, R247, R431), traps by instruction and returns
(R243, R244), ENRD (R245), page walks of threads (R269 to R271). -/

namespace Sys2Proof.Machine

/-! ## Regions -/

/-- The registers that a region mask names, as they are read. -/
def State.maskValues (s : State) (t : Thread) (a : Reg) (mask : BitVec 16) : List (Nat × Word) :=
  (List.range 16).filterMap fun k =>
    if mask.getLsbD k then some (a.val + k, t.rd s.tick s.freeCount (a.val + k)) else none

/-- The checkpoint that RGN.B records (R227). -/
def State.checkpoint (s : State) (t : Thread) (a : Reg) (mask : BitVec 16) : Checkpoint :=
  { rgn := t.pc, cb := t.cb, sa := a, mask := mask, regs := s.maskValues t a mask, preds := s.predByte t ||| 1
    flow := t.flow }

/-- RGN_B (R227, R384): inside a restart it keeps the retry count. -/
def execRgnB (m : Mods) (a : Reg) (mk : BitVec 16) (s : State) : Host.Outcome State Fault Refusal :=
  s.run fun c => s.checked c (maskRegs a mk) (maskRegs a mk)
    (let opened := fun n : Nat => s.done c m
       { c.t with region := some ⟨s.checkpoint c.t a mk, n, false, s.nextId, c.t.activeU, c.t.activeS⟩ }
     match c.t.region with
     | none => opened 0
     | some r => if r.restarting && c.t.inRegion then opened r.retries else s.deliver c.t .regionState 0)

/-- RGN_E (R227, R383): it waits for the operations issued since RGN.B, then closes the region. -/
def execRgnE (m : Mods) (s : State) : Host.Outcome State Fault Refusal :=
  s.run fun c =>
    match c.t.region with
    | none => s.deliver c.t .regionState 0
    | some r => s.afterOps c (.since r.firstOp) (s.done c m { c.t with region := none })

/-- The failure belongs to the thread's open region: an operation that its own words issued since RGN.B
(R383, R462). -/
def Failure.ofRegion (f : Failure) (r : Region) : Bool := decide (r.firstOp ≤ f.op) && !f.handler

/-- The failures of the region, which restart it once no handler suspends it. -/
def Thread.regionFails (t : Thread) : List Failure :=
  match t.region with
  | none => []
  | some r => t.fails.filter fun f => f.ofRegion r

/-- The failures that are delivered under R382. -/
def Thread.plainFails (t : Thread) : List Failure :=
  match t.region with
  | none => t.fails
  | some r => t.fails.filter fun f => !f.ofRegion r

/-- The failure of the lowest word address (R382). -/
def lowestFailure (l : List Failure) : Option Failure :=
  l.foldl (fun best f =>
    match best with
    | none => some f
    | some b => if f.word.toNat < b.word.toNat then some f else best) none

/-- The trap cause of a failure. -/
def Failure.cause (f : Failure) : Cause :=
  if f.bank.isSome then .fifoBank else if f.remote then .remoteFail else .memError

/-- XINFO of a failure that no region takes (R200, R382). -/
def Failure.info (f : Failure) : DWord :=
  match f.bank with
  | some b => BitVec.ofNat 64 b
  | none => BitVec.ofNat 64 (2 ^ 63 + f.word.toNat)

/-- The thread's group holds the token. -/
def Ctx.holds (c : Ctx) : Bool := c.group == c.l.holder

/-- The thread stands at the boundary before a word that it leaves unexecuted when a failure has reached it (R382): it
is settled there or sleeps there (R140), or its wait at EXIT or for the token is over, or its team stops and its wait
returns it there (R339). -/
def State.atBoundary (s : State) (t : Thread) : Bool :=
  match t.wait with
  | .run | .walk _ _ _ | .version _ _ _ _ _ _ | .flagRoom | .sleep _ _ => true
  | .exiting => !s.busy t.id || s.teamStops t
  | .token => s.teamStops t || ((s.ctx? t.id).map Ctx.holds).getD false
  | .replay _ | .ops _ | .step _ | .join _ => s.teamStops t
  | .barrier _ _ | .sign _ _ | .asleep _ _ _ | .accept _ _ | .past _ => false

/-- No failure is still to be delivered to the thread at the boundary where it stands (R382, R384); none is to one
whose trap froze its team (R379). -/
def State.noFailure (s : State) (t : Thread) : Bool :=
  t.freeze.isSome || ((!s.atBoundary t || t.plainFails.isEmpty) && (t.regionFails.isEmpty || t.suspended))

/-- The delivery of a trap completes a sleep (R140): the thread's next word may issue at once. -/
def Thread.awake (t : Thread) (tick : Nat) : Thread :=
  match t.wait with
  | .sleep _ _ => { t with wait := .run, ready := min t.ready tick, readyHalf := false }
  | .run | .walk _ _ _ | .replay _ | .ops _ | .version _ _ _ _ _ _ | .step _ | .token | .flagRoom | .join _ |
    .barrier _ _ | .sign _ _ | .asleep _ _ _ | .accept _ _ | .past _ | .exiting => t

/-- ACCESS_FAILURE (R382, R462): the failures that no region takes are delivered as one trap at the thread's
boundary. -/
def execAccessFailure (th : Nat) (s : State) : Host.Outcome State Fault Refusal :=
  match s.thread? th with
  | none => .next s
  | some t =>
    match lowestFailure t.plainFails with
    | none => .next s
    | some f =>
      if s.atBoundary t then
        .next (s.deliver { t.awake s.tick with fails := t.regionFails } f.cause f.info)
      else .next s

/-- Withdraws the wait of a thread whose region restarts (R384): a signature leaves its register. -/
def State.withdrawWait (s : State) (t : Thread) : State :=
  (match t.wait with
   | .sign n _ => s.modTeam t.team fun tm => tm.setConv n ((tm.conv n).unsign t.lane)
   | .run | .walk _ _ _ | .replay _ | .ops _ | .version _ _ _ _ _ _ | .step _ | .token | .flagRoom | .join _ | .sleep _ _ |
     .barrier _ _ | .asleep _ _ _ | .accept _ _ | .past _ | .exiting => s).setThread { t with wait := .run, held := none }

/-- A failure has reached a thread: when its region restarts for it, its wait is withdrawn at once (R384). -/
def State.failureReached (s : State) (th : Nat) : State :=
  match s.thread? th with
  | none => s
  | some t =>
    if t.wait != .run && !t.regionFails.isEmpty && !t.suspended && t.freeze.isNone then s.withdrawWait t else s

/-- The tagged instruction of a thread is withdrawn: it leaves no sample (R433). -/
def State.untag (s : State) (th : Nat) : State :=
  { s with tags := s.tags.map fun g => if g.tagged.any fun x => x.thread == th then { g with tagged := none } else g }

/-- REGION_RESTART (R229, R384): once the thread's operations have completed, its checkpoint is restored and
it re-executes RGN.B; the eighth failure closes the region and traps at the RGN.B word. -/
def execRegionRestart (th : Nat) (s : State) : Host.Outcome State Fault Refusal :=
  match s.thread? th with
  | none => .next s
  | some t =>
    match t.region, lowestFailure t.regionFails with
    | some r, some f =>
      if t.suspended || s.busy th then .next s
      else
        let t' := { t.restart r with fails := t.plainFails }
        let s := if t.wait = .run then s else s.untag th
        if r.retries < 7 then
          .next ((s.setThread { t' with region := some { r with retries := r.retries + 1, restarting := true } }).countPm
            t.team 0x0B 1)
        else .next (s.deliver { t' with region := none } f.cause (f.word.setWidth 64))
    | _, _ => .next s

/-! ## The Mortar token -/

/-- A form of major 0x38, which has no effect outside deterministic mode (R230). -/
def State.tokenForm (s : State) (m : Mods) (f : Ctx → State) : Host.Outcome State Fault Refusal :=
  s.run fun c => s.outsideRegion c (if c.l.det then f c else s.done c m c.t)

/-- TKWAIT (R231): the arrival of the token is an acquire. -/
def execTkwait (m : Mods) (s : State) : Host.Outcome State Fault Refusal :=
  s.tokenForm m fun c => if c.holds then (s.acquireAt c .dev).done c m c.t else s.hold c.t .token

/-- TKPASS (R231): the thread's earlier accesses are performed before the token moves. -/
def execTkpass (m : Mods) (s : State) : Host.Outcome State Fault Refusal :=
  s.tokenForm m fun c =>
    if c.holds then
      s.afterOps c (releaseClass .dev)
        (((s.releaseAt c .dev).done c m { c.t with passed := true }).settle c.l.id)
    else s.deliver c.t .tokenState 0

/-! ## Special registers: reads -/

/-- PROGMODE as a thread reads it (R38). -/
def progmode (c : Ctx) : Nat := c.t.level.code * 16 + b2n c.l.det * 2 + b2n c.tm.defer

/-- The value of a special register (R34, R242, R246, R431); 0 for a number that is not assigned.  DESIGN CHOICE: TICK
reads as the exact tick on every die (R40, log entry 100). -/
def State.sreg (s : State) (c : Ctx) (n : Nat) : Nat :=
  let t := c.t
  let tm := c.tm
  let f := t.frame
  match n with
  | 0x000 => t.lane.val
  | 0x001 => t.slice
  | 0x002 => t.slot
  | 0x003 => t.grp
  | 0x004 => tm.teamIdx
  | 0x005 => tm.cluIdx
  | 0x006 => tm.core
  | 0x007 => coreDie tm.core
  | 0x008 => tm.ngrp
  | 0x009 => tm.nteam
  | 0x00A => tm.nclu
  | 0x00B => progmode c
  | 0x00C => tm.ejt
  | 0x010 => s.tick
  | 0x011 =>
    (match c.l.worker with
     | some w => w.step.toNat
     | none => 0)
  | 0x012 => (s.csr t).toNat
  | 0x013 => tm.trapvec.toNat
  | 0x014 => tm.rngkey.toNat
  | 0x019 => tm.scrSize
  | 0x01A => c.l.pvbase.toNat
  | 0x01B => c.l.pvsize.toNat
  | 0x030 => t.flow.lc0.start.toNat
  | 0x031 => t.flow.lc0.stop.toNat
  | 0x032 => t.flow.lc0.count.toNat
  | 0x034 => t.flow.lc1.start.toNat
  | 0x035 => t.flow.lc1.stop.toNat
  | 0x036 => t.flow.lc1.count.toNat
  | 0x038 => t.flow.depth
  | 0x050 => f.xpc.toNat
  | 0x051 => f.xcause.toNat
  | 0x052 => f.xinfo.toNat
  | 0x053 => f.xmask.toNat
  | 0x054 => f.xpred.toNat
  | 0x055 => f.xflags.toNat
  | 0x056 => f.xcb.toNat
  | 0x110 => b2n tm.pmfrz
  | 0x180 => tm.stepmask.toNat
  | n =>
    if 0x020 ≤ n ∧ n ≤ 0x027 then (tm.cps[n - 0x020]?.getD 0).toNat
    else if 0x040 ≤ n ∧ n ≤ 0x047 then (t.flow.rstk[n - 0x040]?.getD 0).toNat
    else if 0x080 ≤ n ∧ n ≤ 0x08F then ((tm.bars[n - 0x080]?.map Bar.word).getD 0).toNat
    else if 0x0A0 ≤ n ∧ n ≤ 0x0AF then ((tm.convs[n - 0x0A0]?.map fun x : Conv => x.declared).getD 0).toNat
    else if 0x0B0 ≤ n ∧ n ≤ 0x0BF then ((tm.convs[n - 0x0B0]?.map fun x : Conv => x.signed).getD 0).toNat
    else if 0x0C0 ≤ n ∧ n ≤ 0x0CF then ((tm.convs[n - 0x0C0]?.map Conv.word).getD 0).toNat
    else if 0x0D0 ≤ n ∧ n ≤ 0x0DF then ((tm.convs[n - 0x0D0]?.map fun x : Conv => x.pc).getD 0).toNat
    else if 0x100 ≤ n ∧ n ≤ 0x107 then (tm.pmcnt[n - 0x100]?.getD 0).toNat
    else if 0x108 ≤ n ∧ n ≤ 0x10F then (tm.pmsel[n - 0x108]?.getD 0).toNat
    else 0

/-- SREG_UNDEF for an unassigned number, one above 0x3FF included (R241, R242). -/
def State.withSreg (s : State) (c : Ctx) (n : Nat) (f : Nat → State) : State :=
  match sregWidth n with
  | none => s.deliver c.t .sregUndef (BitVec.ofNat 64 (n % 1024))
  | some w => f w

/-- MFS (R242). -/
def execMfs (m : Mods) (r : Reg) (n : BitVec 10) (s : State) : Host.Outcome State Fault Refusal :=
  s.run fun c =>
    let num := immU m.wide n
    s.withSreg c num fun w =>
      s.checked c [sregBlk num r] []
        (s.done c m (c.t.puts (toRegs r.val (w / 32) (s.sreg c num))))

/-! ## Special registers: writes -/

/-- What an MTS changes: the thread, its team and its launch. -/
structure Written where
  t : Thread
  tm : Team
  l : Launch
  deriving DecidableEq, Repr

/-- The whole state after an MTS changes the thread, the team and the launch. -/
def State.putWritten (s : State) (w : Written) : State := ((s.setLaunch w.l).setTeam w.tm).setThread w.t

/-- Nothing changes. -/
def Written.same (c : Ctx) : Written := ⟨c.t, c.tm, c.l⟩

/-- The thread changes. -/
def Written.thread (c : Ctx) (t : Thread) : Written := ⟨t, c.tm, c.l⟩

/-- The team changes. -/
def Written.team (c : Ctx) (tm : Team) : Written := ⟨c.t, tm, c.l⟩

/-- Bits [63:56] of an address value are zero (R35). -/
def addrOk (v : Nat) : Bool := decide (v < 2 ^ 56)

/-- A code address (R35): bits [1:0] are ignored. -/
def codeAddr (v : Nat) : VAddr := BitVec.ofNat 56 (v / 4 * 4)

/-- FPCSR after a write (R37): reserved bits stay zero, and RM never takes 110 or 111. -/
def csrWrite (old : Word) (v : Nat) : Word :=
  let rm := if bits v 12 10 < 6 then bits v 12 10 else bits old.toNat 12 10
  BitVec.ofNat 32 (bits v 13 13 * 2 ^ 13 + rm * 2 ^ 10 + bits v 9 6 * 2 ^ 6 + bits v 4 0)

/-- A barrier register after a write at level S (R27). -/
def barWrite (b : Bar) (v : Nat) : Bar :=
  let e := BitVec.ofNat 12 (bits v 11 0)
  let bad := bit v 31 && e == 0
  let expect := if bad then b.expect else e
  let a := BitVec.ofNat 12 (bits v 23 12)
  { init := if bad then b.init else bit v 31
    phase := bit v 24
    arrived := if a.ult expect then a else b.arrived
    expect := expect }

/-- PMSEL after a write (R247): reserved event codes leave EVENT as it was. -/
def pmselWrite (old : Word) (v : Nat) : Word :=
  BitVec.ofNat 32 (bits v 8 8 * 256 + (if bits v 7 0 < 0x0F then bits v 7 0 else bits old.toNat 7 0))

/-- XCAUSE after a write (R375): FROM takes 00 and 01 only. -/
def xcauseWrite (old : Word) (v : Nat) : Word :=
  BitVec.ofNat 32 ((if bits v 9 8 < 2 then bits v 9 8 else bits old.toNat 9 8) * 256 + bits v 7 0)

/-- Changes a convergence register of a team by number. -/
def Team.modConv (tm : Team) (k : Nat) (f : Conv → Conv) : Team :=
  { tm with convs := tm.convs.mapFinIdx fun i x _ => if i = k then f x else x }

/-- What an MTS of a writable register changes (R35, R242); a write that breaks R35 changes nothing. -/
def sregWrite (c : Ctx) (n v : Nat) : Written :=
  let t := c.t
  let tm := c.tm
  let f := t.frame
  let ok := addrOk v
  let flow := fun (g : Flow) => Written.thread c { t with flow := g }
  let fl := t.flow
  match n with
  | 0x00B => Written.team c { tm with defer := bit v 0 }
  | 0x00C => if bits v 3 0 ≤ 8 then Written.team c { tm with ejt := bits v 3 0 } else Written.same c
  | 0x012 => Written.thread c { t with fpcsr := csrWrite t.fpcsr v }
  | 0x013 => if ok then Written.team c { tm with trapvec := (codeAddr v).setWidth 64 } else Written.same c
  | 0x014 => Written.team c { tm with rngkey := BitVec.ofNat 64 v }
  | 0x01A => if ok then ⟨t, tm, { c.l with pvbase := BitVec.ofNat 64 v }⟩ else Written.same c
  | 0x01B => if v % 16 = 0 then ⟨t, tm, { c.l with pvsize := BitVec.ofNat 32 v }⟩ else Written.same c
  | 0x030 => if ok then flow { fl with lc0 := { fl.lc0 with start := codeAddr v } } else Written.same c
  | 0x031 => if ok then flow { fl with lc0 := { fl.lc0 with stop := codeAddr v } } else Written.same c
  | 0x032 => flow { fl with lc0 := { fl.lc0 with count := BitVec.ofNat 32 v } }
  | 0x034 => if ok then flow { fl with lc1 := { fl.lc1 with start := codeAddr v } } else Written.same c
  | 0x035 => if ok then flow { fl with lc1 := { fl.lc1 with stop := codeAddr v } } else Written.same c
  | 0x036 => flow { fl with lc1 := { fl.lc1 with count := BitVec.ofNat 32 v } }
  | 0x038 => if v ≤ 8 then flow { fl with depth := bits v 3 0 } else Written.same c
  | 0x050 => if ok then Written.thread c (t.setFrame { f with xpc := (codeAddr v).setWidth 64 }) else Written.same c
  | 0x051 => Written.thread c (t.setFrame { f with xcause := xcauseWrite f.xcause v })
  | 0x052 => Written.thread c (t.setFrame { f with xinfo := BitVec.ofNat 64 v })
  | 0x054 => Written.thread c (t.setFrame { f with xpred := BitVec.ofNat 32 (bits v 7 1 * 2 + 1) })
  | 0x056 => if ok then Written.thread c (t.setFrame { f with xcb := (codeAddr v).setWidth 64 }) else Written.same c
  | 0x110 => Written.team c { tm with pmfrz := bit v 0 }
  | 0x180 => Written.team c { tm with stepmask := BitVec.ofNat 64 v }
  | n =>
    if 0x020 ≤ n ∧ n ≤ 0x027 then
      Written.team c { tm with cps := tm.cps.mapFinIdx fun i x _ => if i = n - 0x020 then BitVec.ofNat 32 (bits v 23 0) else x }
    else if 0x040 ≤ n ∧ n ≤ 0x047 then
      if ok then flow { fl with rstk := fl.rstk.mapFinIdx fun i x _ => if i = n - 0x040 then codeAddr v else x }
      else Written.same c
    else if 0x080 ≤ n ∧ n ≤ 0x08F then
      Written.team c { tm with bars := tm.bars.mapFinIdx fun i x _ => if i = n - 0x080 then barWrite x v else x }
    else if 0x0A0 ≤ n ∧ n ≤ 0x0AF then
      Written.team c (tm.modConv (n - 0x0A0) fun x => { x with declared := BitVec.ofNat 32 v })
    else if 0x0B0 ≤ n ∧ n ≤ 0x0BF then
      Written.team c (tm.modConv (n - 0x0B0) fun x => { x with signed := BitVec.ofNat 32 v })
    else if 0x0C0 ≤ n ∧ n ≤ 0x0CF then
      Written.team c (tm.modConv (n - 0x0C0) fun x =>
        { x with
          state := if bits v 9 8 = 3 then x.state else BitVec.ofNat 2 (bits v 9 8)
          grp := BitVec.ofNat 6 (bits v 5 0) })
    else if 0x0D0 ≤ n ∧ n ≤ 0x0DF then Written.team c (tm.modConv (n - 0x0D0) fun x => { x with pc := BitVec.ofNat 56 v })
    else if 0x100 ≤ n ∧ n ≤ 0x107 then
      Written.team c { tm with pmcnt := tm.pmcnt.mapFinIdx fun i x _ => if i = n - 0x100 then BitVec.ofNat 64 v else x }
    else if 0x108 ≤ n ∧ n ≤ 0x10F then
      Written.team c { tm with pmsel := tm.pmsel.mapFinIdx fun i x _ => if i = n - 0x108 then pmselWrite x v else x }
    else Written.same c

/-- How a special register may be written (R33, R34): by every level, from level S upwards, or never. -/
inductive SregAccess where
  | rw | rwS | ro
  deriving DecidableEq, Repr

/-- The write access of an assigned special register. -/
def sregAccess (n : Nat) : SregAccess :=
  if n = 0x00B ∨ n = 0x00C ∨ (0x012 ≤ n ∧ n ≤ 0x014) ∨ (0x020 ≤ n ∧ n ≤ 0x027) then .rw
  else if n ≤ 0x011 ∨ n = 0x019 ∨ n = 0x053 ∨ n = 0x055 then .ro
  else .rwS

/-- The instruction word of an MFS, MTS, TRAP or other form of major 0x3B, for XINFO of PRIV. -/
def systemWord (fn r n : Nat) : Nat := 0x3B * 2 ^ 26 + r * 2 ^ 19 + fn * 2 ^ 15 + n % 1024 * 2 ^ 5

/-- MTS (R242): number, privilege, register range and poison, open region, then the write. -/
def execMts (m : Mods) (r : Reg) (n : BitVec 10) (s : State) : Host.Outcome State Fault Refusal :=
  s.run fun c =>
    let num := immU m.wide n
    s.withSreg c num fun w =>
      if sregAccess num = .rwS ∧ c.t.level = .u then
        s.deliver c.t .priv (BitVec.ofNat 64 (num * 2 ^ 32 + systemWord 1 r.val num))
      else
        s.checked c [sregBlk num r] [sregBlk num r] <| s.outsideRegion c <|
          let out := sregWrite c num (s.regN c.t r.val (w / 32))
          (s.putWritten out).done c m out.t

/-! ## Traps and returns by instruction -/

/-- TRAP (R243). -/
def execTrap (m : Mods) (n : BitVec 10) (s : State) : Host.Outcome State Fault Refusal :=
  s.run fun c => s.deliver c.t .userTrap (BitVec.ofNat 64 (immU m.wide n))

/-- BRK (R243). -/
def execBrk (m : Mods) (n : BitVec 10) (s : State) : Host.Outcome State Fault Refusal :=
  s.run fun c => s.deliver c.t .brk (BitVec.ofNat 64 (immU m.wide n))

/-- The handler-active bit of the thread's level is clear (R381). -/
def Thread.noHandler (t : Thread) : Bool :=
  match t.level with
  | .u => !t.activeU
  | .s | .f => !t.activeS

/-- The thread after TRET, which fetches no word that memory held before (R56, R243). -/
def State.returned (s : State) (t : Thread) : Thread := { t.returned with born := s.ms.past.length }

/-- TRET (R244, R381). -/
def execTret (m : Mods) (s : State) : Host.Outcome State Fault Refusal :=
  s.run fun c =>
    if c.t.noHandler then s.deliver c.t .tretState 0 else s.commit c m 1 (s.returned c.t)

/-- How many words the instruction at an address takes: its modifier chain and its word. -/
def State.chainWords (s : State) (c : Ctx) (level : Level) (va : VAddr) : Nat → Except (VAddr × FetchRes) Nat
  | 0 => .ok 1
  | fuel + 1 =>
    match s.fetch c.tm.core c.t.slice c.l.dev (max c.l.born c.t.born) level va with
    | .ok w =>
      if modKind w = 0 then .ok 1
      else
        match s.chainWords c level (va + 4) fuel with
        | .error e => .error e
        | .ok n => .ok (n + 1)
    | r => .error (va, r)

/-- TRET_SKIP (R55, R244, R381): the thread resumes past the trapping instruction, inside its clause or at
the clause's end; after a trap at a header, when XPC has changed, or when its region is to restart (R384), it acts as
TRET. -/
def execTretSkip (m : Mods) (s : State) : Host.Outcome State Fault Refusal :=
  s.run fun c =>
    let f := c.t.frame
    let r := s.returned c.t
    if c.t.noHandler then s.deliver c.t .tretState 0
    else if f.xpc ≠ f.orig ∨ f.xpc = f.xcb ∨ (!r.regionFails.isEmpty && !r.suspended) then s.commit c m 1 r
    else
      match s.fetch c.tm.core c.t.slice c.l.dev (max c.l.born c.t.born) r.level r.cb with
      | .ok h =>
        if hdrBad h || !inClause r.pc r.cb h then s.commit c m 1 r
        else match s.chainWords c r.level r.pc 3 with
        | .ok n => s.commit c m 1 { (({ r with hdr := h } : Thread).past n) with entered := false }
        | .error (va, x) => s.fetchFail c.t c.l.dev va x
      | x => s.fetchFail c.t c.l.dev r.cb x

/-! ## ENRD -/

/-- The energy of a virtual device: its launches', those that have ended included, and its Lull energy
(R428). -/
def State.deviceEnergy (s : State) (vd : Nat) : DWord :=
  let pick := fun (l : List (Nat × DWord)) => (l.lookup vd).getD 0
  (s.launches.filter fun l => l.dev == vd).foldl (fun v l => v + l.energy) (pick s.power.ended + pick s.power.lullEnergy)

/-- ENRD (R245). -/
def execEnrd (m : Mods) (r : Reg) (n : BitVec 10) (s : State) : Host.Outcome State Fault Refusal :=
  s.run fun c => s.checked c [pair r] []
    (let v := if immU m.wide n = 0 then c.l.energy else s.deviceEnergy c.l.dev
     s.done c m (c.t.puts (toRegs r.val 2 v.toNat)))

/-! ## Page walks -/

/-- PAGE_WALK (R189, R266, R269 to R271): the walk for a thread that missed in the TLBs of its slice and core.  A leaf that
answers is held, and the thread executes its instruction again; a fault parks it or traps. -/
def execPageWalk (th : Nat) (s : State) : Host.Outcome State Fault Refusal :=
  match s.ctx? th with
  | none => .next s
  | some c =>
    match c.t.wait with
    | .walk va kind special =>
      match s.threadWalk c va (c.want kind special) with
      | (s, .error f) => .next (s.xfault c.t c.l.dev va kind f)
      | (s, .ok _) => .next (s.modThread th fun t => { t with wait := .run })
    | _ => .next s

end Sys2Proof.Machine
end

