-- ==== Sys2Proof/Machine/Results.lean ====
section
/-! DEFINITION. What a member's collective engine does with the result of a step (R360, R367, R372, R373,
R410). -/

namespace Sys2Proof.Machine

/-- An ENGINE_FAULT record (R360); the physical function has no fault queue. -/
def State.engineFault (s : State) (dev va engine reason detail source : Nat) : State :=
  let s := s.countFails (if reason = 8 then 1 else 0)
  if dev = 1024 then s
  else s.post dev false 0x08 0 source (toBytes 8 va ++ [BitVec.ofNat 8 engine, BitVec.ofNat 8 reason, 0, 0] ++ toBytes 4 detail)

/-- N of a job: the workers it has (R304). -/
def State.jobN (s : State) (job : Nat) : Nat := ((s.ver.jobs.find? fun j => j.job == job).map fun j => j.n).getD 0

/-- The descriptors that an accepted COLL named (R373), this one included. -/
def Collective.learn (k : Collective) (d : CollDesc) : Collective :=
  { k with known := d :: k.known.filter fun x => !(x.job == d.job && x.cid == d.cid && x.member == d.member) }

/-- The bytes of a ring slot (R367). -/
def State.slotBytes (s : State) (d : CollDesc) : Nat := (64 + 4 * s.jobN d.job * (d.d + 1) + 63) / 64 * 64

/-- The address of the record of a step in a member's ring (R367). -/
def State.recordAt (s : State) (d : CollDesc) (n : Nat) : Nat := d.mrbase + s.slotBytes d * (n % 2 ^ d.logm)

/-- The membership record of a step, with the rest of its slot zero (R372). -/
def stepRecord (r : StepResult) (slot : Nat) : List Byte :=
  let l := toBytes 4 r.cid ++ toBytes 4 r.step ++ toBytes 8 r.ctick ++
    toBytes 8 (r.entries.length * 2 ^ 46 + r.cause * 2 ^ 44 + r.fresh * 2 ^ 30) ++
    toBytes 4 r.check.toNat ++ toBytes 4 r.wsum.toNat ++ toBytes 4 r.dups ++ toBytes 4 r.latedrop ++
    List.replicate 24 0 ++ r.entries.flatMap fun e => toBytes 4 (e.2 * 65536 + e.1)
  (l ++ List.replicate (slot - l.length) 0).take slot

/-- The first failure of a write of n bytes that has not begun. -/
def State.writeFault (s : State) (dev va n : Nat) (level : Level) : Option AFault :=
  (pieces (n / 16 + 2) va n).findSome? fun p =>
    match s.walk dev p.1 ⟨.write, false, level⟩ with
    | .error f => some ⟨p.1, f.reason⟩
    | .ok x => if !s.engineHeld dev x.key && s.requestFails x.key then some ⟨p.1, 8⟩ else none

/-- Writes the membership record into a member's ring; a record that faults is lost (R373). -/
def State.writeRecord (s : State) (d : CollDesc) (r : StepResult) : State :=
  let a := s.recordAt d r.step
  let n := s.slotBytes d
  match s.writeFault d.dev a n d.level with
  | some f => s.engineFault d.dev f.va 3 f.reason d.cid 0x802
  | none => (s.vwriteAs (some (3, d.cid, 0x802)) d.dev a (stepRecord r n) d.level).1

/-- Adds an installation to the queue of its page: the installation in progress stays first, and those that
queue behind it stand in rising step order (R373). -/
def queueInstall (l : List Install) (i : Install) : List Install :=
  match l with
  | [] => [i]
  | x :: xs => x :: insertBy (fun a b => decide (a.step ≤ b.step)) i xs

/-- Submits the installation of a result (R300, R373): a ninth that queues discards the oldest, which counts
in DROPS. -/
def State.submitResult (s : State) (entry step : Nat) (data : List Word) : State :=
  match s.ventry? entry with
  | none => s
  | some e =>
    if e.closing.isSome then s
    else if e.resident.any fun f => decide (step ≤ f.2.toNat) then s.setVentry { e with drops := min 0xFFFF (e.drops + 1) }
    else
      let mine := s.ver.installs.filter fun i => i.entry == entry
      let rest := s.ver.installs.filter fun i => i.entry != entry
      let full := decide (9 ≤ mine.length)
      let kept := if full then mine.take 1 ++ mine.drop 2 else mine
      let s := if full then s.setVentry { e with drops := min 0xFFFF (e.drops + 1) } else s
      { s with
        ver := { s.ver with installs := rest ++ queueInstall kept ⟨s.nextId, entry, step, data, none, s.tick, false, 0⟩ }
        nextId := s.nextId + 1 }

/-- A result for a device may be handled now (R410): the device is ACTIVE, or keeps its memory in Lull. -/
def State.takesResults (s : State) (dev : Nat) : Bool := decide (s.vdState dev = 1 ∨ s.vdClass dev < 2)

/-- The descriptor by which a member handles a result now; none while it has none, or its device cannot. -/
def State.resultDesc (s : State) (member : Nat) (r : StepResult) : Option CollDesc :=
  match s.coll.known.find? fun d => d.job == r.job && d.cid == r.cid && d.member == member with
  | none => none
  | some d => if s.takesResults d.dev then some d else none

/-- Handles a result at one member of this package (R373), or holds it: the ninth held result of a member
discards its oldest. -/
def State.deliverResult (s : State) (member : Nat) (r : StepResult) : State :=
  match s.resultDesc member r with
  | some d => (s.writeRecord d r).submitResult d.entry r.step r.data
  | none =>
    let mine := fun x : Nat × StepResult => x.1 == member && x.2.job == r.job && x.2.cid == r.cid
    let kept := if (s.coll.results.filter mine).length < 8 then s.coll.results else s.coll.results.eraseP mine
    { s with coll := { s.coll with results := kept ++ [(member, r)] } }

/-- Handles the held results that can be handled now, in rising step order (R373, R410). -/
def State.flushResults (s : State) : State :=
  let now := s.coll.results.filter fun x => (s.resultDesc x.1 x.2).isSome
  let later := s.coll.results.filter fun x => !(s.resultDesc x.1 x.2).isSome
  (sortBy (fun a b => decide (a.2.step ≤ b.2.step)) now).foldl (fun s x => s.deliverResult x.1 x.2)
    { s with coll := { s.coll with results := later } }

/-- The members of a job on this package. -/
def State.members (s : State) (job : Nat) : List Nat :=
  s.launches.filterMap fun l =>
    match l.worker with
    | some w => if w.job = job then some w.idx else none
    | none => none

/-- COLLECTIVE_RESULT (R373): the result of a step reaches this package. -/
def execCollectiveResult (r : StepResult) (s : State) : Host.Outcome State Fault Refusal :=
  .next ((s.members r.job).foldl (fun s m => s.deliverResult m r) s)

end Sys2Proof.Machine
end

