-- ==== Sys2Proof/Machine/EngineInsn.lean ====
section
/-! DEFINITION. Majors 0x39 and 0x3A up to the issue of the command: TCOPY (R233, R234, R355 to R357), QPUT
(R235), COLL (R367, R368), SPAWN (R237), BIN and BINREL (R239) and CARVE (R240).  What the engines do
then is in Engines, Collect and Front. -/

namespace Sys2Proof.Machine

/-! ## Tile copies -/

/-- Rows of a tile shape (R356). -/
def tileRows (shape : Nat) : Nat := 2 ^ shape

/-- Bytes in a row of a tile shape (R356). -/
def tileWidth (shape : Nat) : Nat := 128 / 2 ^ shape

/-- The units that a copy moves (R357): global address, scratch offset, bytes. -/
def TileCopy.segments (k : TileCopy) : List (Nat × Nat × Nat) :=
  if k.tid = 0 then (List.range k.units).map fun i => (k.gaddr + 16 * i, k.soff + 16 * i, 16)
  else
    let th := tileRows k.shape
    let tw := tileWidth k.shape
    (List.range k.rows).flatMap fun r => (List.range k.cols).flatMap fun c => (List.range th).map fun ty =>
      (k.base + ((k.row0 + r) * th + ty) * k.pitch + (k.col0 + c) * tw, k.soff + 128 * (r * k.cols + c) + ty * tw, tw)

/-- The bytes that a copy moves. -/
def TileCopy.bytes (k : TileCopy) : Nat := if k.tid = 0 then 16 * k.units else 128 * k.rows * k.cols

/-- The virtual address of a tensor's record in its device's record table (R265). -/
def State.recordVa (s : State) (dev tid : Nat) : Nat := s.regField (vdOff dev 0x20) 55 0 + 64 * (tid - 1)

/-- Puts a record into a layout cache of n records: that of a core, or that of its die (R265). -/
def State.keepLayout (s : State) (r : LayoutRec) (n pick : Nat) : State :=
  let mates := s.ms.layout.filter fun x => x.core == r.core && x.die == r.die
  s.setMs { s.ms with layout := r :: roomIn mates s.ms.layout n (Config.evicted s.freeCount pick) }

/-- The record table's record of a tensor, through the layout caches (R265, log entry 19); none when it cannot be read,
which traps with TILE_RECORD (log entry 106). -/
def State.layoutRead (s : State) (core dev tid : Nat) : State × Option (List Byte) :=
  let die := coreDie core
  let find := fun (k : Option Nat) => s.ms.layout.find? fun r => r.core == k && r.die == die && r.dev == dev && r.tid == tid
  let mine := fun l : List Byte => (⟨some core, die, dev, tid, l⟩ : LayoutRec)
  match find (some core) with
  | some r => (s, some r.bytes)
  | none =>
    match find none with
    | some r => (s.keepLayout (mine r.bytes) 64 2, some r.bytes)
    | none =>
      match s.vread dev (s.recordVa dev tid) 64 .s with
      | .error e => (s.countFault e, none)
      | .ok l => ((s.keepLayout ⟨none, die, dev, tid, l⟩ 512 3).keepLayout (mine l) 64 2, some l)

/-- The read of a record that a layout cache does not hold waits for a plane or a quota (R392, R402). -/
def State.layoutHeld (s : State) (core dev tid : Nat) : Bool :=
  !(s.ms.layout.any fun r =>
    (r.core == some core || (r.core.isNone && r.die == coreDie core)) && r.dev == dev && r.tid == tid) &&
    s.vheld dev (s.recordVa dev tid) 64 .read .s

/-- The geometry that a record gives a copy; none when the record is not valid for it (R356). -/
def TileCopy.withRecord (k : TileCopy) (l : List Byte) : Option TileCopy :=
  let w0 := field l 0 8
  let w1 := field l 8 8
  let shape := bits w0 57 56
  let base := bits w0 55 0
  let pitch := bits w1 63 32
  let tw := tileWidth shape
  if !bit w0 63 ∨ bits w0 62 58 ≠ 0 ∨ bits (field l 16 8) 63 56 ≠ 0 ∨ bits (field l 24 8) 63 32 ≠ 0 ∨
      !zeroBytes l 32 64 then none
  else if base % 128 ≠ 0 ∨ pitch % tw ≠ 0 ∨ pitch < tw * (bits w1 15 0 + 1) then none
  else if bits w1 31 16 + 1 < k.row0 + k.rows ∨ bits w1 15 0 + 1 < k.col0 + k.cols then none
  else some { k with shape := shape, base := base, pitch := pitch }

/-- The copy that a descriptor of four words asks for (R233); none when a reserved field is set. -/
def tileDesc (c : Ctx) (id : Nat) (br : Nat) (w : Nat) : Option TileCopy :=
  let w1 := bits w 63 32
  let w2 := bits w 95 64
  let w3 := bits w 127 96
  let tid := bits w3 31 20
  if bits w1 30 24 ≠ 0 ∨ bits w2 31 21 ≠ 0 then none
  else
    some { id := id, op := id, th := c.t.id, team := c.tm.id, core := c.tm.core, dev := c.l.dev, level := c.t.level
           br := br, out := bit w1 31, soff := bits w2 20 0, tid := tid
           gaddr := bits w1 23 0 * 2 ^ 32 + bits w 31 0
           units := if tid = 0 then bits w3 19 0 else 0
           row0 := bits w 31 0, col0 := bits w1 23 0
           rows := bits w3 19 10 + 1, cols := bits w3 9 0 + 1
           shape := 0, base := 0, pitch := 0, accepted := false }

/-- The first byte of a copy that lies above the canonical range (R234). -/
def TileCopy.beyond (k : TileCopy) : Option Nat :=
  (k.segments.find? fun e => decide (2 ^ 56 < e.1 + e.2.2)).map fun e => max e.1 (2 ^ 56)

/-- The checks of R234 after the reserved fields: the copy with its geometry, or the trap, and the state
with the layout caches filled. -/
def State.tileCheck (s : State) (k : TileCopy) (scr : Nat) : State × Except (Cause × Nat) TileCopy :=
  if k.tid = 0 then
    if k.gaddr % 16 ≠ 0 then (s, .error (.misaligned, k.gaddr))
    else if k.soff % 16 ≠ 0 then (s, .error (.misaligned, k.soff))
    else if scr < k.soff + k.bytes then (s, .error (.scratchBounds, max k.soff scr))
    else (s, .ok k)
  else if k.soff % 128 ≠ 0 then (s, .error (.misaligned, k.soff))
  else
    match s.layoutRead k.core k.dev k.tid with
    | (s, none) => (s, .error (.tileRecord, k.tid))
    | (s, some l) =>
      match k.withRecord l with
      | none => (s, .error (.tileRecord, k.tid))
      | some k =>
        match k.beyond with
        | some a => (s, .error (.addrNoncanon, a))
        | none => if scr < k.soff + k.bytes then (s, .error (.scratchBounds, max k.soff scr)) else (s, .ok k)

/-- The thread is the leader of a held convergence register of its team (R216, R234). -/
def leads (tm : Team) (t : Thread) : Bool := (List.finRange 16).any fun n => isLeader tm t n

/-- A command's barrier exists for the team and is initialised (R232). -/
def brOk (tm : Team) (r : Fin 16) : Bool := decide (r.val < tm.nbar) && (tm.bar r).init

/-- The copies of a core. -/
def State.copiesOf (s : State) (core : Nat) : List TileCopy := s.eng.tcopies.filter fun k => k.core == core

/-- A copy of a core may be accepted: fewer than 64 are, and none that came before it waits (R355). -/
def State.copyRoom (s : State) (core : Nat) : Bool :=
  decide (((s.copiesOf core).filter fun k => k.accepted).length < 64)

/-- Counts an engine command that a team issues (R247). -/
def State.commanded (s : State) (c : Ctx) : State := s.countPm c.tm.id 0x0E 1

/-- Issues an engine command that raises its clause's flags (R232). -/
def State.command (s : State) (c : Ctx) (m : Mods) (kind : OpKind) : State :=
  if c.t.flagRoom (hdrSets c.t.hdr) then (s.long c m kind s.delay).commanded c else s.hold c.t .flagRoom

/-- Adds a tile copy. -/
def State.addCopy (s : State) (k : TileCopy) : State :=
  { s with eng := { s.eng with tcopies := s.eng.tcopies ++ [k] } }

/-- Issues a tile copy (R355): accepted at once where there is room, else the thread waits with its flags
raised. -/
def State.startCopy (s : State) (c : Ctx) (m : Mods) (k : TileCopy) : State :=
  if !c.t.flagRoom (hdrSets c.t.hdr) then s.hold c.t .flagRoom
  else if s.copyRoom k.core && (s.copiesOf k.core).all fun x => x.accepted then
    (({ s with nextId := s.nextId + 1 }.addCopy { k with accepted := true }).done c m c.t).commanded c
  else
    let s := { s with ops := s.ops ++ [Op.mk' s.nextId c.t (.tcopy k.id) s.tick], nextId := s.nextId + 1 }
    ((s.addCopy k).setThread { s.issued c m (1, false) (c.t.raise (hdrSets c.t.hdr)) with
      wait := .accept k.id m.words }).commanded c

/-- TCOPY (R233, R234, R355, R356). -/
def execTcopy (m : Mods) (d : Reg) (r : Fin 16) (s : State) : Host.Outcome State Fault Refusal :=
  s.run fun c => s.checked c [quad d] [quad d] <| s.outsideRegion c <|
    if !leads c.tm c.t then s.deliver c.t .notLeader 0
    else if !brOk c.tm r then s.deliver c.t .barState (BitVec.ofNat 64 r.val)
    else
      match tileDesc c s.nextId r.val (s.regN c.t d.val 4) with
      | none => s.deliver c.t .engineDesc 0
      | some k =>
        if k.tid ≠ 0 ∧ k.soff % 128 = 0 ∧ s.layoutHeld k.core k.dev k.tid then s.hold c.t (.ops .wide)
        else
        match s.tileCheck k c.tm.scrSize with
        | (s, .error (cause, info)) => s.deliver c.t cause (BitVec.ofNat 64 info)
        | (s, .ok k) => s.startCopy c m k

/-! ## QPUT -/

/-- The 64 bytes of 16 packet registers (R235). -/
def State.packet (s : State) (t : Thread) (a : Reg) : List Byte := toBytes 64 (s.regN t a.val 16)

/-- QPUT (R235): the control block must be aligned, and translate for a store. -/
def execQput (m : Mods) (d a : Reg) (s : State) : Host.Outcome State Fault Refusal :=
  s.run fun c => s.checked c [pair d, sixteen a] [pair d, sixteen a] <| s.outsideRegion c <|
    let cb := (s.reg64 c.t d).toNat
    if cb % 64 ≠ 0 then s.deliver c.t .misaligned (BitVec.ofNat 64 cb)
    else
      s.withAccess c (c.want .write false) (s.resolve c .gl cb 64 (c.want .write false)) fun _ _ =>
        s.command c m (.qput cb (s.packet c.t a) none)

/-! ## COLL -/

/-- The fields of a collective descriptor (R367). -/
def parseDesc (l : List Byte) (dev launch addr member entry : Nat) (level : Level) : CollDesc :=
  let w := fun k => field l (8 * k) 8
  { dev := dev, launch := launch, addr := addr, job := bits (w 0) 31 16, cid := bits (w 0) 63 32
    root := bits (w 0) 12 0, mode := bit (w 1) 54, k := bits (w 1) 53 52, d := bits (w 1) 51 48
    q := bits (w 1) 45 32, t := bits (w 1) 31 0, buf := bits (w 2) 55 0, e := bits (w 3) 31 0
    rpage := bits (w 4) 55 0, mrbase := bits (w 5) 55 0, logm := bits (w 6) 3 0, member := member, entry := entry
    level := level }

/-- A reserved bit of a collective descriptor is set (R367). -/
def descReserved (l : List Byte) : Bool :=
  let w := fun k => field l (8 * k) 8
  decide (bits (w 0) 15 13 ≠ 0 ∨ bits (w 1) 63 55 ≠ 0 ∨ bits (w 1) 47 46 ≠ 0 ∨ bits (w 2) 63 56 ≠ 0 ∨
    bits (w 3) 63 32 ≠ 0 ∨ bits (w 4) 63 56 ≠ 0 ∨ bits (w 5) 63 56 ≠ 0 ∨ bits (w 6) 63 4 ≠ 0 ∨ w 7 ≠ 0)

/-- The ENGINE_DESC row of R368, given the size of the result page when it is known. -/
def State.descBad (s : State) (l : List Byte) (d : CollDesc) (job : Nat) (page : Option Nat) : Bool :=
  let n := s.jobN job
  let room := match page with
    | none => 524288
    | some k => min 524288 (2 ^ k / 4)
  d.job != job || descReserved l || decide (d.q = 0 ∨ n < d.q ∨ n ≤ d.root ∨ d.e = 0 ∨ room < d.e ∨ 10 < d.logm)

/-- The contributions of a collective that are staged and not taken (R368). -/
def State.staged (s : State) (job cid : Nat) : List Stage :=
  s.coll.stages.filter fun g => g.accepted && g.desc.job == job && g.desc.cid == cid

/-- The start step of a job. -/
def State.jobStart (s : State) (job : Nat) : Nat := ((s.ver.jobs.find? fun j => j.job == job).map fun j => j.start).getD 0

/-- The root of a collective on this package. -/
def State.rootOf (s : State) (job cid : Nat) : Option Root :=
  s.coll.roots.find? fun r => r.desc.job == job && r.desc.cid == cid

/-- A collective is accepted: its descriptor is known, and the root's first one makes the root (R368,
R369). -/
def State.acceptDesc (s : State) (d : CollDesc) : State :=
  let k := s.coll.learn d
  if d.member = d.root ∧ (s.rootOf d.job d.cid).isNone then
    let root : Root :=
      { desc := d, high := (s.jobStart d.job : Int) - 1, opened := [], fresh := [], late := [], seen := [], latedrop := 0
        dups := 0, stopped := false, unread := none }
    ({ s with coll := { k with roots := k.roots ++ [root] } }).flushResults
  else ({ s with coll := k }).flushResults

/-- Stages a contribution (R368): accepted while fewer than eight of its collective are staged, else its
flags stay raised until one is taken. -/
def State.stageColl (s : State) (c : Ctx) (m : Mods) (d : CollDesc) (step br : Nat) : State :=
  if !c.t.flagRoom (hdrSets c.t.hdr) then s.hold c.t .flagRoom
  else
    let room := decide ((s.staged d.job d.cid).length < 8)
    let g : Stage := { id := s.nextId, desc := d, step := step, op := s.nextId, th := c.t.id, team := c.tm.id, core := c.tm.core
                       br := br, data := [], read := false, sent := false, accepted := room }
    let s := { s with coll := { s.coll with stages := s.coll.stages ++ [g] } }
    if room then ((({ s with nextId := s.nextId + 1 }).acceptDesc d).done c m c.t).commanded c
    else s.command c m (.coll g.id)

/-- The result page of a descriptor: the size of the page and its directory entry. -/
def State.resultPage (s : State) (c : Ctx) (d : CollDesc) : XRes :=
  s.translate c.tm.core c.t.slice c.l.dev d.rpage (c.want .versioned false)

/-- The checks of a descriptor that has been read, in the order of R368; the result page is walked once a check needs it:
E is in range of every page up to 16,384 elements. -/
def State.collCheck (s : State) (c : Ctx) (m : Mods) (l : List Byte) (d : CollDesc) (job step br : Nat) : State :=
  let page := s.resultPage c d
  let size := match page with
    | .ok x => some x.size
    | .fault _ | .miss => none
  let misal := fun v : Nat => s.deliver c.t .misaligned (BitVec.ofNat 64 v)
  if s.descBad l d job size then s.deliver c.t .engineDesc (BitVec.ofNat 64 d.addr)
  else if page = .miss ∧ 16384 < d.e then s.hold c.t (.walk d.rpage .versioned false)
  else if d.buf % 16 ≠ 0 then misal d.buf
  else if d.mrbase % 64 ≠ 0 then misal d.mrbase
  else
    match page with
    | .miss => s.hold c.t (.walk d.rpage .versioned false)
    | .fault f => s.xfault c.t c.l.dev d.rpage .versioned f
    | .ok x =>
      if d.rpage % 2 ^ x.size ≠ 0 then misal d.rpage
      else
        match x.ver, s.ventryAt x.key x.size with
        | true, some e => s.stageColl c m { d with entry := e.idx } step br
        | _, _ => s.deliver c.t .versionPage (BitVec.ofNat 64 d.rpage)

/-- COLL (R368): the thread is held until the descriptor has been read and checked. -/
def execColl (m : Mods) (d a : Reg) (r : Fin 16) (s : State) : Host.Outcome State Fault Refusal :=
  s.run fun c => s.checked c [pair d, one a] [pair d, one a] <| s.outsideRegion c <|
    match c.l.worker with
    | none => s.deliver c.t .notWorker 0
    | some w =>
      let addr := (s.reg64 c.t d).toNat
      if !brOk c.tm r then s.deliver c.t .barState (BitVec.ofNat 64 r.val)
      else if addr % 64 ≠ 0 then s.deliver c.t .misaligned (BitVec.ofNat 64 addr)
      else
        s.withAccess c (c.want .read false) (s.resolve c .gl addr 64 (c.want .read false)) fun loc _ => s.afterOps c .wide <|
          match loc with
          | .mem key _ =>
            let s := s.engineSync c.tm.core key 64
            let info := BitVec.ofNat 64 (2 ^ 63 + c.t.pc.toNat)
            if s.engineHeld c.l.dev key then s.hold c.t (.ops .wide)
            else if s.requestFails key then (s.countFails 1).deliver c.t .remoteFail info
            else if s.ms.poisoned key 64 then s.deliver c.t .memError info
            else
              let l := s.pocRead key 64
              s.collCheck c m l (parseDesc l c.l.dev c.l.id addr w.idx 0 c.t.level) w.job (s.reg32 c.t a).toNat r.val
          | .scr _ _ | .split _ _ _ _ => s

/-! ## SPAWN, BIN, BINREL, CARVE -/

/-- SPAWN (R237, R329): the counter rises at issue. -/
def execSpawn (m : Mods) (d a : Reg) (s : State) : Host.Outcome State Fault Refusal :=
  s.run fun c => s.checked c [pair d, pair a] [pair d, pair a] <| s.outsideRegion c <|
    if c.t.flagRoom (hdrSets c.t.hdr) then
      (s.setLaunch { c.l with counter := c.l.counter + 1 }).command c m
        (.spawn (s.reg64 c.t d).toNat (s.reg64 c.t a).toNat s.nextId)
    else s.hold c.t .flagRoom

/-- A bin of a team (R239). -/
def Team.bin (tm : Team) (n : Nat) : Word := tm.bins[n]?.getD 0

/-- Sets a bin of a team. -/
def Team.setBin (tm : Team) (n : Nat) (v : Word) : Team :=
  { tm with bins := tm.bins.mapFinIdx fun i x _ => if i = n then v else x }

/-- BIN (R239): the bin counts at issue, indivisibly, and DST is written at completion. -/
def execBin (m : Mods) (d a b : Reg) (s : State) : Host.Outcome State Fault Refusal :=
  s.run fun c => s.checked c [one d, one a, one b] [one a, one b] <| s.outsideRegion c <|
    let n := (s.reg32 c.t a).toNat
    if 255 < n then s.deliver c.t .binRange (BitVec.ofNat 64 n)
    else if c.t.flagRoom (hdrSets c.t.hdr) then
      (s.setTeam (c.tm.setBin n (c.tm.bin n + s.reg32 c.t b))).long c m (.bin d.val (c.tm.bin n)) s.delay
    else s.hold c.t .flagRoom

/-- BINREL (R239). -/
def execBinrel (m : Mods) (a : Reg) (s : State) : Host.Outcome State Fault Refusal :=
  s.run fun c => s.checked c [pair a] [pair a] <| s.outsideRegion c <|
    s.command c m (.binrel (s.reg64 c.t a).toNat)

/-- The instruction word of a CARVE, for XINFO of PRIV (R376). -/
def carveWord (d a b : Reg) : Nat := 0xE8000000 + d.val * 2 ^ 19 + a.val * 2 ^ 12 + b.val * 2 ^ 5 + 8

/-- The mode of a code (R240). -/
def modeOf (n : Nat) : BankMode := if n = 0 then .cache else if n = 1 then .scratch else .fifo

/-- A unit of the bank is allocated (R252). -/
def State.bankUsed (s : State) (core num : Nat) : Bool :=
  s.teams.any fun m => m.core == core && m.units.any fun u => u.1 == num

/-- The status of a CARVE for a device (R240). -/
def State.carveStatus (s : State) (dev core bank mode : Nat) : Nat :=
  let b := s.bank core bank
  if 31 < bank then 1
  else if 2 < mode then 2
  else if b.mode = .fifo ∧ b.owner ≠ dev then 5
  else if b.mode = modeOf mode then 0
  else if b.mode = .scratch ∧ s.bankUsed core bank then 3
  else if b.mode = .cache ∧ ((List.range 32).filter fun k => (s.bank core k).mode == .cache).length = 1 then 4
  else 0

/-- The first CARVE of a core begins (R253, R255): a bank that it takes out of CACHE mode accepts no line from now
on. -/
def State.carveStart (s : State) (core : Nat) : State :=
  let first := s.ops.find? fun o =>
    match o.kind with
    | .carve _ c _ _ => c == core
    | _ => false
  match first with
  | none => s
  | some o =>
    match o.kind, s.ctx? o.th with
    | .carve _ _ bank mode, some c =>
      let b := s.bank core bank
      if s.carveStatus c.l.dev core bank mode = 0 ∧ b.mode = .cache ∧ mode ≠ 0 then s.setBank { b with draining := true } else s
    | _, _ => s

/-- CARVE (R240): level S only. -/
def execCarve (m : Mods) (d a b : Reg) (s : State) : Host.Outcome State Fault Refusal :=
  s.run fun c =>
    if c.t.level = .u then s.deliver c.t .priv (BitVec.ofNat 64 (carveWord d a b))
    else
      s.checked c [one d, one a, one b] [one a, one b] <| s.outsideRegion c <|
        (s.long c m (.carve d.val c.tm.core (s.reg32 c.t a).toNat (s.reg32 c.t b).toNat) s.delay).carveStart c.tm.core

end Sys2Proof.Machine
end

