-- ==== Sys2Proof/Machine/Complete.lean ====
section
/-! DEFINITION. The completion of memory operations (R191, R192, R198 to R206, R222, R249, R258, R259, R281,
R382, R391): when an operation may be performed, and what it does. -/

namespace Sys2Proof.Machine

/-! ## What an operation touches -/

/-- The bytes of an access: its location, how many bytes, and whether it writes. -/
def OpKind.access? : OpKind → Option (Loc × Nat)
  | .load _ n _ loc _ => some (loc, n)
  | .store n _ loc _ => some (loc, n)
  | .ldfe _ n team off _ => some (.scr team off, n)
  | .stfull n _ team off => some (.scr team off, n)
  | .atom _ _ w loc _ _ _ _ => some (loc, atomBytes w)
  | .wb _ k | .inv _ k | .wbinv _ k => some (.mem (k / 128 * 128) false, 128)
  | .fifoPop _ _ _ _ | .fifoPush _ _ _ _ | .prefetch _ _ | .trans _ _ | .matrix _ _ | .ldv _ _ _ _ _ | .vpin _ _ _ |
    .vunpin _ | .tcopy _ | .qput _ _ _ | .coll _ | .spawn _ _ _ | .bin _ _ | .binrel _ | .carve _ _ _ _ => none

/-- The operation is an acquire (R195, R199, R200, R205, R222). -/
def OpKind.isAcquire : OpKind → Bool
  | .load _ _ _ _ acq => acq.isSome
  | .ldfe _ _ _ _ _ | .fifoPop _ _ _ _ | .ldv _ _ _ _ _ | .vpin _ _ _ => true
  | .atom _ _ _ _ _ ord _ _ => ord == .acq || ord == .ar
  | .store _ _ _ _ | .stfull _ _ _ _ | .fifoPush _ _ _ _ | .wb _ _ | .inv _ _ | .wbinv _ _ | .prefetch _ _ |
    .trans _ _ | .matrix _ _ | .vunpin _ | .tcopy _ | .qput _ _ _ | .coll _ | .spawn _ _ _ | .bin _ _ | .binrel _ |
    .carve _ _ _ _ => false

/-- The operation is a release (R195, R199, R200, R205). -/
def OpKind.isRelease : OpKind → Bool
  | .store _ _ _ rel => rel.isSome
  | .stfull _ _ _ _ | .fifoPush _ _ _ _ => true
  | .atom _ _ _ _ _ ord _ _ => ord == .rel || ord == .ar
  | .load _ _ _ _ _ | .ldfe _ _ _ _ _ | .fifoPop _ _ _ _ | .ldv _ _ _ _ _ | .vpin _ _ _ | .wb _ _ | .inv _ _ |
    .wbinv _ _ | .prefetch _ _ | .trans _ _ | .matrix _ _ | .vunpin _ | .tcopy _ | .qput _ _ _ | .coll _ |
    .spawn _ _ _ | .bin _ _ | .binrel _ | .carve _ _ _ _ => false

/-- Two accesses through mappings of one memory type have a byte in common (R191). -/
def overlap (a b : Loc × Nat) : Bool :=
  match a.1, b.1 with
  | .scr t o, .scr t' o' => t == t' && decide (o < o' + b.2) && decide (o' < o + a.2)
  | .scr _ _, .mem _ _ | .scr _ _, .split _ _ _ _ | .mem _ _, .scr _ _ | .split _ _ _ _, .scr _ _ => false
  | .mem _ _, .mem _ _ | .mem _ _, .split _ _ _ _ | .split _ _ _ _, .mem _ _ | .split _ _ _ _, .split _ _ _ _ =>
    a.1.uncached == b.1.uncached && (a.1.keys a.2).any fun k => (b.1.keys b.2).contains k

/-- The operation is an atomic or a reduction. -/
def OpKind.isAtom : OpKind → Bool
  | .atom _ _ _ _ _ _ _ _ => true
  | _ => false

/-- An operation that has not taken effect is withdrawn rather than drained (R217). -/
def OpKind.withdrawable : OpKind → Bool
  | .ldfe _ _ _ _ _ | .fifoPop _ _ _ _ | .fifoPush _ _ _ _ => true
  | .load _ _ _ _ _ | .store _ _ _ _ | .stfull _ _ _ _ | .prefetch _ _ | .wb _ _ | .inv _ _ | .wbinv _ _ |
    .atom _ _ _ _ _ _ _ _ | .trans _ _ | .matrix _ _ | .ldv _ _ _ _ _ | .vpin _ _ _ | .vunpin _ | .tcopy _ |
    .qput _ _ _ | .coll _ | .spawn _ _ _ | .bin _ _ | .binrel _ | .carve _ _ _ _ => false

/-- The operation is withdrawn (R339, R352): its team is leaving its core. -/
def State.withdraws (s : State) (o : Op) : Bool :=
  o.kind.withdrawable &&
    (match s.thread? o.th with
     | none => false
     | some t =>
       match s.team? t.team with
       | none => false
       | some m => m.phase != .running)

/-- An earlier operation of the thread holds a later one back (R191, R281 rows 1 and 2, R293). -/
def holdsBack (earlier later : OpKind) : Bool :=
  (later.isAccess && earlier.isAcquire) || (later.isRelease && earlier.isAccess) ||
  (match earlier.access?, later.access? with
   | some x, some y => overlap x y || (x.1.uncached && y.1.uncached)
   | _, _ => false)

/-- No earlier operation of its thread holds the operation back, but for those that are withdrawn (R217, log entry
71). -/
def State.inOrder (s : State) (o : Op) : Bool :=
  !(s.ops.any fun x => x.th == o.th && decide (x.id < o.id) && holdsBack x.kind o.kind && !s.withdraws x)

/-- Two operations of one instruction act on one piece of shared state (R25, R190, R199, R200, R206, R218). -/
def contend (a b : OpKind) : Bool :=
  match a, b with
  | .ldfe _ _ t k c, .ldfe _ _ t' k' c' => c && c' && t == t' && k / 16 == k' / 16
  | .fifoPop _ _ c b, .fifoPop _ _ c' b' => c == c' && b == b'
  | .fifoPush _ _ c b, .fifoPush _ _ c' b' => c == c' && b == b'
  | .qput cb _ none, .qput cb' _ none => cb == cb'
  | .spawn _ _ _, .spawn _ _ _ | .binrel _, .binrel _ => true
  | .carve _ c b _, .carve _ c' b' _ => c == c' && b == b'
  | a, b =>
    match a.access?, b.access? with
    | some x, some y => a.writes && b.writes && overlap x y
    | _, _ => false

/-- A lower lane of the operation's issue group is still to act on the shared state that it acts on (R25). -/
def State.laneAhead (s : State) (o : Op) : Bool :=
  s.ops.any fun x => x.issue == o.issue && x.th != o.th && decide (x.lane < o.lane) && contend x.kind o.kind

/-! ## When an operation may be performed -/

/-- The team's scratch can be accessed now: it is resident, or its allocation has ended. -/
def State.scrThere (s : State) (team : Nat) : Bool := !(s.saved.any fun v => v.team.id == team && !v.frozen)

/-- A full-empty load of a thread that waits on the granule before this one (R199). -/
def State.granuleAhead (s : State) (o : Op) (team off : Nat) (clear : Bool) : Bool :=
  clear && s.ops.any fun x =>
    match x.kind with
    | .ldfe _ _ t k c =>
      t == team && k / 16 == off / 16 && x.id != o.id && (!c || decide (x.id < o.id)) && s.inOrder x && !s.withdraws x
    | _ => false

/-- A push or a pop of the bank that reached it before this one (R200). -/
def State.fifoAhead (s : State) (o : Op) (core bank : Nat) (push : Bool) : Bool :=
  s.ops.any fun x => decide (x.id < o.id) && s.inOrder x && !s.withdraws x &&
    (match x.kind with
     | .fifoPop _ _ c b => !push && c == core && b == bank
     | .fifoPush _ _ c b => push && c == core && b == bank
     | _ => false)

/-- What the operation itself waits for is there (R198, R200). -/
def State.canPerform (s : State) (o : Op) : Bool :=
  match o.kind with
  | .load _ _ _ loc _ | .store _ _ loc _ | .atom _ _ _ loc _ _ _ _ =>
    (match loc with
     | .scr team _ => s.scrThere team
     | .mem _ _ | .split _ _ _ _ => true)
  | .ldfe _ _ team off clear =>
    (match s.team? team with
     | none => false
     | some tm => tm.isFull off && !s.granuleAhead o team off clear)
  | .stfull _ _ team _ => (s.team? team).isSome
  | .fifoPop _ _ core bank => !(s.bank core bank).fifo.isEmpty && !s.fifoAhead o core bank false
  | .fifoPush _ _ core bank => decide ((s.bank core bank).fifo.length < 4096) && !s.fifoAhead o core bank true
  | .prefetch _ _ | .wb _ _ | .inv _ _ | .wbinv _ _ | .ldv _ _ _ _ _ | .vpin _ _ _ | .vunpin _ => true
  | .trans _ _ | .matrix _ _ | .tcopy _ | .qput _ _ _ | .coll _ | .spawn _ _ _ | .bin _ _ | .binrel _ |
    .carve _ _ _ _ => false

/-- The planes of an operation's pod-remote requests are up, and their deadline has not passed (R391). -/
def State.planeOk (s : State) (o : Op) : Bool :=
  match o.deadline with
  | none => true
  | some d => o.planes.all s.planeUp && decide (s.tick < d)

/-- An operation's release is at a scope beyond the L1, and a write-back that it needs is held (R259, R392). -/
def State.backBlocks (s : State) (o : Op) : Bool :=
  (match o.kind with
   | .store _ _ _ (some sc) => Scope.wide sc
   | .atom _ _ _ _ sc ord _ _ => Scope.wide sc && (ord == .rel || ord == .ar)
   | _ => false) && s.backWaits o.th

/-- The lines that an operation allocates in its core's L1. -/
def OpKind.allocates : OpKind → List Nat
  | .load _ n _ loc _ | .store n _ loc _ => if loc.uncached then [] else ((loc.keys n).map lineOf).eraseDups
  | .atom _ _ w loc sc _ _ _ => if loc.uncached || Scope.wide sc then [] else ((loc.keys (atomBytes w)).map lineOf).eraseDups
  | .prefetch (some key) true => [lineOf key]
  | .prefetch _ _ | .ldfe _ _ _ _ _ | .stfull _ _ _ _ | .fifoPop _ _ _ _ | .fifoPush _ _ _ _ | .wb _ _ | .inv _ _ |
    .wbinv _ _ | .trans _ _ | .matrix _ _ | .ldv _ _ _ _ _ | .vpin _ _ _ | .vunpin _ | .tcopy _ | .qput _ _ _ | .coll _ |
    .spawn _ _ _ | .bin _ _ | .binrel _ | .carve _ _ _ _ => []

/-- A line that the operation allocates has no room in the L1, because the write-back of what must leave is held at its
source (R392, R402). -/
def State.noRoom (s : State) (o : Op) : Bool :=
  match s.ctx? o.th with
  | none => false
  | some c => o.kind.allocates.any fun line => s.roomHeld ⟨c.tm.core, c.l.dev, o.cls⟩ line

/-- Nothing but the time it takes holds a memory operation up. -/
def State.opFree (s : State) (o : Op) : Bool :=
  !o.held && s.planeOk o && s.inOrder o && s.canPerform o && !s.backBlocks o && !s.withdraws o && !s.noRoom o

/-- The atomics of the other lanes of an issue group on the location of one of them, in ascending lane order
(R206). -/
def State.atomMates (s : State) (o : Op) : List Op :=
  if o.kind.isAtom then
    sortBy (fun a b => decide (a.lane ≤ b.lane)) (s.ops.filter fun (x : Op) => x.issue == o.issue && x.th != o.th && contend x.kind o.kind)
  else []

/-- A memory operation may be performed and complete now; the atomics of an issue group on one location are performed
together, once nothing holds any of them up (R206). -/
def State.opReady (s : State) (o : Op) : Bool :=
  decide (o.due ≤ s.tick) && s.opFree o && !s.laneAhead o && (s.atomMates o).all s.opFree

/-! ## Reading and writing a location -/

/-- The pieces of a byte run that lie in one line each. -/
def lineRuns (key n : Nat) : List (Nat × Nat) :=
  let k := min n (128 - key % 128)
  if k = n then [(key, n)] else [(key, k), (key + k, n - k)]

/-- The byte runs of a location in memory. -/
def Loc.runs (l : Loc) (n : Nat) : List (Nat × Nat) :=
  match l with
  | .scr _ _ => []
  | .mem k _ => lineRuns k n
  | .split m k k' _ => lineRuns k (min m n) ++ lineRuns k' (n - m)

/-- How an operation of a thread uses the L1 of its core (R197, R256). -/
def Ctx.use (c : Ctx) (o : Op) : Use := { core := c.tm.core, dev := c.l.dev, cls := o.cls }

/-- An access of a team's thread goes on to the home slices of its lines, and what misses there is counted (R247,
R262). -/
def State.goHome (s : State) (c : Ctx) (cls : EvClass) (key n : Nat) : State :=
  let s := s.spendLines c.l.id key n
  if isRemote key || isMgmt key then s
  else
    let missed := (linesOf key n).filter fun l => !s.ms.mscHolds l
    (s.homeUse (s.vdWays c.l.dev) cls key n).countPm c.tm.id 0x07 missed.length

/-- Makes room for the line of a run in the L1, and counts the miss of a load that does not find its bytes there
(R247, R258). -/
def State.loadMiss (s : State) (c : Ctx) (o : Op) (r : Nat × Nat) : State :=
  let s := s.makeRoom (c.use o) (lineOf r.1)
  let s := s.setMs (s.ms.alloc (c.use o) (lineOf r.1))
  if s.ms.hit c.tm.core r.1 r.2 then s else (s.countPm c.tm.id 0x06 1).goHome c o.cls r.1 r.2

/-- Reads a run through the L1 (R258), or at its target when the page is uncached (R269); none where a byte is
poisoned (R249). -/
def State.readRun (s : State) (c : Ctx) (o : Op) (uncached : Bool) (r : Nat × Nat) : State × Option (List Byte) :=
  if uncached then
    if isMgmt r.1 then (s, some (toBytes r.2 (s.mgmtBytes (some c.l.dev) o.level (r.1 - mgmtBase) r.2)))
    else (s, if s.ms.poisoned r.1 r.2 then none else some (s.pocRead r.1 r.2))
  else
    let s := s.loadMiss c o r
    match s.ms.load (c.use o) r.1 r.2 with
    | (l, ms) => (s.setMs ms, if ms.l1Bad c.tm.core r.1 r.2 then none else some l)

/-- Bytes of the scratch of an allocation that has ended: free values (log entry 18). -/
def goneBytes (free off n : Nat) : List Byte := (List.range n).map fun k => Config.goneScratch free (off + k)

/-- Reads n bytes of a location for a thread's access; none when a byte is poisoned. -/
def State.readLoc (s : State) (c : Ctx) (o : Op) (loc : Loc) (n : Nat) : State × Option (List Byte) :=
  match loc with
  | .scr team off =>
    (match s.team? team with
     | some tm => (s, if tm.scrBad off n then none else some (tm.scrRead off n))
     | none => (s, some (goneBytes s.freeCount off n)))
  | .mem _ _ | .split _ _ _ _ =>
    (loc.runs n).foldl (fun acc run =>
      match acc.1.readRun c o loc.uncached run, acc.2 with
      | (s, some l), some before => (s, some (before ++ l))
      | (s, _), _ => (s, none)) (s, some [])

/-- Writes one run: into the L1, where a line that is not there counts as a miss (R247, R258), or at its target when
the page is uncached. -/
def State.writeRun (s : State) (c : Ctx) (o : Op) (uncached : Bool) (key : Nat) (l : List Byte) : State :=
  if uncached then
    if isMgmt key then s.mgmtStore (.vf c.l.dev) o.level (key - mgmtBase) l.length (ofBytes l) else s.pocWrite key l
  else
    let s := if s.ms.hasLine c.tm.core (lineOf key) then s else s.countPm c.tm.id 0x06 1
    let s := s.makeRoom (c.use o) (lineOf key)
    s.setMs (s.ms.store (c.use o) key s.tick l)

/-- Writes the bytes of a thread's access. -/
def State.writeLoc (s : State) (c : Ctx) (o : Op) (loc : Loc) (l : List Byte) : State :=
  match loc with
  | .scr team off => s.modTeam team fun tm => tm.scrWrite off l
  | .mem _ _ | .split _ _ _ _ =>
    ((loc.runs l.length).foldl (fun (acc : State × List Byte) run =>
      (acc.1.writeRun c o loc.uncached run.1 (acc.2.take run.2), acc.2.drop run.2)) (s, l)).1

/-- Writes the stored bytes of a location back to their point of coherence. -/
def State.pushLoc (s : State) (core : Nat) (loc : Loc) (n : Nat) : State :=
  let keys := loc.keys n
  s.pushBack fun b => b.core == core && keys.contains b.key

/-- Removes the lines of a location from every core's L1, their dirty bytes written back: no atomic at a point beyond
the L1 stands between the read and the write of one that an L1 has performed (R280, log entry 94). -/
def State.clearLoc (s : State) (loc : Loc) (n : Nat) : State :=
  let lines := (loc.keys n).map lineOf
  s.evictBack fun b => lines.contains (lineOf b.key)

/-! ## The end of an operation -/

/-- Registers that a load of n bytes writes. -/
def loadRegs (dst n : Nat) : List Nat := (List.range ((n + 3) / 4)).map (dst + ·)

/-- The value a load of n bytes writes (R194). -/
def extended (ext : Ext) (v : Nat) : Nat :=
  match ext with
  | .zero => v
  | .sign8 => ((BitVec.ofNat 8 v).signExtend 32).toNat
  | .sign16 => ((BitVec.ofNat 16 v).signExtend 32).toNat

/-- A load ends with its value: all of its registers change at its completion, and replace what a younger word of the
thread has written there (R53, log entry 83). -/
def State.loaded (s : State) (o : Op) (dst n : Nat) (ext : Ext) (l : List Byte) : State :=
  (s.modThread o.th fun t => t.puts (toRegs dst ((n + 3) / 4) (extended ext (ofBytes l)))).endOp o

/-- An operation fails after translation (R249, R382): the registers it would write are poisoned, and the
failure waits for delivery; a lane-class result of a younger word is written when it is due (R51). -/
def State.failOp (s : State) (o : Op) (remote : Bool) (dst : List Nat) : State :=
  (s.modThread o.th fun t =>
    { t with
      poison := dst.foldl (fun p r => p ||| (1#128 <<< r)) t.poison
      fails := t.fails ++ [⟨o.id, o.word, remote, o.handler, none⟩] }).endOp o |>.failureReached o.th

/-- A poll demotes its thread under DEFER once it completes (R196, R335); in deterministic mode the scheduler ignores
POLICY (R38). -/
def State.demoteAfter (s : State) (c : Ctx) (p : Bool) : State :=
  if p && c.tm.defer && !c.l.det then s.modThread c.t.id fun t => { t with demoted := true } else s

/-! ## Performing -/

/-- A load (R192, R194, R195): the value, then the acquire. -/
def State.performLoad (s : State) (c : Ctx) (o : Op) (dst n : Nat) (ext : Ext) (loc : Loc) (acq : Option Scope) : State :=
  match s.readLoc c o loc n with
  | (s, none) => (s.failOp o false (loadRegs dst n)).demoteAfter c o.demote
  | (s, some l) =>
    let s := match acq with
      | none => s
      | some sc => s.acquireAt c sc
    (s.loaded o dst n ext l).demoteAfter c o.demote

/-- A store (R192, R194, R195): the release, then the store; a store-release is performed at its scope. -/
def State.performStore (s : State) (c : Ctx) (o : Op) (n v : Nat) (loc : Loc) (rel : Option Scope) : State :=
  let put := fun s : State => s.writeLoc c o loc (toBytes n v)
  match rel with
  | none => (put s).endOp o
  | some sc =>
    let s := put (s.releaseAt c sc)
    (if Scope.wide sc then s.pushLoc c.tm.core loc n else s).endOp o

/-- A full-empty load (R198, R199). -/
def State.performLdfe (s : State) (c : Ctx) (o : Op) (dst n team off : Nat) (clear : Bool) : State :=
  match s.readLoc c o (.scr team off) n with
  | (s, none) => ((if clear then s.modTeam team fun tm => tm.setEmpty off else s).failOp o false (loadRegs dst n)).demoteAfter c o.demote
  | (s, some l) =>
    let s := if clear then s.modTeam team fun tm => tm.setEmpty off else s
    ((s.acquireAt c .team).loaded o dst n .zero l).demoteAfter c o.demote

/-- ST.FULL (R198, R199): the store and the full bit, indivisibly. -/
def State.performStfull (s : State) (c : Ctx) (o : Op) (n v team off : Nat) : State :=
  (((s.releaseAt c .team).modTeam team fun tm => (tm.scrWrite off (toBytes n v)).setFull off)).endOp o

/-- LD.FIFO (R200): the low bytes of the head entry. -/
def State.performPop (s : State) (c : Ctx) (o : Op) (dst n core bank : Nat) : State :=
  let b := s.bank core bank
  match b.fifo with
  | [] => s
  | e :: rest =>
    (((s.setBank { b with fifo := rest }).acquireAt c .team).loaded o dst n .zero (toBytes n e)).demoteAfter c o.demote

/-- ST.FIFO (R200): one entry, the bytes beyond the width zero. -/
def State.performPush (s : State) (c : Ctx) (o : Op) (n v core bank : Nat) : State :=
  let b := s.bank core bank
  ((s.releaseAt c .team).setBank { b with fifo := b.fifo ++ [v % 2 ^ (8 * n)] }).endOp o

/-- The new value of an atomic of w bits, none when it writes nothing (R205). -/
def atomNew (op : AtomOp) (w : Nat) (old a b : Nat) : Option Nat :=
  let x : BitVec w := BitVec.ofNat w old
  let y : BitVec w := BitVec.ofNat w a
  match op with
  | .add => some (x + y).toNat
  | .mins => some (if x.toInt ≤ y.toInt then x else y).toNat
  | .minu => some (min x.toNat y.toNat)
  | .maxs => some (if x.toInt ≤ y.toInt then y else x).toNat
  | .maxu => some (max x.toNat y.toNat)
  | .and => some (x &&& y).toNat
  | .or => some (x ||| y).toNat
  | .xor => some (x ^^^ y).toNat
  | .xchg => some y.toNat
  | .cas => if x = y then some (b % 2 ^ w) else none
  | .fadd => some (fp32.add rneEnv 0 (fp32.decode old) (fp32.decode a)).1

/-- Reads and writes the location of an atomic at its scope's point (R206): GRP and TEAM scopes in the L1, wider ones
at the point of coherence, scratch at the bank.  The new value is `f` of the old one, none when nothing is written;
`before` is the release. -/
def State.atomAt (s : State) (c : Ctx) (o : Op) (loc : Loc) (n : Nat) (far : Bool) (f : Nat → Option Nat)
    (before : State → State) : State × Option Nat :=
  let s := if far then s.clearLoc loc n else s
  let s := if far && !loc.uncached then (loc.runs n).foldl (fun s r => s.goHome c o.cls r.1 r.2) s else s
  let loc := if far then loc.atHome else loc
  match s.readLoc c o loc n with
  | (s, none) => (s, none)
  | (s, some l) =>
    match f (ofBytes l) with
    | none => (s, some (ofBytes l))
    | some v => ((before s).writeLoc c o loc (toBytes n v), some (ofBytes l))

/-- An atomic or a reduction (R205, R206); the release only when it writes. -/
def State.performAtom (s : State) (c : Ctx) (o : Op) (dst : Option Nat) (op : AtomOp) (w : Bool) (loc : Loc) (sc : Scope)
    (ord : MemOrd) (a b : Nat) : State :=
  let n := atomBytes w
  let regs := match dst with
    | none => []
    | some d => loadRegs d n
  let new := fun old => atomNew op (8 * n) old a b
  match s.atomAt c o loc n (Scope.wide sc) new fun s =>
      if ord = MemOrd.rel ∨ ord = MemOrd.ar then s.releaseAt c sc else s with
  | (s, none) => (s.failOp o false regs).demoteAfter c o.demote
  | (s, some old) =>
    let s := if ord = MemOrd.acq ∨ ord = MemOrd.ar then s.acquireAt c sc else s
    let s := match dst with
      | none => s.endOp o
      | some d => s.loaded o d n .zero (toBytes n old)
    s.demoteAfter c (o.demote || (new old).isNone)

/-- The scope of the acquire of a versioned access (R222). -/
def versionScope (key : Nat) : Scope := if isRemote key then .pod else .dev

/-- LDV (R222): the bytes of one frame, then the acquire. -/
def State.performLdv (s : State) (c : Ctx) (o : Op) (dst n key : Nat) : State :=
  let s := s.goHome c o.cls key n
  let s' := if s.ms.poisoned key n then s.failOp o false (loadRegs dst n)
    else (s.acquireAt c (versionScope key)).loaded o dst n .zero (s.pocRead key n)
  s'.demoteAfter c o.demote

/-- A prefetch into the L1 or into the memory-side cache (R202): the line is filled there. -/
def State.performPrefetch (s : State) (c : Ctx) (o : Op) (key : Option Nat) (l1 : Bool) : State :=
  (match key with
   | none => s
   | some k =>
     let a := lineOf k * 128
     if l1 then
       let s := s.loadMiss c o (a, 128)
       s.setMs (s.ms.fill (c.use o) (lineOf k))
     else s.goHome c o.cls a 128).endOp o

/-- A write-back of a line (R202, R203, R389). -/
def State.performWb (s : State) (c : Ctx) (o : Op) (sc : Scope) (key : Nat) (inv : Bool) : State :=
  let mine := fun b : L1Byte => b.core == c.tm.core && lineOf b.key == lineOf key
  let s := if Scope.wide sc then s.pushBack mine else s
  (s.setMs (s.ms.cacheOp (c.use o) key sc true inv)).endOp o

/-- Performs a memory operation of a thread (R192). -/
def State.perform (s : State) (c : Ctx) (o : Op) : State :=
  match o.kind with
  | .load dst n ext loc acq => s.performLoad c o dst n ext loc acq
  | .store n v loc rel => s.performStore c o n v loc rel
  | .ldfe dst n team off clear => s.performLdfe c o dst n team off clear
  | .stfull n v team off => s.performStfull c o n v team off
  | .fifoPop dst n core bank => s.performPop c o dst n core bank
  | .fifoPush n v core bank => s.performPush c o n v core bank
  | .prefetch key l1 => s.performPrefetch c o key l1
  | .wb sc key => s.performWb c o sc key false
  | .inv sc key => (s.setMs (s.ms.cacheOp (c.use o) key sc false true)).endOp o
  | .wbinv sc key => s.performWb c o sc key true
  | .atom dst op w loc sc ord a b => s.performAtom c o dst op w loc sc ord a b
  | .ldv dst n _ _ key => s.performLdv c o dst n key
  | .vpin dst v entry =>
    (((s.acquireAt c (versionScope entry)).modThread o.th fun t => t.put dst v).endOp o).demoteAfter c o.demote
  | .vunpin entry => (s.unpinned c.tm.id entry).endOp o
  | .trans _ _ | .matrix _ _ | .tcopy _ | .qput _ _ _ | .coll _ | .spawn _ _ _ | .bin _ _ | .binrel _ |
    .carve _ _ _ _ => s

/-- A location without its first k bytes. -/
def Loc.from (l : Loc) (k : Nat) : Loc :=
  match l with
  | .scr team off => .scr team (off + k)
  | .mem key u => .mem (key + k) u
  | .split n key next u => if k < n then .split (n - k) (key + k) next u else .mem (next + (k - n)) u

/-- The two halves of a 128-bit access to host memory, each of which is performed by itself (R190, R279, R397). -/
def OpKind.halves : OpKind → Option (OpKind × OpKind)
  | .load d 16 e loc acq =>
    if (loc.keys 16).any isHost then some (.load d 8 e loc acq, .load (d + 2) 8 e (loc.from 8) acq) else none
  | .store 16 v loc rel =>
    if (loc.keys 16).any isHost then some (.store 8 (v % 2 ^ 64) loc rel, .store 8 (v / 2 ^ 64) (loc.from 8) rel) else none
  | _ => none

/-- Performs one half of a 128-bit host access, whichever the free choice takes first; the other is left (log entry
72). -/
def State.performHalf (s : State) (c : Ctx) (o : Op) (a b : OpKind) : State :=
  let high := Config.highFirst s.freeCount
  let part : Op := { o with kind := if high then b else a, flags := 0, demote := false, id := s.nextId }
  let rest := s.ops.map fun x => if x.id == o.id then { x with kind := if high then a else b } else x
  let s := ({ s with nextId := s.nextId + 1, ops := rest }).perform c part
  match s.thread? o.th with
  | none => s
  | some t =>
    if t.fails.any fun f => f.op == part.id then
      (s.setThread { t with fails := t.fails.map fun f => if f.op == part.id then { f with op := o.id } else f }).endOp o
    else s

/-- A write-back that an operation asked for has failed since a state: its thread hears of it as of a failed access
(R382, R388, log entry 70). -/
def State.tellLost (s before : State) (o : Op) : State :=
  if s.reg 0x70000020 == before.reg 0x70000020 then s
  else
    (s.modThread o.th fun t =>
      if t.fails.any fun f => f.op == o.id then t else { t with fails := t.fails ++ [⟨o.id, o.word, true, o.handler, none⟩] }).failureReached
      o.th

/-- Performs an operation, in its halves where it has them. -/
def State.performOp (s : State) (c : Ctx) (o : Op) : State :=
  (match o.kind.halves with
   | none => s.perform c o
   | some (a, b) => s.performHalf c o a b).tellLost s o

/-- A load or an atomic that found its bytes in the L1 when it issued, and now must fetch pod-remote ones (R258, R389). -/
def State.mustTravel (s : State) (c : Ctx) (o : Op) : Bool :=
  o.planes.isEmpty &&
    (match o.kind with
     | .load _ n _ loc _ => !loc.uncached && (loc.keys n).any isRemote && !s.locHit c.tm.core loc n
     | .atom _ _ w loc sc _ _ _ =>
       !loc.uncached && !Scope.wide sc && (loc.keys (atomBytes w)).any isRemote && !s.locHit c.tm.core loc (atomBytes w)
     | _ => false)

/-- The requests of an operation leave now (R389, R391). -/
def State.travel (s : State) (c : Ctx) (o : Op) : State :=
  let keys := match o.kind.access? with
    | none => []
    | some (loc, n) => loc.keys n
  let o' := s.onPlanes c.l.dev (planesOf keys) { o with due := s.tick + s.delay }
  { s with ops := s.ops.map fun x => if x.id == o.id then o' else x }

/-- Performs the atomics of further lanes; they are consecutive at their location (R206). -/
def State.performMates (s : State) : List Op → State
  | [] => s
  | o :: l =>
    match s.ctx? o.th with
    | none => s.performMates l
    | some c => (s.performOp c o).performMates l

/-- The home package refuses an operation's pod-remote request: nothing is performed (R388). -/
def State.refusedAtHome (s : State) (o : Op) : Bool := !o.planes.isEmpty && Config.homeRefuses s.freeCount

/-- The registers that an operation writes. -/
def OpKind.dests : OpKind → List Nat
  | .load dst n _ _ _ | .ldfe dst n _ _ _ | .fifoPop dst n _ _ | .ldv dst n _ _ _ => loadRegs dst n
  | .atom (some d) _ w _ _ _ _ _ => loadRegs d (atomBytes w)
  | .vpin dst _ _ | .bin dst _ | .carve dst _ _ _ => [dst]
  | .atom none _ _ _ _ _ _ _ | .store _ _ _ _ | .stfull _ _ _ _ | .fifoPush _ _ _ _ | .wb _ _ | .inv _ _ |
    .wbinv _ _ | .prefetch _ _ | .trans _ _ | .matrix _ _ | .vunpin _ | .tcopy _ | .qput _ _ _ | .coll _ |
    .spawn _ _ _ | .binrel _ => []

/-- What a pod-remote request that its home did not perform leaves here: a pin has the count that it had before, and
a write-back leaves nothing of its bytes (log entry 70). -/
def State.notDone (s : State) (c : Ctx) (o : Op) : State :=
  let count := fun (entry : Nat) (by' : Int) =>
    match s.pinLeft none c.tm.id entry with
    | none => s
    | some p => s.countPin p by'
  match o.kind with
  | .vpin _ _ entry => count entry (-1)
  | .vunpin entry => count entry 1
  | .wb _ key | .wbinv _ key =>
    s.setMs (s.ms.drop fun b => b.core == c.tm.core && lineOf b.key == lineOf key && b.dirty)
  | .load _ _ _ _ _ | .store _ _ _ _ | .atom _ _ _ _ _ _ _ _ | .ldfe _ _ _ _ _ | .fifoPop _ _ _ _ | .ldv _ _ _ _ _ |
    .stfull _ _ _ _ | .fifoPush _ _ _ _ | .inv _ _ | .prefetch _ _ | .trans _ _ | .matrix _ _ | .tcopy _ | .qput _ _ _ |
    .coll _ | .spawn _ _ _ | .bin _ _ | .binrel _ | .carve _ _ _ _ => s

/-- An operation whose pod-remote requests have failed ends (R382, R390); a prefetch is dropped silently (R202). -/
def State.failRemote (s : State) (o : Op) (n : Nat) : State :=
  match o.kind with
  | .prefetch _ _ => (s.countFails n).endOp o
  | _ => (s.countFails n).failOp o true o.kind.dests

/-- MEMORY_OP_COMPLETE (R192). -/
def execMemoryOpComplete (op : Nat) (s : State) : Host.Outcome State Fault Refusal :=
  match s.op? op with
  | none => .next s
  | some o =>
    match s.ctx? o.th with
    | none => .next s
    | some c =>
      if !s.opReady o then .next s
      else if s.mustTravel c o then .next (s.travel c o)
      else if s.refusedAtHome o then .next ((s.notDone c o).failRemote o 1)
      else
        .next ((s.performOp c o).performMates (s.atomMates o))

/-! ## FIFO operations whose bank has left FIFO mode (R254) -/

/-- The bank that a FIFO operation of a device names is not in FIFO mode for that device. -/
def State.fifoLost (s : State) (dev : Nat) (o : Op) : Option Nat :=
  let lost := fun core bank =>
    let b := s.bank core bank
    if b.mode == .fifo && b.owner == dev then none else some bank
  match o.kind with
  | .fifoPop _ _ core bank => lost core bank
  | .fifoPush _ _ core bank => lost core bank
  | _ => none

/-- Ends one FIFO operation whose bank has left FIFO mode: its thread traps with FIFO_BANK at its boundary. -/
def State.fifoFail (s : State) (o : Op) (bank : Nat) : State :=
  (s.modThread o.th fun t => { t with fails := t.fails ++ [⟨o.id, o.word, false, true, some bank⟩] }).endOp o

/-- Ends every FIFO operation whose bank has left FIFO mode. -/
def State.fifoCheck (s : State) : State :=
  s.ops.foldl (fun s o =>
    match s.ctx? o.th with
    | none => s
    | some c =>
      match s.fifoLost c.l.dev o with
      | none => s
      | some bank => s.fifoFail o bank) s

/-! ## Failed pod-remote requests -/

/-- A failed request was performed at its home before its deadline (R391): never when it did not leave the
package. -/
def State.wasDone (s : State) (o : Op) : Bool := o.deadline != some 0 && Config.remoteDone s.freeCount

/-- How many of an operation's requests fail with it: those on dead planes, or all when every plane is up. -/
def State.failCount (s : State) (o : Op) : Nat :=
  let dead := (o.planes.filter fun p => !s.planeUp p).length
  if dead = 0 then o.planes.length else dead

/-- What a failed write had done at its home before its deadline, when it was performed there (R293, R391): all of
it. -/
def State.failedWrite (s : State) (c : Ctx) (o : Op) : State :=
  match o.kind with
  | .store n v loc rel =>
    let s := match rel with
      | none => s
      | some sc => s.releaseAt c sc
    let s := s.writeLoc c o loc (toBytes n v)
    if rel.isSome then s.pushLoc c.tm.core loc n else s
  | .atom _ op w loc sc ord a b =>
    (s.atomAt c o loc (atomBytes w) (Scope.wide sc) (fun old => atomNew op (8 * atomBytes w) old a b) fun s =>
      if ord = MemOrd.rel ∨ ord = MemOrd.ar then s.releaseAt c sc else s).1
  | .wb _ key | .wbinv _ key =>
    s.setMs (s.ms.writeBack fun b => b.core == c.tm.core && lineOf b.key == lineOf key)
  | .vpin _ _ _ | .vunpin _ | .load _ _ _ _ _ | .ldfe _ _ _ _ _ | .fifoPop _ _ _ _ | .ldv _ _ _ _ _ | .stfull _ _ _ _ |
    .fifoPush _ _ _ _ | .inv _ _ | .prefetch _ _ | .trans _ _ | .matrix _ _ |
    .tcopy _ | .qput _ _ _ | .coll _ | .spawn _ _ _ | .bin _ _ | .binrel _ | .carve _ _ _ _ => s

/-- REMOTE_DEADLINE (R391): the deadline of a pod-remote request has passed without a response. -/
def execRemoteDeadline (op : Nat) (s : State) : Host.Outcome State Fault Refusal :=
  match s.op? op with
  | none => .next s
  | some o =>
    match o.deadline, s.ctx? o.th with
    | some d, some c =>
      if !o.held && decide (d ≤ s.tick) && s.inOrder o then
        .next ((if s.wasDone o && !s.backBlocks o then s.failedWrite c o else s.notDone c o).failRemote o (s.failCount o))
      else .next s
    | _, _ => .next s

end Sys2Proof.Machine
end

