-- ==== Sys2Proof/Machine/Front.lean ====
section
/-! DEFINITION. The front end: queues and packets (R314 to R324), launches and their completion (R320 to
R322, R326, R329, R290), SPAWN descriptors (R328), placement (R331), versioned pages and workers (R298,
R304), translation invalidation (R272). -/

namespace Sys2Proof.Machine

/-! ## Reading a queue (R318) -/

/-- The device is served: it is ACTIVE and its destruction has not begun, or it is the physical function (R324, R404,
R407). -/
def State.served (s : State) (dev : Nat) : Bool :=
  dev == 1024 || (s.vdExists dev && s.vdState dev == 1 && s.penen.ending != some dev)

/-- The address of the slot that a queue reads next (R314). -/
def Queue.slot (q : Queue) : Nat := q.base + 64 * (q.rdidx % 2 ^ q.log2)

/-- What the front end meets at the head of a queue (R318): no slot to read, a packet that waits for earlier
launches, a slot that is not yet written or is held, or a packet, which may be poisoned (R366). -/
inductive Head where
  | empty
  | blocked
  | stop
  | ready (l : List Byte) (bad : Bool)
  deriving DecidableEq, Repr

/-- An earlier launch of the queue has not completed. -/
def State.launching (s : State) (q : Queue) : Bool := s.launches.any fun l => l.queue == q.id

/-- A request of the front end for a queue's slot or control block is held at the source (R392, R402). -/
def State.queueHeld (s : State) (q : Queue) : Bool :=
  q.dev != 1024 && (s.vheld q.dev q.slot 64 .read .s || s.vheld q.dev q.cblock 64 .write .s)

/-- The 64 bytes of a queue's next slot, those of a poisoned unit as zero, and the units that are poisoned (R249,
R366). -/
def State.slotRead (s : State) (q : Queue) : Except AFault (List Byte × List Nat) :=
  (List.range 4).foldl (fun acc k =>
    match acc with
    | .error e => .error e
    | .ok (l, bad) =>
      match s.qread q.dev (q.slot + 16 * k) 16 with
      | .ok x => .ok (l ++ x, bad)
      | .error e => if e.reason = 6 then .ok (l ++ List.replicate 16 0, k :: bad) else .error e) (.ok ([], []))

/-- The types that only privileged queues accept: the front end hands these packets to firmware (R316, R412). -/
def privileged (ty : Nat) : Bool := decide (0x10 ≤ ty ∧ ty ≤ 0x14)

/-- The head of a queue.  A privileged packet waits in its queue during a hand-over and while no packet core runs (R420,
R412). -/
def State.head (s : State) (q : Queue) : Head :=
  if q.rdidx % 2 ^ 32 = q.kmax.toNat ∨ !s.served q.dev ∨ s.queueHeld q then .empty
  else
    match s.slotRead q with
    | .error _ => .stop
    | .ok (l, bad) =>
      if 0 ∈ bad then .ready l true
      else if field l 2 2 ≠ q.rdidx % 65536 then .stop
      else if bit (field l 1 1) 2 then .stop
      else if bit (field l 1 1) 1 ∧ s.launching q then .blocked
      else if privileged (field l 0 1) ∧ s.wakesHeld then .blocked
      else .ready l !bad.isEmpty

/-- The queue can be acted on now (R319). -/
def State.ready (s : State) (q : Queue) : Bool :=
  q.wait == .idle &&
    (match s.head q with
     | .ready _ _ => true
     | .empty | .blocked | .stop => false)

/-- How far a number lies after another in a round of m. -/
def turnDist (m last x : Nat) : Nat := (x + 2 * m - last - 1) % m

/-- The device served last at a priority (R319); before any, the round begins with device 0 (log entry 93). -/
def State.lastTurn (s : State) (prio : Nat) : Nat := (s.front.turns.lookup prio).getD 1024

/-- The queue served last of a device at a priority, which `served` lists by both (R319). -/
def State.lastServed (s : State) (prio dev : Nat) : Nat := (s.front.served.lookup (1025 * prio + dev)).getD 63

/-- Queue a is served before queue b (R319): the higher priority, then the device whose turn comes first,
then the queue whose turn comes first. -/
def State.servedBefore (s : State) (a b : Queue) : Bool :=
  let da := turnDist 1025 (s.lastTurn a.prio) a.dev
  let db := turnDist 1025 (s.lastTurn b.prio) b.dev
  if a.prio ≠ b.prio then decide (b.prio < a.prio)
  else if da ≠ db then decide (da < db)
  else decide (turnDist 64 (s.lastServed a.prio a.dev) a.num < turnDist 64 (s.lastServed b.prio b.dev) b.num)

/-- The queue that the front end serves next (R319). -/
def State.frontPick (s : State) : Option Queue :=
  (s.front.queues.filter s.ready).foldl (fun best q =>
    match best with
    | none => some q
    | some b => if s.servedBefore q b then some q else some b) none

/-- The TYPE is accepted on the queue (R316, R324). -/
def typeAllowed (q : Queue) (ty : Nat) : Bool :=
  if ty = 0x01 then q.dev != 1024
  else if ty = 0x02 ∨ ty = 0x03 then true
  else if ty = 0x10 ∨ ty = 0x11 ∨ ty = 0x12 then q.priv && q.dev != 1024
  else if ty = 0x13 ∨ ty = 0x14 then q.priv
  else false

/-! ## Retiring a packet (R318, R322) -/

/-- The first 16 bytes of a completion record (R322). -/
def recordBytes (tick detail first status : Nat) : List Byte :=
  toBytes 8 tick ++ toBytes 2 status ++ toBytes 2 first ++ toBytes 4 detail

/-- Writes a completion record at DONE, when there is one (R322). -/
def State.record (s : State) (dev done detail first status : Nat) : State :=
  if done = 0 then s else s.qwrite dev done (recordBytes s.tick detail first status)

/-- Retires the slot at the head of a queue (R318). -/
def State.retire (s : State) (id : Nat) : State :=
  match s.queue? id with
  | none => s
  | some q =>
    let s := s.qwrite q.dev (q.slot + 2) (toBytes 2 (q.rdidx + 65535))
    let s := s.qwrite q.dev (q.cblock + 8) (toBytes 8 (q.rdidx + 1))
    match s.queue? id with
    | none => s
    | some q => s.setQueue { q with rdidx := q.rdidx + 1, wait := .idle }

/-- Retires a packet with its completion record. -/
def State.finish (s : State) (q : Queue) (done detail status : Nat) : State :=
  (s.retire q.id).record q.dev done detail 0 status

/-- Changes what a queue waits for. -/
def State.setWait (s : State) (id : Nat) (w : QWait) : State :=
  match s.queue? id with
  | none => s
  | some q => s.setQueue { q with wait := w }

/-- Notes the turn of the round-robins (R319). -/
def State.noteTurn (s : State) (q : Queue) : State :=
  { s with front := { s.front with
      turns := (q.prio, q.dev) :: s.front.turns.filter fun e => e.1 != q.prio
      served := (1025 * q.prio + q.dev, q.num) :: s.front.served.filter fun e => e.1 != 1025 * q.prio + q.dev } }

/-- FLAGS [7:3] are reserved in every packet (R316). -/
def flagsBad (l : List Byte) : Bool := decide (bits (field l 1 1) 7 3 ≠ 0)

/-- The completion address of a packet. -/
def pktDone (l : List Byte) : Nat := field l 56 8

/-- Runs the action of a packet of a type at the head of a queue whose turn it is (R316, R319).  A poisoned
packet is refused with BAD_FIELD (R366). -/
def State.onPacket (s : State) (id : Nat) (ty : Nat → Bool) (f : Queue → List Byte → State → State) :
    Host.Outcome State Fault Refusal :=
  match s.frontPick with
  | none => .next s
  | some q =>
    if q.id ≠ id then .next s
    else
      match s.head q with
      | .empty | .blocked | .stop => .next s
      | .ready l bad =>
        if bad then
          (if ty 0x02 then .next ((s.noteTurn q).finish q (pktDone l) 0 2) else .next s)
        else if typeAllowed q (field l 0 1) && ty (field l 0 1) then .next (f q l (s.noteTurn q))
        else .next s

/-- BAD_TYPE_PACKET (R316): a TYPE that its queue does not accept. -/
def execBadTypePacket (id : Nat) (s : State) : Host.Outcome State Fault Refusal :=
  match s.frontPick with
  | none => .next s
  | some q =>
    if q.id ≠ id then .next s
    else
      match s.head q with
      | .empty | .blocked | .stop => .next s
      | .ready l bad =>
        if !bad && !typeAllowed q (field l 0 1) then .next ((s.noteTurn q).finish q (pktDone l) 0 1) else .next s

/-- QUEUE_REREAD (R318): a queue that meets a slot not written for its index, or a held one, stops; it is
re-read after 10 µs, which is 12,500 ticks, unless a kick comes first. -/
def execQueueReread (id : Nat) (s : State) : Host.Outcome State Fault Refusal :=
  match s.queue? id with
  | none => .next s
  | some q =>
    match q.wait with
    | .stopped t => if t + 12500 ≤ s.tick then .next (s.setWait id .idle) else .next s
    | .idle =>
      if s.head q = .stop then
        (match s.slotRead q with
         | .error e => .next ((s.countFault e).setWait id (.stopped s.tick))
         | .ok _ => .next (s.setWait id (.stopped s.tick)))
      else .next s
    | .placing | .destroying _ _ | .invalidating _ _ => .next s

/-- NOP (R316): bytes 4 to 55 must be zero. -/
def execNop (id : Nat) (s : State) : Host.Outcome State Fault Refusal :=
  s.onPacket id (· == 0x02) fun q l s =>
    s.finish q (pktDone l) 0 (if flagsBad l || !zeroBytes l 4 56 then 2 else 0)

/-! ## Placement (R331) -/

/-- A saved team that waits to be restored goes before a placement of its priority or lower (R338). -/
def State.restoreFirst (s : State) (l : Launch) : Bool :=
  s.saved.any fun v =>
    !v.frozen && s.vdPart v.dev == s.vdPart l.dev && decide (s.vdState v.dev = 1 ∨ s.vdState v.dev = 4) &&
      (match s.launch? v.team.launch with
       | none => false
       | some k => decide (l.prio ≤ k.prio))

/-- A CARVE of the core has not completed: a placement that reaches the core after it waits (R255). -/
def State.carving (s : State) (core : Nat) : Bool :=
  s.ops.any fun o =>
    match o.kind with
    | .carve _ c _ _ => c == core
    | _ => false

/-- Where the next cluster of a placement goes, none when there is no room now. -/
def State.placementFit (s : State) (l : Launch) (p : Placement) :
    Option (List (Nat × List (Nat × Nat) × List (Nat × Nat))) :=
  s.clusterFit (s.vdPart l.dev) p.ngrp (pktRegs p.desc) (pktScr p.desc) p.cw p.ch

/-- A cluster of a spawn tree has been placed (R329); the seed's sets the counter to 1, and from then on fetches may
give what memory holds (R56). -/
def Launch.placed (l : Launch) (tree : Nat) (seed : Bool) (born : Nat) : Launch :=
  { l with
    counter := if seed then 1 else l.counter
    born := if seed then born else l.born
    started := true
    trees := l.trees.map fun x => if x.id == tree then { x with unplaced := x.unplaced - 1 } else x }

/-- Places the next cluster of a placement when it fits; the last one ends the placement and retires the
packet that waits for it. -/
def State.tryPlace (s : State) (id : Nat) : State :=
  match s.front.placements.find? fun p => p.id == id with
  | none => s
  | some p =>
    match s.launch? p.launch with
    | none => s
    | some l =>
      if !s.served l.dev || s.restoreFirst l then s
      else
        match s.placementFit l p with
        | none => s
        | some ats =>
          if ats.any fun a => s.carving a.1 then s
          else
          let s := s.placeCluster p ats
          let s := match s.launch? p.launch with
            | none => s
            | some l => s.setLaunch (l.placed p.tree p.queue.isSome s.ms.past.length)
          let last := decide (p.nclu ≤ p.next + 1)
          let rest := s.front.placements.filter fun x => x.id != id
          let mine := s.front.placements.map fun x => if x.id == id then { x with next := x.next + 1 } else x
          let s := { s with front := { s.front with placements := if last then rest else mine } }
          let s := s.treeCheck p.launch p.tree
          match p.queue, last with
          | some q, true => s.retire q
          | _, _ => s

/-- PLACEMENT (R331). -/
def execPlacement (pl : Nat) (s : State) : Host.Outcome State Fault Refusal := .next (s.tryPlace pl)

/-- Adds a placement and tries it at once. -/
def State.addPlacement (s : State) (p : Placement) : State :=
  ({ s with front := { s.front with placements := s.front.placements ++ [p] } }).tryPlace p.id

/-! ## LAUNCH (R320, R321, R326) -/

/-- The status of a launch packet or descriptor (R321), 0 for none. -/
def State.launchStatus (s : State) (dev : Nat) (l : List Byte) : Nat :=
  let st := pktStatus (field l 0 1 == 0x01) l
  if st ≠ 0 then st else if s.canFit (s.vdPart dev) l then 0 else 5

/-- Starts the launch of a packet on a queue (R324, R326): its seed waits at the head of the queue until it is
placed. -/
def State.startLaunch (s : State) (q : Queue) (l : List Byte) (level : Level) (worker : Option Worker) : State :=
  let id := s.nextId
  let tree := id + 1
  let launch : Launch :=
    { id := id, dev := q.dev, queue := q.id, level := level, det := bit (field l 1 1) 0
      prio := min (field l 4 1 % 8) q.prio, packet := l, counter := 0, trees := [⟨tree, 1⟩], ranges := [(0, 32)]
      refused := 0, first := 0, holder := 0, skips := 0, moves := 0, skipped := [], turns := []
      pvbase := BitVec.ofNat 64 (field l 40 8), pvsize := BitVec.ofNat 32 (field l 32 4), worker := worker
      energy := 0, cores := [], started := false, born := 0 }
  let p : Placement :=
    { id := id + 2, launch := id, tree := tree, queue := some q.id, desc := l, arg := BitVec.ofNat 64 (field l 16 8)
      tbase := 0, next := 0, nclu := 1, nteam := 1, ngrp := 1, cw := 1, ch := 1 }
  ({ s with launches := s.launches ++ [launch], nextId := id + 3 }.setWait q.id .placing).addPlacement p

/-- LAUNCH (R320, R321). -/
def execLaunch (id : Nat) (s : State) : Host.Outcome State Fault Refusal :=
  s.onPacket id (· == 0x01) fun q l s =>
    let st := s.launchStatus q.dev l
    if st ≠ 0 then s.finish q (pktDone l) 0 st
    else s.startLaunch q l (if q.priv then .s else .u) none

/-! ## SPAWN descriptors (R328) -/

/-- A descriptor with the fields that it inherits from its launch's packet (R328): FLAGS, SEQ, PVSIZE,
SIGTAG, SSMASK, PVBASE and RNGKEY. -/
def spawnDesc (packet d : List Byte) : List Byte :=
  d.take 1 ++ (packet.drop 1).take 3 ++ (d.drop 4).take 28 ++ (packet.drop 32).take 24 ++ (d.drop 56).take 8

/-- Adds a range to the accepted ranges of a launch, kept in rising order, adjacent ones merged (R328). -/
def addRange : List (Nat × Nat) → Nat × Nat → List (Nat × Nat)
  | [], r => [r]
  | x :: xs, r =>
    if r.2 < x.1 then r :: x :: xs
    else if r.2 = x.1 then (r.1, x.2) :: xs
    else if x.2 = r.1 then addRange xs (x.1, r.2)
    else x :: addRange xs r

/-- The groups of a descriptor's grid. -/
def pktTotal (p : List Byte) : Nat := pktGroups p * (pktCols p * pktRows p) * pktNclu p

/-- The checks of R328: the status, 0 for none, of a descriptor and its TBASE. -/
def State.spawnStatus (s : State) (l : Launch) (d : List Byte) (tbase : Nat) : Nat :=
  let st := pktStatus (field d 0 1 == 0x01) d
  let last := tbase + 32 * pktTotal d
  if st = 1 then 1
  else if st = 2 ∨ 2 ^ 48 ≤ tbase then 2
  else if st ≠ 0 then st
  else if !s.canFit (s.vdPart l.dev) d then 5
  else if l.ranges.any fun r => decide (tbase < r.2) && decide (r.1 < last) then 6
  else if 4096 < (addRange l.ranges (tbase, last)).length then 7
  else 0

/-- Counts the request that failed when a read of an agent fails (R390). -/
def State.readFails (s : State) (dev va n : Nat) (level : Level) : State :=
  match s.vread dev va n level with
  | .error e => s.countFault e
  | .ok _ => s

/-- The descriptor that a SPAWN names and its TBASE; none when it cannot be read. -/
def State.spawnRead (s : State) (l : Launch) (desc : Nat) : Option (List Byte × Nat) :=
  if desc = 0 then some (l.packet, l.ranges.foldl (fun n r => max n r.2) 0)
  else
    match s.vread l.dev desc 64 l.level with
    | .error _ => none
    | .ok d => some (spawnDesc l.packet d, field d 56 8)

/-- A SPAWN is refused (R328, R329). -/
def State.refuseSpawn (s : State) (l : Launch) (st tbase : Nat) : State :=
  let s := s.setLaunch { l with
    counter := l.counter - 1
    refused := l.refused + 1
    first := if l.first = 0 then st else l.first }
  s.post l.dev true 0x06 0 0x0803 (toBytes 2 st ++ List.replicate 6 0 ++ toBytes 8 tbase)

/-- A SPAWN is accepted (R328, R329): its groups form a grid of their own and wait for placement. -/
def State.acceptSpawn (s : State) (l : Launch) (d : List Byte) (tbase arg tree : Nat) : State :=
  let n := pktCols d * pktRows d
  let s := s.setLaunch { l with
    ranges := addRange l.ranges (tbase, tbase + 32 * pktTotal d)
    trees := l.trees ++ [⟨tree, pktNclu d⟩] }
  let p : Placement :=
    { id := s.nextId, launch := l.id, tree := tree, queue := none, desc := d, arg := BitVec.ofNat 64 arg
      tbase := tbase, next := 0, nclu := pktNclu d, nteam := n, ngrp := pktGroups d, cw := pktCols d, ch := pktRows d }
  ({ s with nextId := s.nextId + 1 }).addPlacement p

/-- SPAWN_DESCRIPTOR (R237, R287, R328): the front end reads the descriptor after the thread's earlier
accesses, and the flags fall. -/
def execSpawnDescriptor (op : Nat) (s : State) : Host.Outcome State Fault Refusal :=
  match s.op? op with
  | none => .next s
  | some o =>
    match o.kind, s.ctx? o.th with
    | .spawn desc arg tree, some c =>
      if s.forkWaits o ∨ s.laneAhead o ∨ (desc ≠ 0 ∧ s.vheld c.l.dev desc 64 .read c.l.level) then .next s
      else
        let s := ((s.releaseAt c .dev).endOp o).syncRange c.tm.core c.l.dev desc (if desc = 0 then 0 else 64) c.l.level
        match s.spawnRead c.l desc with
        | none => .next ((s.readFails c.l.dev desc 64 c.l.level).refuseSpawn c.l 9 0)
        | some (d, tbase) =>
          let st := s.spawnStatus c.l d tbase
          if st ≠ 0 then .next (s.refuseSpawn c.l st tbase) else .next (s.acceptSpawn c.l d tbase arg tree)
    | _, _ => .next s

/-! ## The end of a launch (R290, R307, R322, R329) -/

/-- The record of a launch (R322): 16 bytes, or 64 in deterministic mode. -/
def Launch.record (l : Launch) (tick : Nat) : List Byte :=
  let head := recordBytes tick l.refused l.first 0
  if l.det then
    head ++ (l.packet.drop 36).take 4 ++ toBytes 4 l.skips.toNat ++ toBytes 8 l.moves.toNat ++ List.replicate 32 0
  else head

/-- A worker ends with its launch (R304, R307): its peers are told, and by PEER_LEFT records the devices with a worker of
the job here, its own among them (R311), its entry becomes left, and the job's entries are freed with its last local worker. -/
def State.unbind (s : State) (l : Launch) : State :=
  match l.worker with
  | none => s
  | some w =>
    let s := s.tell l.dev w.job fun d e => .leave d e w.job w.idx
    let s := s.modPeer w.job w.idx fun e => { e with state := .left, isLocal := false }
    let s := match s.pentry? w.job w.idx with
      | none => s
      | some e => s.postPeer 0x04 w.job w.idx e.step e.heard
    let s := s.setLaunch { l with worker := none }
    let more := s.launches.any fun x => x.id != l.id && (match x.worker with
      | some y => y.job == w.job
      | none => false)
    if more then s
    else
      { s with
        ver := { s.ver with
          ptable := s.ver.ptable.filter fun e => e.job != w.job
          jobs := s.ver.jobs.filter fun j => j.job != w.job }
        coll := { s.coll with
          known := s.coll.known.filter fun d => d.job != w.job
          roots := s.coll.roots.filter fun r => r.desc.job != w.job
          results := s.coll.results.filter fun r => r.2.job != w.job } }

/-- Ends a launch without a record: what is freed with it. -/
def State.endLaunch (s : State) (l : Launch) : State :=
  let s := s.unbind l
  let old := (s.power.ended.lookup l.dev).getD 0
  { s with
    launches := s.launches.filter fun x => x.id != l.id
    power := { s.power with ended := (l.dev, old + l.energy) :: s.power.ended.filter fun e => e.1 != l.dev } }

/-- LAUNCH_COMPLETE (R290, R322, R329): the spawn-tree counter is zero. -/
def execLaunchComplete (id : Nat) (s : State) : Host.Outcome State Fault Refusal :=
  match s.launch? id with
  | none => .next s
  | some l =>
    if l.started ∧ l.counter = 0 ∧ !(l.cores.any fun k => s.backHeld k l.dev) then
      let s := s.pushBack fun b => b.dev == l.dev && l.cores.contains b.core
      let done := pktDone l.packet
      let s := if done = 0 then s else s.qwrite l.dev done (l.record s.tick)
      .next (s.endLaunch l)
    else .next s

/-! ## QCREATE (R323, R324) -/

/-- A control block holds a value that it may not hold (R315, R323). -/
def blockBad (b : List Byte) : Bool :=
  decide (2 ^ 56 ≤ field b 16 8 ∨ field b 16 8 % 64 ≠ 0 ∨ 20 < field b 24 8) || !zeroBytes b 40 64

/-- Registers a queue (R315, R317): KMAX starts at RDIDX. -/
def State.addQueue (s : State) (dev num cb : Nat) (block : List Byte) (prio : Nat) (priv : Bool) : State :=
  let q : Queue :=
    { id := s.nextId, dev := dev, num := num, cblock := cb, base := field block 16 8, log2 := field block 24 8
      prio := prio, priv := priv, kmax := BitVec.ofNat 32 (field block 8 8), rdidx := field block 8 8, wait := .idle }
  { s with front := { s.front with queues := s.front.queues ++ [q] }, nextId := s.nextId + 1 }

/-- The number of a new queue of a device: the lowest that it does not use, and for its privileged queue the highest
(log entry 97). -/
def State.freeNum (s : State) (dev : Nat) (priv : Bool) : Option Nat :=
  (if priv then (List.range 64).reverse else List.range 64).find? fun n => (s.queueOf dev n).isNone

/-- QCREATE (R323, R324): the number of the new queue is the record's DETAIL. -/
def execQcreate (id : Nat) (s : State) : Host.Outcome State Fault Refusal :=
  s.onPacket id (· == 0x14) fun q l s =>
    let cb := field l 8 8
    let b16 := field l 16 1
    let vd := field l 18 2
    let dev := if q.dev = 1024 then vd else q.dev
    let priv := bit b16 3
    let bad := flagsBad l || !zeroBytes l 4 8 || decide (16 ≤ b16) || !zeroBytes l 17 18 || !zeroBytes l 20 56 ||
      decide (cb % 64 ≠ 0) || (if q.dev = 1024 then decide (1024 ≤ vd) else priv || decide (vd ≠ 0))
    if bad then s.finish q (pktDone l) 0 2
    else if !s.vdExists dev then s.finish q (pktDone l) 0 9
    else if s.vheld dev cb 64 .read .s then s
    else
      match s.vread dev cb 64 .s with
      | .error e => (s.countFault e).finish q (pktDone l) 0 9
      | .ok block =>
        let mine := s.front.queues.filter fun x => x.dev == dev
        if blockBad block then s.finish q (pktDone l) 0 2
        else if (priv ∧ mine.any fun x => x.priv) ∨ 4096 ≤ s.front.queues.length then s.finish q (pktDone l) 0 13
        else
          match s.freeNum dev priv with
          | none => s.finish q (pktDone l) 0 13
          | some n => (s.addQueue dev n cb block (b16 % 8) priv).finish q (pktDone l) n 0

/-! ## XLINV (R272) -/

/-- The first key of the page that a held translation maps. -/
def State.entryKey (s : State) (e : TlbEntry) : Nat :=
  let n := e.leaf.toNat
  let pa := bits n 49 e.size * 2 ^ e.size
  if bit n 62 && decide (bits n 59 50 ≠ s.member) then remoteKey (bits n 59 50) pa else pa

/-- The keys that an operation reaches through a translation. -/
def State.opKeys (s : State) (o : Op) : List Nat :=
  match o.kind.access?, o.kind with
  | some (loc, n), _ => loc.keys n
  | none, .prefetch (some k) _ => [k]
  | none, .ldv _ _ f _ _ | none, .vpin _ _ f | none, .vunpin f => (s.pageKey f).toList
  | none, _ => []

/-- A held translation of a core and a device maps a key. -/
def State.entryMaps (s : State) (dev core key : Nat) (e : TlbEntry) : Bool :=
  dev == e.dev && core == e.core && decide (s.entryKey e ≤ key ∧ key < s.entryKey e + 2 ^ e.size)

/-- An operation of a device may have used a held translation: it reaches the page. -/
def State.usedEntry (s : State) (e : TlbEntry) (o : Op) : Bool :=
  match s.ctx? o.th with
  | none => false
  | some c => (s.opKeys o).any fun k => s.entryMaps c.l.dev c.tm.core k e

/-- An operation of a device has used a translation that its core holds no more, or that is dropped now: no entry of
a list maps all that it reaches (R272). -/
def State.usedDropped (s : State) (vd : Nat) (kept : List TlbEntry) (o : Op) : Bool :=
  match s.ctx? o.th with
  | none => false
  | some c => c.l.dev == vd && (s.opKeys o).any fun k => !kept.any (s.entryMaps c.l.dev c.tm.core k)

/-- The lowest address bit that the index of a level of the tables covers (R267). -/
def levelLow (lv : Nat) : Nat := ((walkLevels.find? fun x => x.1 == lv).map fun x => x.2.2.1).getD 0

/-- A non-leaf entry in a walker cache lies on the path to an address of a range of a device (R266, R272). -/
def WalkEntry.within (e : WalkEntry) (dev start len : Nat) : Bool :=
  e.dev == dev && decide (e.index * 2 ^ levelLow e.level < start + len) &&
    decide (start < (e.index + 1) * 2 ^ levelLow e.level)

/-- XLINV (R272, R323): the device's translations of the range are dropped. -/
def execXlinv (id : Nat) (s : State) : Host.Outcome State Fault Refusal :=
  s.onPacket id (· == 0x13) fun q l s =>
    let start := field l 8 8
    let len := field l 16 8
    let vd := field l 24 2
    let bad := flagsBad l || !zeroBytes l 4 8 || !zeroBytes l 26 56 || decide (start % 65536 ≠ 0 ∨ len % 65536 ≠ 0) ||
      (if q.dev = 1024 then !s.vdExists vd else vd != q.dev)
    if bad then s.finish q (pktDone l) 0 2
    else
      let hit := fun e : TlbEntry => e.dev == vd && decide (e.va < start + len) && decide (start < e.va + 2 ^ e.size)
      let dropped := s.ms.tlb.filter hit
      let kept := s.ms.tlb.filter fun e => !hit e
      let waits := (s.ops.filter fun o => dropped.any (fun e => s.usedEntry e o) || s.usedDropped vd kept o).map fun o => o.id
      let inv : Inval := { id := s.nextId, dev := vd, first := start, last := start + len, waits := waits }
      ({ s with
        ms := { s.ms with
          tlb := kept
          walker := s.ms.walker.filter fun e => !e.within vd start len }
        front := { s.front with invals := s.front.invals ++ [inv] }
        nextId := s.nextId + 1 }).setWait q.id (.invalidating inv.id (pktDone l))

/-- A thread waits for a replayable fault in a range of a device (R271). -/
def State.parkedIn (s : State) (i : Inval) (t : Thread) : Bool :=
  match t.wait, s.ctx? t.id with
  | .replay va, some c => c.l.dev == i.dev && decide (i.first ≤ va ∧ va < i.last)
  | _, _ => false

/-- XLINV_COMPLETE (R271, R272): every access that used a dropped entry has completed; the threads parked in
the range retry their walks. -/
def execXlinvComplete (inv : Nat) (s : State) : Host.Outcome State Fault Refusal :=
  match s.front.invals.find? fun i => i.id == inv with
  | none => .next s
  | some i =>
    if i.waits.any fun k => s.ops.any fun o => o.id == k then .next s
    else
      let threads := s.threads.map fun t => if s.parkedIn i t then { t with wait := .run } else t
      let parked := s.front.parked.filter fun e => !(e.1 == i.dev && decide (i.first ≤ e.2 * 65536 ∧ e.2 * 65536 < i.last))
      let mine := s.front.queues.find? fun q =>
        match q.wait with
        | .invalidating k _ => k == inv
        | .idle | .stopped _ | .placing | .destroying _ _ => false
      let s := { s with
        threads := threads
        front := { s.front with parked := parked, invals := s.front.invals.filter fun x => x.id != inv } }
      match mine with
      | none => .next s
      | some q =>
        match q.wait with
        | .invalidating _ done => .next (s.finish q done 0 0)
        | .idle | .stopped _ | .placing | .destroying _ _ => .next s

/-! ## Versioned pages (R298) -/

/-- The VER leaf of a device that maps an address: frame 0's physical address and the log2 size of the page;
none when there is no such leaf, or it names another member (R298). -/
def State.verLeaf (s : State) (dev va : Nat) : Option (Nat × Nat) :=
  if 2 ^ 56 ≤ va then none
  else
    match s.walkRoot none dev va with
    | .error _ => none
    | .ok w =>
      let n := w.leaf.toNat
      if bits n (w.lo - 1) 8 ≠ 0 ∨ 2 ≤ bits n 61 60 ∨ 2 ≤ w.level ∨ !bit n 5 then none
      else if bit n 62 && decide (bits n 59 50 ≠ s.member) then none
      else some (bits n 49 w.lo * 2 ^ w.lo, w.lo)

/-- The frames of a page lie in one range, the near tier of one die or the far tier (R295), and in the partition
of the device (R298). -/
def State.framesOk (s : State) (dev fpa size n : Nat) : Bool :=
  let last := fpa + n * 2 ^ size - 1
  nearOrFar fpa && nearOrFar last && decide (fpa < 0x4000000000 ↔ last < 0x4000000000) &&
    (decide (0x4000000000 ≤ fpa) || decide (fpa / 2 ^ 36 = last / 2 ^ 36)) && (List.range n).all fun k => s.partHolds (s.vdPart dev) (fpa + k * 2 ^ size)

/-- The lowest index that no entry of a list of indexes uses. -/
def lowestFree (used : List Nat) : Nat :=
  ((List.range (used.length + 1)).find? fun k => !used.contains k).getD used.length

/-- VCREATE (R298): frame 0 becomes VALID with the start step. -/
def execVcreate (id : Nat) (s : State) : Host.Outcome State Fault Refusal :=
  s.onPacket id (· == 0x10) fun q l s =>
    let f := field l 16 1
    let out := fun (s : State) detail st => s.finish q (pktDone l) detail st
    if flagsBad l || !zeroBytes l 4 8 || !zeroBytes l 17 20 || !zeroBytes l 28 56 || decide (f ≠ 2 ∧ f ≠ 4) then out s 0 2
    else
      match s.verLeaf q.dev (field l 8 8) with
      | none => out s 0 9
      | some (fpa, size) =>
        if !s.framesOk q.dev fpa size f then out s 0 11
        else if (s.ventryAt fpa size).isSome then out s 0 10
        else
          let idx := lowestFree (s.ver.dir.map fun e => e.idx)
          if 65536 ≤ idx then out s 0 8
          else
            let e : VEntry :=
              { idx := idx, dev := q.dev, big := decide (size = 21), fpa := fpa, vtimeout := field l 24 4
                frames := (.valid, BitVec.ofNat 32 (field l 20 4)) :: List.replicate (f - 1) (.empty, 0)
                drops := 0, closing := none }
            let s := s.pushBack fun b => b.dev == q.dev
            out { s with ver := { s.ver with dir := s.ver.dir ++ [e] } } idx 0

/-- VDESTROY (R298): no installation starts on the page from now on, and those that wait for a frame are
abandoned. -/
def execVdestroy (id : Nat) (s : State) : Host.Outcome State Fault Refusal :=
  s.onPacket id (· == 0x11) fun q l s =>
    if flagsBad l || !zeroBytes l 4 8 || !zeroBytes l 16 56 then s.finish q (pktDone l) 0 2
    else
      match s.verLeaf q.dev (field l 8 8) with
      | none => s.finish q (pktDone l) 0 9
      | some (fpa, size) =>
        match s.ventryAt fpa size with
        | none => s.finish q (pktDone l) 0 9
        | some e =>
          let s := s.setVentry { e with closing := some q.id }
          let s := s.setInstalls (s.ver.installs.filter fun i => i.entry != e.idx || i.frame.isSome)
          s.setWait q.id (.destroying e.idx (pktDone l))

/-- An installation fills a frame of the page, or an LDV reads from it (R298). -/
def State.pageBusy (s : State) (entry : Nat) : Bool :=
  (s.ver.installs.any fun i => i.entry == entry) ||
  (s.threads.any fun t =>
    match t.wait with
    | .version k _ _ _ _ got => k == entry && got.isSome
    | _ => false) ||
  s.ops.any fun o =>
    match o.kind with
    | .ldv _ _ e _ _ => e == entry
    | _ => false

/-- The queues whose VDESTROY waits for an entry. -/
def State.destroyers (s : State) (entry : Nat) : List (Queue × Nat) :=
  s.front.queues.filterMap fun q =>
    match q.wait with
    | .destroying e done => if e = entry then some (q, done) else none
    | .idle | .stopped _ | .placing | .invalidating _ _ => none

/-- VDESTROY_COMPLETE (R298): the waiting threads trap, the pins end, and the entry is freed. -/
def execVdestroyComplete (entry : Nat) (s : State) : Host.Outcome State Fault Refusal :=
  match s.ventry? entry with
  | none => .next s
  | some e =>
    if e.closing.isNone ∨ s.pageBusy entry then .next s
    else
      let waiters := s.threads.filterMap fun t =>
        match t.wait with
        | .version k va _ _ _ _ => if k = entry then some (t.id, va) else none
        | _ => none
      let s := waiters.foldl (fun s w =>
        match s.thread? w.1 with
        | none => s
        | some t => s.deliver t .versionPage (BitVec.ofNat 64 w.2)) s
      let s := (s.ver.waits.filter fun w => w.entry == entry).foldl (fun s w => s.send (.remoteNoPage w.src))
        (s.setWaits (s.ver.waits.filter fun w => w.entry != entry))
      let gone := fun t : Thread => ({ t with chosen := t.chosen.filter fun x => x.1 != entry } : Thread)
      let s : State := { s with
        threads := s.threads.map gone
        saved := s.saved.map fun v => { v with threads := v.threads.map gone }
        ver := { s.ver with
          pins := s.ver.pins.filter fun p => p.entry != entry
          dir := s.ver.dir.filter fun x => x.idx != entry } }
      .next ((s.destroyers entry).foldl (fun s w => s.finish w.1 w.2 0 0) s)

/-! ## WORKER (R304, R323) -/

/-- The entries of a peer table: pod member and endpoint, with the bytes of each (R323, R395). -/
def State.readPeers (s : State) (dev addr n : Nat) : Except AFault (List (List Byte)) :=
  match s.vread dev addr (16 * n) .s with
  | .error e => .error e
  | .ok l => .ok ((List.range n).map fun k => (l.drop (16 * k)).take 16)

/-- A peer entry as it is held: its member and, when that lies in another pod, its endpoint (R304). -/
def State.peerOf (s : State) (l : List Byte) : Nat × DWord :=
  let member := field l 0 2 % 1024
  (member, if s.regField 0x70000000 41 32 < member then BitVec.ofNat 64 (field l 8 8) else 0)

/-- A reserved bit is set in the endpoint of an entry whose member lies in another pod (R395); bytes 2 to 7 of an entry and
the high bits of its member number are ignored (log entry 107). -/
def State.peerBad (s : State) (l : List Byte) : Bool :=
  decide (s.regField 0x70000000 41 32 < field l 0 2 % 1024) && decide (bits (field l 8 8) 63 44 ≠ 0)

/-- A peer table but for the entry of its worker's own index, which is ignored (R323). -/
def peersBut (idx : Nat) (peers : List (Nat × DWord)) : List (Option (Nat × DWord)) :=
  peers.zipIdx.map fun e => if e.2 = idx then none else some e.1

/-- A WORKER's values agree with those that the job's first worker on the package gave (R304); an address that a
packet does not give agrees with any. -/
def jobAgrees (j : Job) (n lead start silence : Nat) (peers : List (Option (Nat × DWord))) : Bool :=
  j.n == n && j.lead == lead && j.start == start && j.silence == silence &&
    (j.peers.zip peers).all fun e => e.1.isNone || e.2.isNone || e.1 == e.2

/-- The entries of the progress table that a job's first worker allocates (R304, R305). -/
def State.jobEntries (s : State) (job n start : Nat) : List PEntry :=
  let used := s.ver.ptable.map fun e => e.idx
  let free := ((List.range (used.length + n)).filter fun k => !used.contains k).take n
  free.zipIdx.map fun e =>
    { idx := e.1, job := job, widx := e.2, state := .counted, isLocal := false, step := BitVec.ofNat 32 start
      heard := heardNow s.tick }

/-- Binds a worker to its job (R304). -/
def State.bind (s : State) (job idx n lead start silence : Nat) (peers : List (Option (Nat × DWord))) : State :=
  let s :=
    if s.ver.jobs.any fun j => j.job == job then
      let fill := fun j : Job => ({ j with peers := (j.peers.zip peers).map fun e => e.1.or e.2 } : Job)
      { s with ver := { s.ver with jobs := s.ver.jobs.map fun (j : Job) => if j.job == job then fill j else j } }
    else
      { s with ver := { s.ver with
          ptable := s.ver.ptable ++ s.jobEntries job n start
          jobs := s.ver.jobs ++ [⟨job, n, lead, start, silence, peers⟩] } }
  s.modPeer job idx fun e => { e with isLocal := true }

/-- The status of a WORKER packet whose tables could be read (R304), 0 for none. -/
def State.workerStatus (s : State) (dev job idx n lead start silence : Nat) (peers : List (Option (Nat × DWord))) (d : List Byte) :
    Nat :=
  let found := s.ver.jobs.find? fun j => j.job == job
  let differs := match found with
    | none => false
    | some j => !jobAgrees j n lead start silence peers
  if differs then 12
  else if s.ver.ptable.any fun e => e.job == job && e.widx == idx && e.isLocal then 10
  else if found.isNone ∧ 8192 < s.ver.ptable.length + n then 8
  else s.launchStatus dev d

/-- WORKER (R304, R323): the worker is bound, and its launch starts at level U. -/
def execWorker (id : Nat) (s : State) : Host.Outcome State Fault Refusal :=
  s.onPacket id (· == 0x12) fun q l s =>
    let out := fun st => s.finish q (pktDone l) 0 st
    let job := field l 16 2
    let idx := field l 18 2
    let n := field l 20 2
    let lead := field l 22 1
    let start := field l 24 4
    let silence := field l 28 4
    let bad := flagsBad l || !zeroBytes l 4 8 || !zeroBytes l 23 24 || !zeroBytes l 40 56 ||
      decide (n = 0 ∨ 8192 < n ∨ n ≤ idx ∨ silence < 1024 ∨ 2 ^ 27 < silence)
    if bad then out 2
    else if s.vheld q.dev (field l 32 8) (16 * n) .read .s ∨ s.vheld q.dev (field l 8 8) 64 .read .s then s
    else
      match s.readPeers q.dev (field l 32 8) n with
      | .error e => (s.countFault e).finish q (pktDone l) 0 9
      | .ok table =>
        if (table.zipIdx.any fun e => e.2 != idx && s.peerBad e.1) then out 2
        else
          match s.vread q.dev (field l 8 8) 64 .s with
          | .error e => (s.countFault e).finish q (pktDone l) 0 9
          | .ok d =>
            let peers := peersBut idx (table.map s.peerOf)
            let st := s.workerStatus q.dev job idx n lead start silence peers d
            if st ≠ 0 then out st
            else
              let w : Worker := { job := job, idx := idx, step := BitVec.ofNat 32 start, lead := lead, beat := s.tick }
              (s.bind job idx n lead start silence peers).startLaunch q d .u (some w)

end Sys2Proof.Machine
end

