-- ==== Sys2Proof/Machine/Teams.lean ====
section
/-! DEFINITION. Pre-emption (R338, R339), the save of a team and its restore (R201, R217, R291, R339, R340,
R385, R386, R461), and frozen teams (R379). -/

namespace Sys2Proof.Machine

/-! ## Pre-emption (R338) -/

/-- The state as it would be with some teams gone. -/
def State.without (s : State) (ids : List Nat) : State :=
  { s with
    threads := s.threads.filter fun t => !ids.contains t.team
    teams := s.teams.filter fun m => !ids.contains m.id }

/-- The teams that are on their way out already. -/
def State.leaving (s : State) : List Nat := (s.teams.filter fun m => m.phase != .running).map fun m => m.id

/-- The launch priority of a team. -/
def State.teamPrio (s : State) (m : Team) : Nat := ((s.launch? m.launch).map fun l => l.prio).getD 0

/-- The partition of a team. -/
def State.teamPart (s : State) (m : Team) : Nat := ((s.launch? m.launch).map fun l => s.vdPart l.dev).getD 48

/-- Team a is pre-empted before team b: the lower priority, then the one placed later. -/
def State.victimBefore (s : State) (a b : Team) : Bool :=
  decide (s.teamPrio a < s.teamPrio b) || (s.teamPrio a == s.teamPrio b && decide (b.order ≤ a.order))

/-! ## Saving (R339, R340) -/

/-- The threads of a team, group by group and lane by lane (R461). -/
def State.teamThreads (s : State) (id : Nat) : List Thread :=
  sortBy (fun a b => decide (32 * a.grp + a.lane.val ≤ 32 * b.grp + b.lane.val)) (s.threads.filter fun t => t.team == id)

/-- Modifier words of the thread's instruction have issued, and its last word has not (R57). -/
def State.chained (s : State) (id : Nat) : Bool := s.slots.any fun x => x.members.contains id

/-- Every operation of a team that is not withdrawn has completed, and its threads are at home (R339). -/
def State.drained (s : State) (id : Nat) : Bool :=
  (s.teamThreads id).all (fun t => t.place == .home && s.noFailure t && !s.chained t.id) &&
    !(s.ops.any fun o => !o.kind.withdrawable && s.threads.any fun t => t.id == o.th && t.team == id) &&
    !(s.eng.tcopies.any fun c => c.team == id) && !(s.coll.stages.any fun g => g.team == id && !g.read)

/-- A team that stops leaves its core now: it has drained, and no write-back of its release is held (R392). -/
def State.leavesNow (s : State) (m : Team) : Bool :=
  s.drained m.id &&
    (match s.launch? m.launch with
     | none => false
     | some l => !s.backHeld m.core l.dev)

/-- A thread as it is saved, with its withdrawn operations. -/
def State.savedThread (s : State) (t : Thread) : Thread :=
  { Thread.saving t with withdrawn := s.ops.filter fun o => o.th == t.id }

/-- The team without the signatures of threads whose regions the save restarts: they sign again after it (R384). -/
def Team.unsigned (m : Team) (ts : List Thread) : Team :=
  ts.foldl (fun m t =>
    match t.wait with
    | .sign n _ => if t.savedRestarts then m.setConv n ((m.conv n).unsign t.lane) else m
    | _ => m) m

/-- A team leaves its core (R339, R340, R291): a DEV-scope release, then its save is written and its room
freed. -/
def State.saveTeam (s : State) (m : Team) (l : Launch) (frozen : Bool) : State :=
  let ts := s.teamThreads m.id
  let v : SavedTeam :=
    { dev := l.dev, off := s.saveOff l.dev
      team := { m.unsigned ts with phase := .running, fifoMark := m.fifoMark.map fun _ => m.core }
      threads := ts.map s.savedThread, frozen := frozen }
  let ids := ts.map fun t => t.id
  let s := s.releaseFrom m.core l.dev .dev
  let s := { s with
    teams := s.teams.filter fun x => x.id != m.id
    threads := s.threads.filter fun t => t.team != m.id
    ops := s.ops.filter fun o => !ids.contains o.th
    saved := s.saved ++ [v] }
  (s.writeSave (s.regField (vdOff l.dev 0x50) 49 0) v 0).linkSaves l.dev

/-- TEAM_SAVE (R339, R340). -/
def execTeamSave (team : Nat) (s : State) : Host.Outcome State Fault Refusal :=
  match s.team? team with
  | none => .next s
  | some m =>
    match s.launch? m.launch with
    | none => .next s
    | some l => if m.phase = .preempting ∧ s.leavesNow m then .next (s.saveTeam m l false) else .next s

/-! ## Freezing (R379) -/

/-- What a freeze leaves behind: the team's pins end, its groups count as ended, and the token moves on. -/
def State.endFrozen (s : State) (m : Team) (dev : Nat) : State :=
  ((s.endPins dev m.id).treeCheck m.launch m.tree).settle m.launch

/-- The payload of the record of a team that ends with its device: what it holds of a trap is free (log entry 76). -/
def destroyedPayload (free team core : Nat) : List Byte :=
  let v := Config.destroyedTeam free team
  toBytes 10 v ++ toBytes 2 core ++ toBytes 4 (v / 2 ^ 80)

/-- The event record of a frozen team. -/
def frozenPayload (pc code reason core group : Nat) : List Byte :=
  toBytes 8 pc ++ [BitVec.ofNat 8 code, BitVec.ofNat 8 reason] ++ toBytes 2 core ++ toBytes 4 group

/-- TEAM_FREEZE (R379): the team is saved with the frozen mark and is not restored. -/
def execTeamFreeze (team : Nat) (s : State) : Host.Outcome State Fault Refusal :=
  match s.team? team with
  | none => .next s
  | some m =>
    match s.launch? m.launch, m.phase with
    | some l, .freezing reason th =>
      if s.leavesNow m then
        let t := s.thread? th
        let pc := (t.map fun t => t.pc.toNat).getD 0
        let code := (t.map fun t => (t.freeze.map fun f => f.1).getD 0).getD 0
        let group := (t.map fun t => groupOf (m, t)).getD 0
        let s := s.saveTeam m l true
        let s := s.post l.dev true 0x09 0 (sliceSource m.core ((t.map fun t => t.slice).getD 0))
          (if reason = 3 then destroyedPayload s.freeCount m.id m.core else frozenPayload pc code reason m.core group)
        .next (s.endFrozen m l.dev)
      else .next s
    | _, _ => .next s

/-! ## Restoring (R46, R201, R386) -/

/-- The groups of a saved team that have a thread. -/
def SavedTeam.groups (v : SavedTeam) : List Nat :=
  (List.range v.team.ngrp).filter fun g => v.threads.any fun t => t.grp == g

/-- The team finds its former slots, room for its registers and its scratch units on a core (R46, R331). -/
def State.restoreFit (s : State) (v : SavedTeam) (core : Nat) : Option (List (Nat × Nat)) :=
  let ts := s.coreThreads core
  let slots := v.groups.map fun g => (v.team.slots[g]?).getD (0, 0)
  let alloc := v.threads.foldl (fun n t => max n t.alloc) 0
  if coreExists core && s.corePart core == some (s.vdPart v.dev) &&
      (match v.team.fifoMark with
       | none => true
       | some c => c == core) &&
      decide ((s.teams.filter fun m => m.core == core).length ≤ 15) &&
      (slots.all fun e => slotFree ts e.1 e.2) &&
      ((List.range 4).all fun slice => regRoom ts slice ((slots.filter fun e => e.1 == slice).length * alloc)) then
    spread v.team.scr none (s.freeUnits core)
  else none

/-- The core and the units that a saved team takes (R331). -/
def State.restorePlace (s : State) (v : SavedTeam) : Option (Nat × List (Nat × Nat)) :=
  (List.range 512).findSome? fun core => (s.restoreFit v core).map fun units => (core, units)

/-- A block holds a value other than zero in a reserved field: its offset, its bytes, and its reserved bits. -/
def reservedSet (fields : List (Nat × Nat × Nat)) (b : List Byte) : Bool :=
  fields.any fun f => field b f.1 f.2.1 &&& f.2.2 != 0

/-- The bits of an 8-byte field that a 56-bit address leaves unused. -/
def aboveVa : Nat := 0xFF00000000000000

/-- The reserved fields of a thread block (R385). -/
def threadReserved : List (Nat × Nat × Nat) :=
  ([0x000, 0x008, 0x058, 0x0A0, 0x0C0, 0x0E0, 0x1A8, 0x1C8, 0x1D0].map fun o => (o, 8, aboveVa)) ++
  ([0x028, 0x040, 0x130, 0x148].flatMap fun o => [(o, 8, aboveVa), (o + 8, 8, aboveVa), (o + 16, 8, 0xFFFFFFFF00000000)]) ++
  ((List.range 8).flatMap fun k => [(0x060 + 8 * k, 8, aboveVa), (0x160 + 8 * k, 8, aboveVa)]) ++
  ([0x0A0, 0x0C0].flatMap fun o => [(o + 16, 4, 0xFFFFFC00), (o + 24, 4, 0xFFFFFF00), (o + 28, 4, 0xFFFFF000)]) ++
  ((List.range 12).map fun k => (0x018 + k, 1, 0xC0)) ++
  [(0x010, 4, 0xFFFFFF00), (0x014, 4, 0xFFFFC020), (0x024, 4, 0xFFFE0000), (0x0E8, 4, 0xFF800000), (0x0EC, 4, 0xFFFFFF01),
    (0x1A0, 4, 0xFFFFFFF0), (0x1B0, 4, 0xFFFFF000), (0x1C4, 4, 0xFFFFF000)]

/-- A reserved field of a thread block in memory is not zero, or a depth is above 8 (R385, R386); a retry count has
no value above 7. -/
def threadBlockBad (b : List Byte) : Bool :=
  reservedSet threadReserved b || !zeroBytes b 0x1D8 0x200 || decide (8 < bits (field b 0x24 4) 13 10 ∨ 8 < field b 0x1A0 4)

/-- The reserved fields of a team block (R461). -/
def teamReserved : List (Nat × Nat × Nat) :=
  ((List.range 16).flatMap fun n =>
    [(4 * n, 4, 0x7E000000), (0x48 + 16 * n, 4, 0xFFFFFCC0), (0x4C + 16 * n, 4, 0xFFFFFFFF), (0x140 + 8 * n, 8, aboveVa)]) ++
  ((List.range 8).flatMap fun n => [(0x1C0 + 4 * n, 4, 0xFF000000), (0x280 + 4 * n, 4, 0xFFFFFE00)]) ++
  ((List.range 64).map fun g => (0x840 + g, 1, 0x30)) ++
  [(0x1E0, 8, aboveVa), (0x1F0, 4, 0xFFFFFFF0), (0x1F4, 4, 0xFFFFFFFE), (0x1F8, 4, 0xFFFFFFFE), (0x1FC, 4, 0x7FFFFE00),
    (0x808, 4, 0x7FFFFFFF), (0x80C, 4, 0xFFFFC0F0), (0x81C, 4, 0xFE00FE00)]

/-- A reserved field of a team block in memory is not zero (R461). -/
def teamBlockBad (b : List Byte) : Bool :=
  reservedSet teamReserved b ||
    !(zeroBytes b 0x208 0x240 && zeroBytes b 0x2A0 0x400 && zeroBytes b 0x820 0x840 && zeroBytes b 0x880 0x1000)

/-- A save in memory holds what a restore refuses (R386). -/
def State.saveBad (s : State) (v : SavedTeam) : Bool :=
  let a := s.regField (vdOff v.dev 0x50) 49 0 + v.off
  teamBlockBad (s.pocRead a 4096) ||
    (v.threads.foldl (fun (acc : Bool × Nat) t =>
      (acc.1 || threadBlockBad (s.pocRead acc.2 512), acc.2 + 512 + 4 * t.alloc)) (false, a + v.team.threadOff)).1

/-- A saved team freezes where it lies: its save takes the frozen mark, and its record is posted (R379, R461). -/
def State.freezeSaved (s : State) (v : SavedTeam) (payload : List Byte) : State :=
  let saved := s.saved.map fun x => if x.team.id == v.team.id && x.dev == v.dev then { x with frozen := true } else x
  let s := { s with saved := saved }
  let a := s.regField (vdOff v.dev 0x50) 49 0 + v.off
  let s := s.pocWrite (a + 0x808) (toBytes 4 (2 ^ 31))
  (s.post v.dev true 0x09 0 0x0803 payload).endFrozen v.team v.dev

/-- A refused save: the team freezes with REASON 2 (R379, R386). -/
def State.refuseSave (s : State) (v : SavedTeam) : State :=
  let t := v.threads.head?
  let pc := (t.map fun t => t.pc.toNat).getD 0
  let group := (t.map fun t => groupOf (v.team, t)).getD 0
  s.freezeSaved v (frozenPayload pc 0 2 v.team.core group)

/-- A restored thread whose withdrawn operations take the numbers from `first` on: those issued since its RGN.B, and
its failures there, stay those of its region (R383, R462). -/
def Thread.renumbered (t : Thread) (first : Nat) (again : List Op) : Thread :=
  match t.region with
  | none => t
  | some r =>
    let n := first + (again.filter fun o => decide (o.id < r.firstOp)).length
    { t with
      region := some { r with firstOp := n }
      fails := t.fails.map fun f => if r.firstOp ≤ f.op then { f with op := n } else f }

/-- The threads of a save whose restore restarts their region (R229). -/
def SavedTeam.restarts (v : SavedTeam) : List Thread :=
  v.threads.filter fun t => t.region.any fun r => r.restarting && t.pc == r.cp.rgn

/-- Before a team of a device comes back on a core, the acquire of R291 is performed there, for the token's moves to its
groups too (R231, R283), and the layout caches that it reads hold no record from before its TLFENCEs elsewhere (R292). -/
def MemSys.arrive (m : MemSys) (core dev : Nat) : MemSys :=
  let m := m.acquire core dev .dev
  { m with layout := m.layout.filter fun e =>
      !(e.dev == dev && (e.core == some core || (e.core.isNone && e.die == coreDie core))) }

/-- A team comes back on a core (R291, R339, R386): its state reloaded, its withdrawn operations re-submitted, and the
restarts of regions that it performs counted (R229, R247). -/
def State.restoreTeam (s : State) (v : SavedTeam) (core : Nat) (units : List (Nat × Nat)) : State :=
  let m := { v.team with core := core, units := units, order := s.nextId }.count 0x0B v.restarts.length
  let again := sortBy (fun a b => decide (a.id ≤ b.id))
    ((v.threads.flatMap fun t => t.withdrawn).filter fun o => o.kind.withdrawable)
  let s := { s with
    teams := s.teams ++ [m]
    threads := s.threads ++ v.threads.map fun (t : Thread) => (t.restored s.tick).renumbered (s.nextId + 1) again
    ops := s.ops ++ again.zipIdx.map fun (e : Op × Nat) => { e.1 with id := s.nextId + 1 + e.2, due := s.tick + s.delay }
    nextId := s.nextId + 1 + again.length
    saved := s.saved.filter fun x => !(x.team.id == v.team.id && x.dev == v.dev) }
  let s := s.setMs (s.ms.arrive core v.dev)
  let s := match s.launch? m.launch with
    | none => s
    | some l => s.setLaunch { l with cores := if core ∈ l.cores then l.cores else core :: l.cores }
  (s.linkSaves v.dev).fifoCheck

/-- A placement of a higher priority takes the room that its partition's cores have, or that is being freed there: a
saved team waits for it (R338). -/
def State.placeFirst (s : State) (v : SavedTeam) : Bool :=
  s.front.placements.any fun p =>
    match s.launch? p.launch with
    | none => false
    | some l =>
      s.vdPart l.dev == s.vdPart v.dev && decide (s.teamPrio v.team < l.prio) && s.served l.dev &&
        !s.restoreFirst l && ((s.without s.leaving).placementFit l p).isSome

/-- A saved team may be restored now: its device is ACTIVE, or it wakes and no other wake goes before it (R339, R409),
and no placement goes first. -/
def State.restorable (s : State) (v : SavedTeam) : Bool :=
  !v.frozen && decide (s.vdState v.dev = 1 ∨ s.vdState v.dev = 4) && !s.wakeAhead v.dev && !s.placeFirst v

/-- Where a saved team may be restored now: a core that a CARVE is changing performs that first (R255). -/
def State.restoreNow (s : State) (v : SavedTeam) : Option (Nat × List (Nat × Nat)) :=
  (s.restorePlace v).filter fun e => !s.carving e.1

/-- TEAM_RESTORE (R46, R201, R386). -/
def execTeamRestore (team : Nat) (s : State) : Host.Outcome State Fault Refusal :=
  match s.saved.find? fun v => v.team.id == team with
  | none => .next s
  | some v =>
    if s.restorable v then
      match s.restoreNow v with
      | none => .next s
      | some (core, units) => .next (if s.saveBad v then s.refuseSave v else s.restoreTeam v core units)
    else .next s

/-! ## The decision to pre-empt (R338, R409) -/

/-- The teams of a partition that may be pre-empted for a priority, in the order in which they are. -/
def State.victims (s : State) (part prio : Nat) : List Team :=
  sortBy s.victimBefore (s.teams.filter fun m =>
    m.phase == .running && s.teamPart m == part && decide (s.teamPrio m < prio))

/-- The shortest prefix of the victims whose room, with the room that is being freed, is enough; none when
that of all of them is not. -/
def State.enough (s : State) (fits : State → Bool) (gone : List Nat) : List Team → Option (List Nat)
  | [] => none
  | m :: ms =>
    if fits (s.without (m.id :: gone)) then some [m.id]
    else (s.enough fits (m.id :: gone) ms).map fun ids => m.id :: ids

/-- The teams that are pre-empted now for a cluster that waits for placement, or for a team that waits to be
restored; none when nothing is pre-empted (R338, R409). -/
def State.preempted (s : State) (id : Nat) : Option (List Nat) :=
  match s.front.placements.find? fun p => p.id == id with
  | some p =>
    (match s.launch? p.launch with
     | none => none
     | some l =>
       let fits := fun s : State => (s.placementFit l p).isSome
       if !s.served l.dev || s.restoreFirst l || fits (s.without s.leaving) then none
       else s.enough fits s.leaving (s.victims (s.vdPart l.dev) l.prio))
  | none =>
    match s.saved.find? fun v => v.team.id == id with
    | none => none
    | some v =>
      let fits := fun s : State => (s.restorePlace v).isSome
      if !s.restorable v || fits (s.without s.leaving) then none
      else s.enough fits s.leaving (s.victims (s.vdPart v.dev) (s.teamPrio v.team))

/-- PREEMPTION (R338, R339): the chosen teams stop issuing. -/
def execPreemption (pl : Nat) (s : State) : Host.Outcome State Fault Refusal :=
  match s.preempted pl with
  | none => .next s
  | some ids =>
    .next { s with teams := s.teams.map fun m => if ids.contains m.id then { m with phase := .preempting } else m }

end Sys2Proof.Machine
end

