-- ==== Sys2Proof/Machine/Engines.lean ====
section
/-! DEFINITION. The tile copy engines (R355 to R359), the queue copy engine (R361 to R364), QPUT (R235), the
binning unit (R239, R365, R366) and CARVE (R240, R253 to R255). -/

namespace Sys2Proof.Machine

/-! ## Copying between keys -/

/-- The bytes at a key that an engine reads for a level. -/
def State.keyRead (s : State) (dev : Nat) (level : Level) (key n : Nat) : List Byte :=
  if isMgmt key then toBytes n (s.mgmtBytes (some dev) level (key - mgmtBase) n) else s.pocRead key n

/-- Writes bytes at a key for an engine. -/
def State.keyWrite (s : State) (dev : Nat) (level : Level) (key : Nat) (l : List Byte) : State :=
  if isMgmt key then s.mgmtStore (.vf dev) level (key - mgmtBase) l.length (ofBytes l) else s.pocWrite key l

/-- Poisons the granules that n bytes at a key cover (R249). -/
def State.poisonKey (s : State) (key n : Nat) : State :=
  let gs := (List.range ((n + 15) / 16)).map fun i => key / 16 + i
  { s with ms := { s.ms with poison := gs ++ s.ms.poison.filter fun g => !gs.contains g } }

/-- Poisons the granules that n bytes of a team's scratch cover. -/
def Team.poisonScr (tm : Team) (off n : Nat) : Team :=
  let gs := (List.range ((n + 15) / 16)).map fun i => off / 16 + i
  { tm with scrPoison := gs ++ tm.scrPoison.filter fun g => !gs.contains g }

/-- Sets every granule of n bytes full. -/
def Team.fillRange (tm : Team) (off n : Nat) : Team :=
  (List.range (n / 16)).foldl (fun tm i => tm.setFull (off + 16 * i)) tm

/-! ## Tile copies -/

/-- A tile copy by its name. -/
def State.tcopy? (s : State) (id : Nat) : Option TileCopy := s.eng.tcopies.find? fun k => k.id == id

/-- Replaces a tile copy. -/
def State.setCopy (s : State) (k : TileCopy) : State :=
  { s with eng := { s.eng with tcopies := replaceBy (fun x => x.id == k.id) k s.eng.tcopies } }

/-- TCOPY_ACCEPT (R355): the first copy of its core that waits takes a place, its flags fall, and its thread
goes on. -/
def execTcopyAccept (op : Nat) (s : State) : Host.Outcome State Fault Refusal :=
  match s.tcopy? op, s.op? op with
  | some k, some o =>
    let first := (s.copiesOf k.core).find? fun x => !x.accepted
    if k.accepted ∨ (first.map fun x => x.id) ≠ some k.id ∨ !s.copyRoom k.core then .next s
    else
      let s := (s.setCopy { k with accepted := true }).endOp o
      match s.ctx? k.th with
      | none => .next s
      | some c =>
        match c.t.wait with
        | .accept i words => if i = op then .next (s.resume c.tm words c.t) else .next s
        | _ => .next s
  | _, _ => .next s

/-- What the translation of one segment of a copy gives: its key, or the REASON of R360. -/
def State.segmentKey (s : State) (k : TileCopy) (va : Nat) : Except Nat Nat :=
  match s.walk k.dev va ⟨if k.out then .write else .read, decide (k.tid ≠ 0), k.level⟩ with
  | .error f => .error f.reason
  | .ok x => .ok x.key

/-- The first 16-byte unit of a segment that the copy reads with an uncorrectable error, by its offset (R359). -/
def State.segmentBad (s : State) (k : TileCopy) (key soff n : Nat) : Option Nat :=
  ((List.range (n / 16)).find? fun i =>
    if k.out then
      (match s.team? k.team with
       | none => false
       | some tm => tm.scrBad (soff + 16 * i) 16)
    else s.ms.poisoned (key + 16 * i) 16).map fun i => 16 * i

/-- Moves one segment into scratch (R288, R358, R359). -/
def State.segmentIn (s : State) (k : TileCopy) (key soff n : Nat) : State :=
  (List.range (n / 16)).foldl (fun s i =>
    let l := s.keyRead k.dev k.level (key + 16 * i) 16
    let bad := s.ms.poisoned (key + 16 * i) 16
    s.modTeam k.team fun tm =>
      let tm := (tm.scrWrite (soff + 16 * i) l).setFull (soff + 16 * i)
      if bad then tm.poisonScr (soff + 16 * i) 16 else tm) s

/-- Moves one segment out of scratch (R288, R359). -/
def State.segmentOut (s : State) (k : TileCopy) (key soff n : Nat) : State :=
  match s.team? k.team with
  | none => s
  | some tm =>
    (List.range (n / 16)).foldl (fun s i =>
      let s := s.keyWrite k.dev k.level (key + 16 * i) (tm.scrRead (soff + 16 * i) 16)
      if tm.scrBad (soff + 16 * i) 16 then s.poisonKey (key + 16 * i) 16 else s) s

/-- Moves one segment of a copy, after what R288 does to the issuing core's L1 for it. -/
def State.moveSegment (s : State) (k : TileCopy) (key soff n : Nat) : State :=
  let s := s.homeUse (s.vdWays k.dev) .normal key n
  let s := match s.team? k.team with
    | none => s
    | some m => s.spendLines m.launch key n
  if k.out then s.segmentOut k key soff n else s.segmentIn k key soff n

/-- What a transfer has met so far: the byte offset that it has reached, the fault that ended it, and the first
uncorrectable error, each with its address, REASON and byte offset (R359, R360). -/
structure Transfer where
  off : Nat
  fault : Option (Nat × Nat × Nat)
  data : Option (Nat × Nat × Nat)
  deriving DecidableEq, Repr

/-- The segments of a copy, moved one after another until one faults (R357, R359).  A write that fails as a pod-remote
access may have been performed (R391). -/
def State.moveSegments (s : State) (k : TileCopy) : State × Transfer :=
  k.segments.foldl (fun (acc : State × Transfer) e =>
    match acc with
    | (s, ⟨off, some f, data⟩) => (s, ⟨off, some f, data⟩)
    | (s, ⟨off, none, data⟩) =>
      match s.segmentKey k e.1 with
      | .error reason => (s, ⟨off, some (e.1, reason, off), data⟩)
      | .ok key =>
        let s := if k.out then s.engineClear k.core key e.2.2 else s.engineSync k.core key e.2.2
        let met := data.or ((s.segmentBad k key e.2.1 e.2.2).map fun i => (e.1 + i, 6, off + i))
        if s.requestFails key then
          (if k.out && s.failedDone key then s.moveSegment k key e.2.1 e.2.2 else s,
            ⟨off, some (e.1, 8, off), if k.out then met else data⟩)
        else (s.moveSegment k key e.2.1 e.2.2, ⟨off + e.2.2, none, met⟩)) (s, ⟨0, none, none⟩)

/-- Posts the faults of a transfer (R359, R360). -/
def State.postFaults (s : State) (dev engine source : Nat) (r : Transfer) : State :=
  (r.data.toList ++ r.fault.toList).foldl (fun s f => s.engineFault dev f.1 engine f.2.1 f.2.2 source) s

/-- The copy's fork edge orders an earlier access before it, or the fabric holds a request of it (R287, R392,
R401). -/
def State.copyWaits (s : State) (k : TileCopy) : Bool :=
  (s.ops.any fun x => x.th == k.th && decide (x.id < k.op) && x.kind.isAccess) || s.backHeld k.core k.dev ||
  k.segments.any fun e =>
    match s.segmentKey k e.1 with
    | .ok key => s.engineHeld k.dev key
    | .error _ => false

/-- TCOPY_COMPLETE (R288, R289, R357 to R360): the copy moves its bytes, and makes its completion arrival
whatever happened. -/
def execTcopyComplete (copy : Nat) (s : State) : Host.Outcome State Fault Refusal :=
  match s.tcopy? copy with
  | none => .next s
  | some k =>
    if !k.accepted || s.copyWaits k then .next s
    else
      let r := s.moveSegments k
      let s := r.1.postFaults k.dev 0 (0x700 + 8 * coreDie k.core) r.2
      let s := { s with eng := { s.eng with tcopies := s.eng.tcopies.filter fun x => x.id != copy } }
      .next ((s.engineArrive k.team k.br).teamCheck k.team)

/-! ## Queue copies (R361 to R364) -/

/-- COPY (R361, R362): the copy is handed to the engine, and its slot retires at once. -/
def execCopy (id : Nat) (s : State) : Host.Outcome State Fault Refusal :=
  s.onPacket id (· == 0x03) fun q l s =>
    let src := field l 8 8
    let dst := field l 16 8
    let len := field l 24 4
    let bobj := field l 32 8
    if flagsBad l || !zeroBytes l 4 8 || !zeroBytes l 28 32 || !zeroBytes l 40 56 ||
        decide (src % 16 ≠ 0 ∨ dst % 16 ≠ 0 ∨ len % 16 ≠ 0 ∨ bobj % 16 ≠ 0) ||
        (decide (src < dst + len) && decide (dst < src + len)) then s.finish q (pktDone l) 0 2
    else
      let k : QueueCopy :=
        { id := s.nextId, queue := q.id, dev := q.dev, src := src, dst := dst, len := len, bobj := bobj, done := pktDone l }
      ({ s with eng := { s.eng with qcopies := s.eng.qcopies ++ [k] }, nextId := s.nextId + 1 }).retire q.id

/-- The key of a 16-byte unit that a queue's device names, or the REASON of R360. -/
def State.unitKey (s : State) (dev va : Nat) (kind : XKind) : Except Nat Nat :=
  if dev = 1024 then (if physMem va 16 then .ok va else .error 4)
  else
    match s.walk dev va ⟨kind, false, .s⟩ with
    | .error f => .error f.reason
    | .ok x => .ok x.key

/-- Writes one 16-byte unit of a copy at its key, with its poison (R359). -/
def State.moveUnit (s : State) (k : QueueCopy) (a b : Nat) : State :=
  let ways := s.vdWays k.dev
  let s' := ((s.homeUse ways .normal a 16).homeUse ways .normal b 16).keyWrite k.dev .s b (s.keyRead k.dev .s a 16)
  if s.ms.poisoned a 16 then s'.poisonKey b 16 else s'

/-- Copies one 16-byte unit (R359, R362).  A write that fails as a pod-remote access may have been performed
(R391). -/
def State.copyUnit (s : State) (k : QueueCopy) (i : Nat) (data : Option (Nat × Nat × Nat)) : State × Transfer :=
  let src := k.src + 16 * i
  let dst := k.dst + 16 * i
  match s.unitKey k.dev src .read with
  | .error r => (s, ⟨16 * i, some (src, r, 16 * i), data⟩)
  | .ok a =>
    if s.requestFails a then (s, ⟨16 * i, some (src, 8, 16 * i), data⟩)
    else
      let data := data.or (if s.ms.poisoned a 16 then some (src, 6, 16 * i) else none)
      match s.unitKey k.dev dst .write with
      | .error r => (s, ⟨16 * i, some (dst, r, 16 * i), data⟩)
      | .ok b =>
        if s.requestFails b then
          (if s.failedDone b then s.moveUnit k a b else s, ⟨16 * i, some (dst, 8, 16 * i), data⟩)
        else (s.moveUnit k a b, ⟨16 * i + 16, none, data⟩)

/-- Copies the units of a copy until one faults. -/
def State.copyUnits (s : State) (k : QueueCopy) : State × Transfer :=
  (List.range (k.len / 16)).foldl (fun acc i =>
    match acc with
    | (s, ⟨off, some f, data⟩) => (s, ⟨off, some f, data⟩)
    | (s, ⟨_, none, data⟩) => s.copyUnit k i data) (s, ⟨0, none, none⟩)

/-- The value of a barrier object after an arrival (R363, R364); none when it cannot take one. -/
def objectArrive (o : Nat) : Option Nat :=
  let arrived := bits o 23 12
  let expect := bits o 11 0
  if !bit o 31 ∨ bits o 63 35 ≠ 0 ∨ 6 ≤ bits o 34 32 ∨ bits o 30 25 ≠ 0 ∨ expect ≤ arrived then none
  else if arrived + 1 = expect then some (if bit o 24 then o - arrived * 4096 - 2 ^ 24 else o - arrived * 4096 + 2 ^ 24)
  else some (o + 4096)

/-- An engine's arrival on a memory-resident barrier object (R364). -/
def State.arriveObject (s : State) (dev a source : Nat) : State :=
  if a = 0 then s
  else
    match s.qread dev a 16 with
    | .error e => s.engineFault dev e.va 1 e.reason 0 source
    | .ok l =>
      if field l 8 8 ≠ 0 then s.engineFault dev a 1 7 0 source
      else
        match objectArrive (field l 0 8) with
        | none => s.engineFault dev a 1 7 0 source
        | some v =>
          match s.qwriteF dev a (toBytes 8 v) with
          | (s, none) => s
          | (s, some e) => s.engineFault dev e.va 1 e.reason 0 source

/-- The copy is the first of its queue, and the fabric holds none of its requests (R362, R392, R401). -/
def State.copyReady (s : State) (k : QueueCopy) : Bool :=
  (match s.eng.qcopies.find? fun x => x.queue == k.queue with
   | some x => x.id == k.id
   | none => false) &&
  (List.range (k.len / 16)).all fun i =>
    let held := fun va kind =>
      match s.unitKey k.dev va kind with
      | .ok key => s.engineHeld k.dev key
      | .error _ => false
    !held (k.src + 16 * i) .read && !held (k.dst + 16 * i) .write && !(k.bobj != 0 && held k.bobj .write)

/-- The completion record of a copy, with its DETAIL and status (R322); one that cannot be written posts a record of its
own, at offset 0 of the copy (R360, log entry 98). -/
def State.copyRecord (s : State) (k : QueueCopy) (detail status : Nat) : State :=
  if k.done = 0 then s
  else
    match s.qwriteAs (some (1, 0, 0x800)) k.dev k.done (recordBytes s.tick detail 0 status) with
    | (s, none) => s
    | (s, some e) => s.engineFault k.dev e.va 1 e.reason 0 0x800

/-- QUEUE_COPY_COMPLETE (R362): the bytes move, the engine arrives on BOBJ, and the record is written. -/
def execQueueCopyComplete (copy : Nat) (s : State) : Host.Outcome State Fault Refusal :=
  match s.eng.qcopies.find? fun k => k.id == copy with
  | none => .next s
  | some k =>
    if !s.copyReady k then .next s
    else
      let r := s.copyUnits k
      let s := { r.1 with eng := { r.1.eng with qcopies := r.1.eng.qcopies.filter fun x => x.id != copy } }
      let s := s.arriveObject k.dev k.bobj 0x800
      let s := match r.2.fault with
        | none => s.copyRecord k 0 0
        | some (_, reason, off) => s.copyRecord k off (if reason = 8 then 14 else 9)
      .next (s.postFaults k.dev 1 0x800 r.2)

/-! ## QPUT (R235) -/

/-- The source number of the thread that issued a QPUT (R430, log entry 22). -/
def Ctx.source (c : Ctx) : Nat := sliceSource c.tm.core c.t.slice

/-- A QPUT ends at an access that failed. -/
def State.qputFail (s : State) (c : Ctx) (o : Op) (e : AFault) : State :=
  (s.engineFault c.l.dev e.va 4 e.reason 0 c.source).endOp o

/-- The fetch-and-add of QPUT on the write index. -/
def State.qputClaim (s : State) (c : Ctx) (o : Op) (cb : Nat) (packet : List Byte) : State :=
  match s.eread c.tm.core c.l.dev cb 8 o.level with
  | (s, .error e) => s.qputFail c o e
  | (s, .ok l) =>
    let i := ofBytes l
    match s.ewrite c.tm.core c.l.dev cb (toBytes 8 (i + 1)) o.level with
    | (s, some e) => s.qputFail c o e
    | (s, none) => { s with ops := replaceBy (fun x => x.id == o.id) { o with kind := .qput cb packet (some i) } s.ops }

/-- The write of the claimed slot, its sequence field and the kick, each ending the command when it fails. -/
def State.qputWrite (s : State) (c : Ctx) (o : Op) (packet : List Byte) (i slot kick : Nat) : State :=
  let w := fun (s : State) a l => s.ewrite c.tm.core c.l.dev a l o.level
  match w (s.releaseAt c .sys) slot (packet.take 2) with
  | (s, some e) => s.qputFail c o e
  | (s, none) =>
    match w s (slot + 4) (packet.drop 4) with
    | (s, some e) => s.qputFail c o e
    | (s, none) =>
      match w s (slot + 2) (toBytes 2 i) with
      | (s, some e) => s.qputFail c o e
      | (s, none) =>
        match w s kick (toBytes 4 (i + 1)) with
        | (s, some e) => s.qputFail c o e
        | (s, none) => s.endOp o

/-- The second part of QPUT: it waits for room in the ring, then writes. -/
def State.qputPut (s : State) (c : Ctx) (o : Op) (cb : Nat) (packet : List Byte) (i : Nat) : State :=
  match s.eread c.tm.core c.l.dev cb 64 o.level with
  | (s, .error e) => s.qputFail c o e
  | (s, .ok b) =>
    let size := 2 ^ (field b 24 8 % 256)
    if field b 8 8 + size ≤ i then s
    else s.qputWrite c o packet i (field b 16 8 + 64 * (i % size)) (field b 32 8)

/-- A QPUT can take its next part: its fork edge is met, no lower lane of its group is to claim a slot before it
(R218), the ring has room for a claimed slot, and nothing holds its requests or its release at the source (R392,
R401). -/
def State.qputReady (s : State) (c : Ctx) (o : Op) : Bool :=
  let held := fun va n kind => s.vheld c.l.dev va n kind o.level
  match o.kind with
  | .qput cb _ none => !s.forkWaits o && !s.laneAhead o && !held cb 64 .write
  | .qput cb _ (some i) =>
    !held cb 64 .read && !s.backWaits o.th &&
    (match (s.eread c.tm.core c.l.dev cb 64 o.level).2 with
     | .error _ => true
     | .ok b =>
       let size := 2 ^ (field b 24 8 % 256)
       decide (i < field b 8 8 + size) && !held (field b 16 8 + 64 * (i % size)) 64 .write && !held (field b 32 8) 4 .write)
  | _ => false

/-- QPUT_SLOT_WRITE (R235). -/
def execQputSlotWrite (op : Nat) (s : State) : Host.Outcome State Fault Refusal :=
  match s.op? op with
  | none => .next s
  | some o =>
    match s.ctx? o.th with
    | none => .next s
    | some c =>
      if !s.qputReady c o then .next s
      else
        match o.kind with
        | .qput cb packet none => .next (s.qputClaim c o cb packet)
        | .qput cb packet (some i) => .next (s.qputPut c o cb packet i)
        | _ => .next s

/-! ## Binning (R239, R365, R366) -/

/-- BIN_COMPLETE (R239): DST takes the prior count. -/
def execBinComplete (op : Nat) (s : State) : Host.Outcome State Fault Refusal :=
  match s.op? op with
  | none => .next s
  | some o =>
    match o.kind with
    | .bin dst old => .next ((s.modThread o.th fun t => t.put dst old).endOp o)
    | _ => .next s

/-- An entry of a BINREL descriptor (R365). -/
structure BinEntry where
  slot : Nat
  qnum : Nat
  bin : Nat
  loff : Nat
  isize : Nat
  deriving DecidableEq, Repr

/-- The fields of an entry. -/
def binEntry (l : List Byte) : BinEntry :=
  { slot := field l 0 8, qnum := field l 8 2, bin := field l 10 1, loff := field l 11 1, isize := field l 12 4 }

/-- The checks of one entry and of its slot (R365, R366): the address and the REASON of a failure. -/
def State.entryFault (s : State) (dev desc : Nat) (level : Level) (e : BinEntry) : Option (Nat × Nat) :=
  match s.queueOf dev e.qnum with
  | none => some (desc, 7)
  | some q =>
    if e.slot % 64 ≠ 0 ∨ e.loff % 4 ≠ 0 ∨ e.loff < 4 ∨ 52 < e.loff then some (desc, 7)
    else
      match s.vread dev e.slot 2 level with
      | .error f => some (f.va, f.reason)
      | .ok l => if typeAllowed q (field l 0 1) && bit (field l 1 1) 2 then none else some (desc, 7)

/-- The entries of a descriptor, all of them checked; else the address, REASON and index of the first
failure. -/
def State.binEntries (s : State) (dev desc : Nat) (level : Level) : Except (Nat × Nat × Nat) (List BinEntry) :=
  if desc % 16 ≠ 0 then .error (desc, 7, 0)
  else
    match s.vread dev desc 16 level with
    | .error f => .error (f.va, f.reason, 0)
    | .ok h =>
      let n := field h 0 2
      if n = 0 ∨ 256 < n ∨ !zeroBytes h 2 16 then .error (desc, 7, 0)
      else
        (List.range n).foldl (fun acc i =>
          match acc with
          | .error e => .error e
          | .ok l =>
            match s.vread dev (desc + 16 + 16 * i) 16 level with
            | .error f => .error (f.va, f.reason, i)
            | .ok b =>
              match s.entryFault dev desc level (binEntry b) with
              | some (va, r) => .error (va, r, i)
              | none => .ok (l ++ [binEntry b])) (.ok [])

/-- The bytes that the binning unit reads of a descriptor and of the slots that it names are written back from the
issuing core's L1 first (R288). -/
def State.binSync (s : State) (core dev desc : Nat) (level : Level) : State :=
  let s := s.syncRange core dev desc 16 level
  match s.vread dev desc 16 level with
  | .error _ => s
  | .ok h =>
    (List.range (min (field h 0 2) 256)).foldl (fun s i =>
      let s := s.syncRange core dev (desc + 16 + 16 * i) 16 level
      match s.vread dev (desc + 16 + 16 * i) 16 level with
      | .error _ => s
      | .ok b => s.syncRange core dev (binEntry b).slot 64 level) s

/-- Releases one entry's packet (R319, R366): its length, its FLAGS with HELD clear, and a kick carrying
KMAX. -/
def State.releaseEntry (s : State) (c : Ctx) (level : Level) (e : BinEntry) (count i : Nat) : State :=
  let len := min (count * e.isize) 0xFFFFFFFF
  match s.ewrite c.tm.core c.l.dev (e.slot + e.loff) (toBytes 4 len) level with
  | (s, some f) => s.engineFault c.l.dev f.va 2 f.reason i 0x801
  | (s, none) =>
    match s.vread c.l.dev (e.slot + 1) 1 level with
    | .error f => s.engineFault c.l.dev f.va 2 f.reason i 0x801
    | .ok l =>
      match s.ewrite c.tm.core c.l.dev (e.slot + 1) (toBytes 1 (field l 0 1 &&& 0xFB)) level with
      | (s, some f) => s.engineFault c.l.dev f.va 2 f.reason i 0x801
      | (s, none) =>
        match s.queueOf c.l.dev e.qnum with
        | none => s
        | some q => s.kick c.l.dev e.qnum q.kmax.toNat

/-- A request of a BINREL is held at the source (R392, R401): for its descriptor, or for a slot that an entry
names. -/
def State.binHeld (s : State) (dev desc : Nat) (level : Level) : Bool :=
  s.vheld dev desc 16 .read level ||
    (match s.vread dev desc 16 level with
     | .error _ => false
     | .ok h =>
       (List.range (min (field h 0 2) 256)).any fun i =>
         s.vheld dev (desc + 16 + 16 * i) 16 .read level ||
           (match s.vread dev (desc + 16 + 16 * i) 16 level with
            | .error _ => false
            | .ok b => s.vheld dev (binEntry b).slot 64 .write level))

/-- BINREL_RELEASE (R239, R366). -/
def execBinrelRelease (op : Nat) (s : State) : Host.Outcome State Fault Refusal :=
  match s.op? op with
  | none => .next s
  | some o =>
    match o.kind, s.ctx? o.th with
    | .binrel desc, some c =>
      if s.forkWaits o ∨ s.laneAhead o ∨ s.binHeld c.l.dev desc o.level then .next s
      else
        let s := ((s.releaseAt c .dev).endOp o).binSync c.tm.core c.l.dev desc o.level
        match s.binEntries c.l.dev desc o.level with
        | .error (va, r, i) => .next (s.engineFault c.l.dev va 2 r i 0x801)
        | .ok entries =>
          let counts := entries.map fun e => (c.tm.bin e.bin).toNat
          let s := s.modTeam c.tm.id fun tm => entries.foldl (fun tm e => tm.setBin e.bin 0) tm
          .next ((entries.zip counts).zipIdx.foldl (fun s e => s.releaseEntry c o.level e.1.1 e.1.2 e.2) s)
    | _, _ => .next s

/-! ## CARVE (R240, R253, R254) -/

/-- A byte stands in a line of a bank of a core's L1 (R253). -/
def MemSys.inBank (m : MemSys) (core bank : Nat) (b : L1Byte) : Bool :=
  b.core == core && m.lines.any fun x => x.core == core && x.bank == bank && x.line == lineOf b.key

/-- Changes the mode of a bank (R253, R254): its lines leave with their dirty bytes written back, entries are
discarded, and operations that wait on a FIFO trap. -/
def State.carve (s : State) (dev core bank mode : Nat) : State :=
  let b := s.bank core bank
  if b.mode = modeOf mode then s
  else
    let mine := s.ms.inBank core bank
    let s := if b.mode = .cache then s.evictBack mine else s
    (s.setBank { core := core, num := bank, mode := modeOf mode, owner := if mode = 2 then dev else 0, fifo := []
                 draining := false }).fifoCheck

/-- A dirty byte of the bank waits for a plane or a quota (R392, R402). -/
def State.carveHeld (s : State) (core bank : Nat) : Bool :=
  s.ms.l1.any fun b => b.dirty && s.ms.inBank core bank b && s.engineHeld b.dev b.key

/-- A CARVE of the core that came before this one has not completed (R255). -/
def State.carveAhead (s : State) (o : Op) (core : Nat) : Bool :=
  s.ops.any fun x => decide (x.id < o.id) &&
    (match x.kind with
     | .carve _ c _ _ => c == core
     | _ => false)

/-- Firmware switches a bank on a virtual device's behalf, with the checks and status codes of CARVE, and 6 for a core
outside the device's partition (R240, R250); it does so when no CARVE of the core is under way and the bank's lines can
leave (R255). -/
def State.firmwareCarve (s : State) (dev core bank mode : Nat) : State :=
  if !s.masterRuns 0 ∨ s.carving core ∨ s.carveHeld core bank then s
  else
    let st := if s.vdExists dev ∧ s.corePart core = some (s.vdPart dev) then s.carveStatus dev core bank mode else 6
    (if st = 0 then s.carve dev core bank mode else s).send (.carved core bank st)

/-- CARVE_COMPLETE (R240, R250, R253 to R255). -/
def execCarveComplete (who : CarveBy) (s : State) : Host.Outcome State Fault Refusal :=
  match who with
  | .firmware dev core bank mode => .next (s.firmwareCarve dev core bank mode)
  | .insn op =>
  match s.op? op with
  | none => .next s
  | some o =>
    match o.kind, s.ctx? o.th with
    | .carve dst core bank mode, some c =>
      if s.carveAhead o core ∨ s.tick < o.due ∨ s.carveHeld core bank then .next s
      else
        let st := s.carveStatus c.l.dev core bank mode
        let s := if st = 0 then s.carve c.l.dev core bank mode else s
        .next (((s.modThread o.th fun t => t.put dst (BitVec.ofNat 32 st)).endOp o).carveStart core)
    | _, _ => .next s

end Sys2Proof.Machine
end

