-- ==== Sys2Proof/Machine/Collect.lean ====
section
/-! DEFINITION. The collective engine (R236, R366 to R374) and the replay of its steps (R437 to R439). -/

namespace Sys2Proof.Machine

/-! ## Stages at a member (R236, R368) -/

/-- A stage by its name. -/
def State.stage? (s : State) (id : Nat) : Option Stage := s.coll.stages.find? fun g => g.id == id

/-- Replaces the stages. -/
def State.setStages (s : State) (l : List Stage) : State := { s with coll := { s.coll with stages := l } }

/-- A contribution leaves its stage: the first COLL of its collective that waits is accepted, and its flags
fall (R368). -/
def State.dropStage (s : State) (g : Stage) : State :=
  let s := s.setStages (s.coll.stages.filter fun x => x.id != g.id)
  match s.coll.stages.find? fun x => !x.accepted && x.desc.job == g.desc.job && x.desc.cid == g.desc.cid with
  | none => s
  | some x =>
    let s := s.setStages (replaceBy (fun y => y.id == x.id) { x with accepted := true } s.coll.stages)
    let s := match s.op? x.op with
      | none => s
      | some o => s.endOp o
    s.acceptDesc x.desc

/-- The read of BUF may begin: the COLL is accepted, its fork edge is met (R287), and nothing holds the read at the
source (R392, R401). -/
def State.stageReady (s : State) (g : Stage) : Bool :=
  g.accepted && !g.read && !(s.ops.any fun x => x.th == g.th && decide (x.id < g.op) && x.kind.isAccess) &&
    !s.backHeld g.core g.desc.dev && !s.vheld g.desc.dev g.desc.buf (4 * g.desc.e) .read g.desc.level

/-- The contribution of a stage as it travels. -/
def Stage.message (g : Stage) : Contribution :=
  { job := g.desc.job, cid := g.desc.cid, q := g.desc.q, t := g.desc.t, d := g.desc.d, k := g.desc.k
    mode := g.desc.mode, member := g.desc.member, step := g.step, data := g.data }

/-- The root of a collective is a worker on this package, or was one: the root outlives it. -/
def State.rootHere (s : State) (d : CollDesc) : Bool :=
  (s.members d.job).contains d.root || (s.rootOf d.job d.cid).isSome

/-- COLL_CONTRIBUTION_READ (R236, R288, R289): BUF is read, the engine arrives on BR, and the contribution is
sent; a read that fails sends none. -/
def execCollContributionRead (stage : Nat) (s : State) : Host.Outcome State Fault Refusal :=
  match s.stage? stage with
  | none => .next s
  | some g =>
    if !s.stageReady g then .next s
    else
      let n := 4 * g.desc.e
      match s.eread g.core g.desc.dev g.desc.buf n g.desc.level with
      | (s, .error f) =>
        let s := (s.engineFault g.desc.dev f.va 3 f.reason g.desc.cid 0x802).engineArrive g.team g.br
        .next ((s.dropStage g).teamCheck g.team)
      | (s, .ok l) =>
        let data := (List.range g.desc.e).map fun i => BitVec.ofNat 32 (field l (4 * i) 4)
        let here := s.rootHere g.desc
        let g' := { g with data := data, read := true, sent := !here }
        let s := s.setStages (replaceBy (fun x => x.id == stage) g' s.coll.stages)
        let a := s.peerAddr g.desc.job g.desc.root
        let s := if here then s else s.sendTo g.desc.dev a.1 (.contribution a.1 a.2 g'.message)
        .next ((s.engineArrive g.team g.br).teamCheck g.team)

/-- CONTRIBUTION_ACK (R368): the root's engine has taken the contribution. -/
def execContributionAck (stage : Nat) (s : State) : Host.Outcome State Fault Refusal :=
  match s.stage? stage with
  | none => .next s
  | some g => if g.sent then .next (s.dropStage g) else .next s

/-- The contribution of a stage is held at the source (R402). -/
def State.unsent (s : State) (g : Stage) : Bool :=
  let a := s.peerAddr g.desc.job g.desc.root
  s.heldMsgs.any fun h => h.2.2 == .contribution a.1 a.2 g.message

/-- TRANSPORT_ABANDON (R368, R394): the contribution is never delivered, and leaves its stage. -/
def execTransportAbandon (stage : Nat) (s : State) : Host.Outcome State Fault Refusal :=
  match s.stage? stage with
  | none => .next s
  | some g => if g.sent ∧ !s.unsent g then .next (s.dropStage g) else .next s

/-! ## Combining (R371) -/

/-- The value of an element weighed by 2^-n, exactly. -/
def weighed (x : Word) (n : Nat) : FVal :=
  match fp32.decode x.toNat with
  | .fin neg m => .fin neg (m / 2 ^ n)
  | .inf neg => .inf neg
  | .nan q => .nan q

/-- A value divided by w / 2^45 and rounded to FP32. -/
def divided (v : FVal) (w : Nat) : Word :=
  match v with
  | .fin neg n => if n = 0 then BitVec.ofNat 32 (fp32.signed neg 0)
    else BitVec.ofNat 32 (fp32.roundMag rneEnv 0 neg (n * 2 ^ 45) (unit * w)).1
  | .inf _ | .nan _ => BitVec.ofNat 32 (fp32.round rneEnv 0 v).1

/-- The weight of a staleness in units of 2^-45: W sums these exactly. -/
def weightOf (k d : Nat) : Nat := 2 ^ (45 - k * d)

/-- Element i of the combination of some entries, in their order (R371). -/
def combineAt (desc : CollDesc) (entries : List Entry) (w i : Nat) : Word :=
  match entries with
  | [] => Config.noEntries i
  | e :: rest =>
    let x := fun e : Entry => weighed (e.data[i]?.getD 0) (desc.k * e.d)
    let first := BitVec.ofNat 32 (fp32.round rneEnv 0 (x e)).1
    let acc := rest.foldl (fun (acc : Word) e =>
      BitVec.ofNat 32 (fp32.add rneEnv 0 (fp32.decode acc.toNat) (x e)).1) first
    if desc.mode then acc else divided (fp32.decode acc.toNat) w

/-- The entries of a step in their order: ascending member, then ascending staleness. -/
def entryOrder (l : List Entry) : List Entry :=
  sortBy (fun a b => decide (a.member < b.member) || (a.member == b.member && decide (a.d ≤ b.d))) l

/-- CHECK of a result (R372). -/
def checkOf (l : List Word) : Word := l.zipIdx.foldl (fun v e => v ^^^ e.1.rotateLeft (e.2 % 32)) 0

/-- The result of a step that closes with some entries (R371, R372). -/
def Root.result (r : Root) (tick n cause : Nat) (entries : List Entry) : StepResult :=
  let l := entryOrder entries
  let w := l.foldl (fun v e => v + weightOf r.desc.k e.d) 0
  let data := (List.range r.desc.e).map (combineAt r.desc l w)
  { job := r.desc.job, cid := r.desc.cid, step := n, ctick := tick, cause := cause
    fresh := (l.filter fun e => e.d == 0).length
    wsum := if w = 0 then 0 else BitVec.ofNat 32 (fp32.roundMag rneEnv 0 false w (2 ^ 45)).1
    check := checkOf data, latedrop := r.latedrop, dups := r.dups
    entries := l.map fun e => (e.member, e.d), data := data }

/-! ## Closing a step (R369) -/

/-- Replaces a root. -/
def State.setRoot (s : State) (r : Root) : State :=
  { s with coll := { s.coll with
      roots := replaceBy (fun x => x.desc.job == r.desc.job && x.desc.cid == r.desc.cid) r s.coll.roots } }

/-- A root that has closed, or skipped to, step n: what belonged to that step is gone. -/
def Root.closed (r : Root) (n : Nat) : Root :=
  { r with
    high := n, opened := r.opened.filter fun e => decide (n < e.1), fresh := r.fresh.filter fun e => decide (n < e.step)
    late := [], latedrop := 0, dups := 0 }

/-- Sends a step's result to every member: to those of this package at once, and to the others in one message to
each package (R371, R373). -/
def State.sendResult (s : State) (dev : Nat) (r : StepResult) : State :=
  let s := (s.members r.job).foldl (fun s m => s.deliverResult m r) s
  s.tell dev r.job fun d e => .result d e r

/-- Fresh entries of a step. -/
def Root.freshOf (r : Root) (n : Nat) : List Entry := r.fresh.filter fun e => e.step == n

/-- The lowest open step with the tick at which it opened. -/
def Root.lowest (r : Root) : Option (Nat × Nat) :=
  r.opened.foldl (fun best e =>
    match best with
    | none => some e
    | some b => if e.1 < b.1 then some e else best) none

/-- The timer of a step has run (R369). -/
def Root.timerRun (r : Root) (tick opened : Nat) : Bool := decide (r.desc.t ≠ 0 ∧ opened + r.desc.t * 1024 ≤ tick)

/-- The step that closes now and its CAUSE, when steps close live (R369). -/
def Root.closeNow (r : Root) (tick : Nat) : Option (Nat × Nat) :=
  match r.lowest with
  | none => none
  | some (n, at') =>
    if r.desc.q ≤ (r.freshOf n).length then some (n, 0) else if r.timerRun tick at' then some (n, 1) else none

/-- Closes step n live; the steps before it that never opened are skipped, with what was held for them
(R369, R371). -/
def State.closeLive (s : State) (r : Root) (n cause : Nat) : State :=
  let r := if (n : Int) = r.high + 1 then r else { r with late := [], latedrop := 0 }
  let res := r.result s.tick n cause (r.freshOf n ++ r.late)
  (s.setRoot { r.closed n with stopped := false }).sendResult r.desc.dev res

/-! ## Replay (R374, R437 to R439) -/

/-- The root's device replays its collectives (R436). -/
def State.replays (s : State) (r : Root) : Bool := bit (s.reg (vdOff r.desc.dev 0x90)).toNat 0

/-- What the slot of the step that closes next holds: its entries and its CHECK, nothing while its STEP differs, or the
failure of its read (R437). -/
def State.slotRecord (s : State) (r : Root) : Except AFault (Option (List (Nat × Nat) × Nat)) :=
  let n := (r.high + 1).toNat
  let a := s.recordAt r.desc n
  if s.vheld r.desc.dev a (s.slotBytes r.desc) .read r.desc.level then .ok none
  else
  match s.vread r.desc.dev a 64 r.desc.level with
  | .error e => .error e
  | .ok h =>
    if field h 4 4 ≠ n then .ok none
    else
      let nent := bits (field h 16 8) 63 46
      match s.vread r.desc.dev (a + 64) (4 * min nent 131072) r.desc.level with
      | .error e => .error e
      | .ok l =>
        .ok (some ((List.range (min nent 131072)).map fun i => (bits (field l (4 * i) 4) 12 0, bits (field l (4 * i) 4) 19 16),
          field h 24 4))

/-- The supplied record of the step that closes next: its entries and its CHECK; none while the slot's STEP
differs (R437). -/
def State.supplied (s : State) (r : Root) : Option (List (Nat × Nat) × Nat) :=
  match s.slotRecord r with
  | .ok x => x
  | .error _ => none

/-- The failure of the root's read of its slot, once for each step (R360, log entry 98). -/
def State.slotFault (s : State) (r : Root) : Option AFault :=
  if !s.replays r || r.stopped || r.unread == some (r.high + 1).toNat then none
  else
    match s.slotRecord r with
    | .ok _ => none
    | .error e => some e

/-- The entry of the step that closes next that a name stands for, when it has arrived. -/
def Root.named (r : Root) (n : Nat) (x : Nat × Nat) : Option Entry :=
  if x.2 = 0 then (r.freshOf n).find? fun e => e.member == x.1
  else r.late.find? fun e => e.member == x.1 && e.d == x.2

/-- The root after step n has closed in replay with some names: a contribution that was not named is late for
the next step (R374). -/
def Root.closedReplay (r : Root) (n : Nat) (names : List (Nat × Nat)) : Root :=
  let left := (r.freshOf n ++ r.late).filter fun e => !names.contains (e.member, e.d)
  let next := left.map fun e => { e with d := e.d + 1 }
  let kept := next.filter fun e => decide (e.d ≤ r.desc.d)
  { r.closed n with late := kept, latedrop := (next.length - kept.length) }

/-- Counts a parting and posts its record (R436, R438, R439). -/
def State.parting (s : State) (r : Root) (n sub supplied replayed : Nat) : State :=
  let off := vdOff r.desc.dev 0x98
  let old := (s.reg off).toNat
  let parts := bits old 31 0
  let first := if parts = 0 then n else bits old 63 32
  let s := s.setReg off (BitVec.ofNat 64 (first * 2 ^ 32 + min (parts + 1) 0xFFFFFFFF))
  s.post r.desc.dev true 0x0D sub 0x802 (toBytes 4 r.desc.cid ++ toBytes 4 n ++ toBytes 4 supplied ++ toBytes 4 replayed)

/-- POLICY of replay: go on after a parting (R436). -/
def State.goesOn (s : State) (r : Root) : Bool := bit (s.reg (vdOff r.desc.dev 0x90)).toNat 1

/-- Closes the next step in replay with its named entries, all of which have arrived (R374, R437, R438). -/
def State.closeReplay (s : State) (r : Root) (names : List (Nat × Nat)) (check : Nat) : State :=
  let n := (r.high + 1).toNat
  if names = [] then s.setRoot { r.closedReplay n [] with dups := r.dups }
  else
    let res := r.result s.tick n 2 (names.filterMap (r.named n))
    let s := s.setRoot (r.closedReplay n names)
    if res.check.toNat = check then s.sendResult r.desc.dev res
    else
      let s := s.parting r n 1 check res.check.toNat
      if s.goesOn r then s.sendResult r.desc.dev res
      else
        let s := s.writeRecord r.desc res
        s.setRoot { r.closedReplay n names with stopped := true }

/-- What replay closes now: the names and the supplied CHECK of the next step. -/
def State.replayNow (s : State) (r : Root) : Option (List (Nat × Nat) × Nat) :=
  if r.stopped then none
  else
    match s.supplied r with
    | none => none
    | some (names, check) => if names.all fun x => (r.named (r.high + 1).toNat x).isSome then some (names, check) else none

/-! ## The root's steps -/

/-- Steps of the collective can still close: H has not reached 2^32 - 1 (R369). -/
def Root.runs (r : Root) : Bool := decide (r.high < 2 ^ 32 - 1)

/-- Closes one step of a collective, when one closes now. -/
def State.closeOne (s : State) (job cid : Nat) : Option State :=
  match s.rootOf job cid with
  | none => none
  | some r =>
    if !r.runs then none
    else if s.replays r then (s.replayNow r).map fun x => s.closeReplay r x.1 x.2
    else (r.closeNow s.tick).map fun x => s.closeLive r x.1 x.2

/-- Closes the steps that close now, at most a number of them. -/
def State.closeSteps (s : State) (job cid : Nat) : Nat → State
  | 0 => s
  | n + 1 =>
    match s.closeOne job cid with
    | none => s
    | some s => s.closeSteps job cid n

/-- The root takes a contribution: its member's engine is told (R368). -/
def State.acknowledge (s : State) (dev : Nat) (c : Contribution) : State :=
  match s.coll.stages.find? fun g =>
    g.read && !g.sent && g.desc.job == c.job && g.desc.cid == c.cid && g.desc.member == c.member && g.step == c.step with
  | some g => s.dropStage g
  | none =>
    let a := s.peerAddr c.job c.member
    s.sendTo dev a.1 (.ack a.1 a.2 c.job c.cid c.member c.step)

/-- A contribution agrees with the root's descriptor (R368). -/
def Root.agrees (r : Root) (c : Contribution) : Bool :=
  r.desc.q == c.q && r.desc.t == c.t && r.desc.d == c.d && r.desc.k == c.k && r.desc.mode == c.mode &&
    r.desc.e == c.data.length

/-- A saturating count of a record (R372). -/
def satCount (n : Nat) : Nat := min (n + 1) 0xFFFFFFFF

/-- The root counts, holds or drops a contribution that agrees (R369, R370). -/
def Root.take (r : Root) (tick : Nat) (c : Contribution) : Root :=
  if r.seen.contains (c.member, c.step) then { r with dups := satCount r.dups }
  else
    let r := { r with seen := (c.member, c.step) :: r.seen }
    if r.high < (c.step : Int) then
      { r with
        opened := if r.opened.any fun e => e.1 == c.step then r.opened else r.opened ++ [(c.step, tick)]
        fresh := r.fresh ++ [⟨c.member, c.step, 0, c.data, tick⟩] }
    else
      let d := (r.high + 1 - (c.step : Int)).toNat
      if d ≤ r.desc.d then { r with late := r.late ++ [⟨c.member, c.step, d, c.data, tick⟩] }
      else { r with latedrop := satCount r.latedrop }

/-- The root can take a contribution now (R368, R369): its own first COLL has been accepted, and the step is
at most H + 8. -/
def State.canTake (s : State) (c : Contribution) : Bool :=
  match s.rootOf c.job c.cid with
  | none => false
  | some r => decide ((c.step : Int) ≤ r.high + 8)

/-- CONTRIBUTION_ARRIVAL (R368 to R371, R374, R437, R438). -/
def execContributionArrival (c : Contribution) (s : State) : Host.Outcome State Fault Refusal :=
  match s.rootOf c.job c.cid with
  | none => .next s
  | some r =>
    if !s.canTake c then .next s
    else if !r.agrees c then
      let s := (s.setRoot { r with dups := satCount r.dups }).acknowledge r.desc.dev c
      .next (s.engineFault r.desc.dev r.desc.addr 3 7 c.cid 0x802)
    else
      let s := (s.setRoot (r.take s.tick c)).acknowledge r.desc.dev c
      .next (s.closeSteps c.job c.cid (r.opened.length + 2))

/-- The name of a collective: its job and its identifier in one number. -/
def collName (job cid : Nat) : Nat := job * 2 ^ 32 + cid

/-- Posts the failure of a root's read of its slot (R360, R437). -/
def State.noteUnread (s : State) (job cid : Nat) : State :=
  match s.rootOf job cid with
  | none => s
  | some r =>
    match s.slotFault r with
    | none => s
    | some e =>
      (s.setRoot { r with unread := some (r.high + 1).toNat }).engineFault r.desc.dev e.va 3 e.reason r.desc.cid 0x802

/-- STEP_TIMER (R369, R437): a step of a collective closes when its timer has run, or when the record that
replay waits for has been supplied; a record that cannot be read is reported. -/
def execStepTimer (coll : Nat) (s : State) : Host.Outcome State Fault Refusal :=
  match s.closeOne (coll / 2 ^ 32) (coll % 2 ^ 32) with
  | none => .next (s.noteUnread (coll / 2 ^ 32) (coll % 2 ^ 32))
  | some s => .next s

/-- When step n opened in replay: at the first arrival of a fresh contribution that its record names (R374, R437). -/
def Root.openedNamed (r : Root) (n : Nat) (names : List (Nat × Nat)) : Option Nat :=
  (((r.freshOf n).filter fun e => names.contains (e.member, 0)).map fun e => e.since).min?

/-- A named entry of the next step is missing (R437): its names and the supplied CHECK. -/
def State.missing (s : State) (r : Root) : Option (List (Nat × Nat) × Nat) :=
  let n := (r.high + 1).toNat
  if !s.replays r || r.stopped || !r.runs then none
  else
    match s.supplied r with
    | none => none
    | some (names, check) =>
      match r.openedNamed n names with
      | none => none
      | some at' => if r.timerRun s.tick at' && !(names.all fun x => (r.named n x).isSome) then some (names, check) else none

/-- REPLAY_MISSING (R437 to R439): a named entry has not arrived in time; the root stops, or goes on with the
entries that arrived. -/
def execReplayMissing (coll : Nat) (s : State) : Host.Outcome State Fault Refusal :=
  match s.rootOf (coll / 2 ^ 32) (coll % 2 ^ 32) with
  | none => .next s
  | some r =>
    match s.missing r with
    | none => .next s
    | some (names, check) =>
      let n := (r.high + 1).toNat
      let s := s.parting r n 2 check 0
      if s.goesOn r then
        let res := r.result s.tick n 2 (names.filterMap (r.named n))
        .next ((s.setRoot (r.closedReplay n names)).sendResult r.desc.dev res)
      else .next (s.setRoot { r with stopped := true })

end Sys2Proof.Machine
end

