-- ==== Sys2Proof/Machine/Eddy.lean ====
section
/-! DEFINITION. Moving threads to the Eddy cores and home (R342 to R354).  The decision to eject is in Ctl. -/

namespace Sys2Proof.Machine

/-- The thread has no operation outstanding; when its team stops, operations that are withdrawn do not count
(R346, R350, R352). -/
def State.quiet (s : State) (t : Thread) : Bool :=
  !(s.ops.any fun o => o.th == t.id && !(s.teamStops t && o.kind.withdrawable))

/-- A thread that leaves asks for the port now (R346, R347). -/
def State.asksPort (s : State) (t : Thread) : Bool := t.place.unasked && s.quiet t && !s.portAhead t

/-- The transfer of a thread to its Eddy context is complete (R346). -/
def State.handedOver (s : State) (t : Thread) : Bool :=
  match t.place with
  | .leaving _ _ ready => !t.place.unasked && decide (ready ≤ s.tick)
  | .home | .eddy _ _ | .recallWanted _ _ | .returning _ _ _ => false

/-- EJECT_HANDOVER (R346): a thread that has nothing outstanding asks for the port, and when its transfer is complete
it issues on its Eddy context. -/
def execEjectHandover (th : Nat) (s : State) : Host.Outcome State Fault Refusal :=
  match s.thread? th with
  | none => .next s
  | some t =>
    match t.place with
    | .leaving c x _ =>
      if s.asksPort t then .next (s.setThread (s.askPort t))
      else if s.handedOver t then .next (s.setThread { t with place := .eddy c x })
      else .next s
    | .home | .eddy _ _ | .recallWanted _ _ | .returning _ _ _ => .next s

/-- The context that a thread gives up now (R350, R352): it has reached a cause of recall, or its team stops
and its instruction's wait returns it to a boundary, and its operations have completed. -/
def State.recallNow (s : State) (t : Thread) : Option (Nat × Nat) :=
  match t.place with
  | .recallWanted c x => if s.quiet t then some (c, x) else none
  | .eddy c x => if s.teamStops t && s.quiet t && !s.chained t.id then some (c, x) else none
  | .home | .leaving _ _ _ | .returning _ _ _ => none

/-- RECALL (R350): the thread has stopped and drained, and asks for the port. -/
def execRecall (th : Nat) (s : State) : Host.Outcome State Fault Refusal :=
  match s.thread? th with
  | none => .next s
  | some t =>
    match s.recallNow t with
    | none => .next s
    | some (c, x) => .next (s.setThread { t with place := .returning c x (s.portDone t) })

/-- RECALL_COMPLETE (R344, R350): the context is free, and the thread stands at home with its ageing counter
at 0. -/
def execRecallComplete (th : Nat) (s : State) : Host.Outcome State Fault Refusal :=
  match s.thread? th with
  | none => .next s
  | some t =>
    match t.place with
    | .returning _ _ ready =>
      if ready ≤ s.tick then
        .next (((s.countEddy (s.threadDie t) fun c => { c with recalls := c.recalls + 1 }).countPm t.team 0x0A 1).setThread
          { t with place := .home, age := 0, ready := s.tick + 1, readyHalf := false })
      else .next s
    | .home | .leaving _ _ _ | .eddy _ _ | .recallWanted _ _ => .next s

end Sys2Proof.Machine
end

