-- ==== Sys2Proof/Machine/Lull.lean ====
section
/-! DEFINITION. Lull (R406 to R411): idleness, collapse, wake, and the admission of virtual devices.  Lull
requests and wake writes are in Doorbell. -/

namespace Sys2Proof.Machine

/-! ## Idleness (R406) -/

/-- The launch belongs to the device. -/
def State.isOf (s : State) (vd launch : Nat) : Bool := s.launches.any fun l => l.id == launch && l.dev == vd

/-- An engine operation of the device is outstanding. -/
def State.engineBusy (s : State) (vd : Nat) : Bool :=
  s.eng.tcopies.any (fun c => c.dev == vd) || s.eng.qcopies.any (fun c => c.dev == vd) ||
    s.coll.stages.any (fun g => g.desc.dev == vd && !g.sent)

/-- The device is idle (R406). -/
def State.idle (s : State) (vd : Nat) : Bool :=
  !(s.teams.any fun m => s.isOf vd m.launch) && !(s.saved.any fun v => v.dev == vd) &&
    !(s.front.queues.any fun q => q.dev == vd && q.rdidx % 2 ^ 32 != q.kmax.toNat) && !s.engineBusy vd

/-- IDLET of a device, in ticks; 0 for never (R405). -/
def State.idleLimit (s : State) (vd : Nat) : Nat := 1250 * s.regField (vdOff vd 0) 31 0

/-- Notes, at the end of a tick, that a device is not idle: its idle time starts anew (R406). -/
def State.noteIdle (s : State) (vd : Nat) : State :=
  if s.vdState vd = 1 ∧ (!s.idle vd || !(s.lull.any fun e => e.dev == vd)) then
    s.setLull { s.lullOf vd with idleSince := s.tick }
  else s

/-- The device has been idle for IDLET. -/
def State.idleLong (s : State) (vd : Nat) : Bool :=
  s.vdExists vd && decide (s.vdState vd = 1) && decide (s.idleLimit vd ≠ 0) && s.idle vd &&
    decide ((s.lullOf vd).idleSince + s.idleLimit vd ≤ s.tick)

/-- IDLE_TIMEOUT (R406). -/
def execIdleTimeout (vd : Nat) (s : State) : Host.Outcome State Fault Refusal :=
  if s.idleLong vd then .next (s.startCollapse vd) else .next s

/-! ## Collapse (R407) -/

/-- The FIFO banks of a device. -/
def State.fifoBanks (s : State) (vd : Nat) : List Bank := s.ms.banks.filter fun b => b.mode == .fifo && b.owner == vd

/-- Dirty bytes of pod-remote lines of the device wait for a plane or a quota (R392, R402). -/
def State.dirtyHeld (s : State) (vd : Nat) : Bool := s.ms.l1.any fun b => b.dev == vd && b.dirty && s.engineHeld vd b.key

/-- Every team of the device has been saved, no queue copy of it runs, and its dirty bytes can be written back. -/
def State.collapsed (s : State) (vd : Nat) : Bool :=
  s.vdExists vd && decide (s.vdState vd = 2) && !(s.teams.any fun m => s.isOf vd m.launch) &&
    !(s.eng.qcopies.any fun c => c.dev == vd) && !s.dirtyHeld vd

/-- Every other device of a device's partition is in COLLAPSING or LULL (R407). -/
def State.partAsleep (s : State) (vd : Nat) : Bool :=
  (s.devices.filter fun x => x != vd && s.vdPart x == s.vdPart vd).all fun x => s.vdState x == 2 || s.vdState x == 3

/-- The memory-side cache drops the lines that are homed in a partition's segments and slabs (R407). -/
def State.dropHomed (s : State) (p : Nat) : State :=
  s.setMs { s.ms with msc := s.ms.msc.filter fun l => !s.partHolds p (l.line * 128) }

/-- What collapse writes of a FIFO bank: its core and number, how many entries it holds, and its entries (log
entry 96). -/
def Bank.image (b : Bank) : List Byte :=
  toBytes 4 (32 * b.core + b.num) ++ toBytes 4 b.fifo.length ++ b.fifo.flatMap fun v => toBytes 16 v

/-- The FIFO banks are written to the save area, behind the saves of the device's teams (R407, log entry 96). -/
def State.saveFifos (s : State) (vd : Nat) (banks : List Bank) : State :=
  s.pocWrite (s.regField (vdOff vd 0x50) 49 0 + s.saveOff vd) (banks.flatMap Bank.image)

/-- The lowest place in the Lull reserve that holds no partition's data and has room for a partition's (log entry
96). -/
def State.reservePlace (s : State) (p : Nat) : Nat :=
  let used := s.lull.filterMap fun e => e.reserve.map fun o => (o, o + s.lullBytes (s.vdPart e.dev))
  let free := fun o => used.all fun u => decide (o + s.lullBytes p ≤ u.1 ∨ u.2 ≤ o)
  (0 :: used.map fun u => u.2).foldl (fun best o =>
    if free o && decide (o < best ∨ !free best) then o else best) 0

/-- A partition of class W3 or W4 is copied to the Lull reserve, and its near segments lose what they hold (R407,
R408). -/
def State.toReserve (s : State) (vd : Nat) : State :=
  if s.vdClass vd < 2 then s
  else
    let o := s.reservePlace (s.vdPart vd)
    let mem := (s.lullRuns vd).foldl (fun m r => Memory.copyRun m r.1 (s.reserveBase + o + r.2.2) r.2.1) s.ms.mem
    let poison := (s.lullRuns vd).foldl (fun l r => movePoison l r.1 (s.reserveBase + o + r.2.2) r.2.1) s.ms.poison
    ({ s with ms := { s.ms with
        mem := (s.lullRuns vd).tail.foldl (fun m (r : Nat × Nat × Nat) => Memory.dropRun m r.1 r.2.1) mem
        poison := poison } }).setLull { s.lullOf vd with reserve := some o }

/-- COLLAPSE_COMPLETE (R407): the FIFO banks are saved, the dirty bytes written back, and, once every device of the
partition is asleep, its lines leave the memory-side cache and the data of a W3 or W4 partition its segments; the
device is in Lull. -/
def execCollapseComplete (vd : Nat) (s : State) : Host.Outcome State Fault Refusal :=
  if s.collapsed vd then
    let banks := s.fifoBanks vd
    let s := banks.foldl (fun s b => s.setBank { b with fifo := [] }) s
    let s := (s.saveFifos vd banks).pushBack fun b => b.dev == vd
    let s := if s.partAsleep vd then (s.dropHomed (s.vdPart vd)).toReserve vd else s
    .next ((s.setLull { s.lullOf vd with fifos := banks }).setVdState vd 3)
  else .next s

/-! ## Wake (R409) -/

/-- The state with the teams of other devices gone that a team of a priority does not pre-empt. -/
def State.withoutOthers (s : State) (vd prio : Nat) : State :=
  s.without ((s.teams.filter fun m => !s.isOf vd m.launch && decide (prio ≤ s.teamPrio m)).map fun m => m.id)

/-- A saved team waits only for other devices' teams of equal or higher priority (R409). -/
def State.onlyOthers (s : State) (v : SavedTeam) : Bool :=
  (s.restorePlace v).isNone && ((s.withoutOthers v.dev (s.teamPrio v.team)).restorePlace v).isSome

/-- The wake of a device is complete (R409). -/
def State.woken (s : State) (vd : Nat) : Bool :=
  s.vdExists vd && decide (s.vdState vd = 4) && s.saved.all fun v => v.dev != vd || v.frozen || s.onlyOthers v

/-- WAKE_COMPLETE (R409, R410): the device is ACTIVE, the record WOKEN is posted, and results that waited for the device
are handled. -/
def execWakeComplete (vd : Nat) (s : State) : Host.Outcome State Fault Refusal :=
  if s.woken vd then
    let e := s.lullOf vd
    let s := (s.setLull { e with idleSince := s.tick }).setVdState vd 1
    .next ((s.post vd true 0x0B 0 0x0807 (toBytes 8 e.wakeTick ++ toBytes 8 s.tick)).flushResults)
  else .next s

/-! ## Admission (R411) -/

/-- A list of partitions with the wake class of the devices that they bind, 0 for W1 to 3 for W4; each
partition once. -/
abbrev Binding := List (Nat × Nat)

/-- The partitions that bind a device now. -/
def State.bindings (s : State) : Binding := (s.devices.map fun vd => (s.vdPart vd, s.vdClass vd)).eraseDups

/-- T0 of a class in ns (R408). -/
def wakeFixed (k : Nat) : Nat := if k = 0 then 8000 else if k = 1 then 400000 else if k = 2 then 1000000 else 4000000

/-- The bound of a class in ns (R408). -/
def wakeBound (k : Nat) : Nat :=
  if k = 0 then 40000 else if k = 1 then 1000000 else if k = 2 then 25000000 else 400000000

/-- The sum of R411 for a class and a die stays within the bound: in units of 1/24,000 ns, a byte takes 3 at
8 TB/s and 16 at 1.5 TB/s. -/
def State.admits (s : State) (l : Binding) (k die : Nat) : Bool :=
  let near := l.foldl (fun n e => if e.2 ≤ k then n + s.unitBytes e.1 die else n) 0
  let far := l.foldl (fun n e => if 2 ≤ e.2 ∧ e.2 ≤ k then n + s.lullBytes e.1 else n) 0
  decide (wakeFixed k * 24000 + 3 * near + (if 2 ≤ k then 16 * far else 0) ≤ wakeBound k * 24000)

/-- The Lull reserve holds the partitions of classes W3 and W4 (R411, R417). -/
def State.reserveHolds (s : State) (l : Binding) : Bool :=
  decide (l.foldl (fun n e => if 2 ≤ e.2 then n + s.lullBytes e.1 else n) 0 ≤ s.regField 0xA0004008 31 0 * 65536)

/-- A new device of a class may be created in a partition (R411). -/
def State.admission (s : State) (p cls : Nat) : Bool :=
  let l := ((p, cls) :: s.bindings).eraseDups
  (List.range 4).all (fun k => (List.range 4).all fun d => s.admits l k d) && s.reserveHolds l

end Sys2Proof.Machine
end

