-- ==== Sys2Proof/Machine/Penen.lean ====
section
/-! DEFINITION. The Penen complex (R412 to R422): the mailbox and its commands, partitions and virtual
devices as they are written, created and destroyed (R400 to R404, R411), violations, firmware images and
hand-over. -/

namespace Sys2Proof.Machine

/-! ## The mailbox (R412, R413) -/

/-- A host range that a command names lies within a valid HCEIL range (R413, R414). -/
def State.hostRange (s : State) (a n : Nat) : Bool := s.inHceil a (a + n - 1)

/-- Reads host memory. -/
def State.hostRead (s : State) (a n : Nat) : List Byte := s.pocRead (0x1000000000000 + a) n

/-- Writes host memory. -/
def State.hostWrite (s : State) (a : Nat) (l : List Byte) : State := s.pocWrite (0x1000000000000 + a) l

/-- Sets STATUS and RESULT of the mailbox. -/
def State.setMailbox (s : State) (status : Nat) (result : DWord) : State :=
  (s.setReg 0xA0001010 (BitVec.ofNat 64 status)).setReg 0xA0001018 result

/-- A doorbell write (R412, R413): ignored while a command is busy.  A command that lies outside every HCEIL
range is not read. -/
def State.doorbell (s : State) : State :=
  if s.reg 0xA0001010 = 1 then s
  else
    let a := (s.reg 0xA0001000).toNat
    let cmd := if s.hostRange a 64 then s.hostRead a 64 else []
    { s.setMailbox 1 0 with penen := { s.penen with command := some cmd } }

/-- A command is well formed (R413). -/
def State.commandOk (s : State) (l : List Byte) : Bool :=
  let code := field l 0 1
  decide (l.length = 64) && zeroBytes l 1 8 &&
    (if code = 0x01 then decide (field l 8 1 < 48) && zeroBytes l 9 16 && zeroBytes l 24 64 && s.hostRange (field l 16 8) 64
     else if code = 0x02 then
       decide (field l 8 2 < 1024) && decide (field l 10 1 < 48) && decide (field l 11 1 < 4) && zeroBytes l 12 64
     else if code = 0x03 then decide (field l 8 2 < 1024) && zeroBytes l 10 64
     else if code = 0x04 then zeroBytes l 48 64 && s.hostRange (field l 40 8) 4096
     else if code = 0x05 then
       decide (field l 16 4 ≤ 64 * 2 ^ 20) && zeroBytes l 20 64 && s.hostRange (field l 8 8) (field l 16 4)
     else if code = 0x06 then zeroBytes l 8 64
     else if code = 0x07 then decide (field l 8 1 < 64) && zeroBytes l 9 64
     else if code = 0x08 then decide (field l 8 8 % 64 = 0) && zeroBytes l 16 64 && physMem (field l 8 8) 64
     else false)

/-- Runs the command of a code that waits in the mailbox; none runs while the RV64 core does not (R412,
R415, R418). -/
def State.onCommand (s : State) (code : Nat) (f : List Byte → State → State) : Host.Outcome State Fault Refusal :=
  match s.penen.command with
  | none => .next s
  | some l =>
    if !s.masterRuns 0 ∨ field l 0 1 ≠ code ∨ !s.commandOk l then .next s
    else .next (f l { s with penen := { s.penen with command := none } })

/-- A command that is done. -/
def State.commandDone (s : State) (result : DWord) : State := s.setMailbox 2 result

/-- A well-formed command whose condition fails. -/
def State.commandFailed (s : State) : State := s.setMailbox 4 0

/-- MAILBOX_REFUSED (R412, R413): the command is unknown or malformed. -/
def execMailboxRefused (s : State) : Host.Outcome State Fault Refusal :=
  match s.penen.command with
  | none => .next s
  | some l =>
    if !s.masterRuns 0 ∨ s.commandOk l then .next s
    else .next ({ s with penen := { s.penen with command := none } }.setMailbox 3 0)

/-! ## Partitions (R400, R401, R413) -/

/-- A virtual device is bound to the partition. -/
def State.partBound (s : State) (p : Nat) : Bool := s.devices.any fun vd => s.vdPart vd == p

/-- A unit of a set belongs to another partition. -/
def State.unitTaken (s : State) (p units : Nat) : Bool :=
  (List.range 48).any fun q => q != p && s.partExists q && (List.range 48).any fun u =>
    bit units u && bit (s.reg (partOff q)).toNat u

/-- A far-tier slab meets a range of bytes. -/
def slabMeets (n base size : Nat) : Bool :=
  decide (0 < size) && decide (base < 0x40000000000 + (n + 1) * 2 ^ 36) && decide (0x40000000000 + n * 2 ^ 36 < base + size)

/-- A slab of a set overlaps the Lull reserve or the state block (R417). -/
def State.slabTaken (s : State) (far : Nat) : Bool :=
  (List.range 32).any fun n => bit far n &&
    (slabMeets n (s.regField 0xA0004000 49 16 * 65536) (s.regField 0xA0004008 31 0 * 65536) ||
      slabMeets n (s.regField 0xA0004010 49 16 * 65536) (s.regField 0xA0004018 4 0 * 65536))

/-- UAQ or UEQ of a value of the word at 0x38 is above its ceiling (R401, R414). -/
def State.quotaBad (s : State) (w : Nat) : Bool :=
  decide (min 1600 (s.regField 0xA0000008 10 0) < bits w 63 48) ||
    decide (min 400 (s.regField 0xA0000008 41 32) < bits w 47 32)

/-- The condition of a partition write fails (R413). -/
def State.partRefused (s : State) (p : Nat) (l : List Byte) : Bool :=
  let w := fun k => field l (8 * k) 8
  s.partBound p || s.unitTaken p (bits (w 0) 47 0) ||
    (List.range 4).any (fun d => decide (96 < bits (w 1) (39 + 8 * d) (32 + 8 * d))) || decide (bits (w 1) 15 0 = 0) ||
    s.quotaBad (w 7) || s.slabTaken (bits (w 6) 63 32)

/-- The writable fields of the words of a partition block (R401). -/
def partMask (k : Nat) : Nat :=
  if k = 0 then 2 ^ 63 + (2 ^ 48 - 1)
  else if k = 1 then (2 ^ 32 - 1) * 2 ^ 32 + 0xFFFF
  else if k ≤ 5 then 2 ^ 64 - 1
  else (2 ^ 32 - 1) * 2 ^ 32

/-- Writes a partition block. -/
def State.writePart (s : State) (p : Nat) (l : List Byte) : State :=
  (List.range 8).foldl (fun s k => s.setReg (partOff p + 8 * k) (BitVec.ofNat 64 (field l (8 * k) 8 &&& partMask k))) s

/-- PARTITION_WRITE (R413). -/
def execPartitionWrite (s : State) : Host.Outcome State Fault Refusal :=
  s.onCommand 0x01 fun l s =>
    let image := s.hostRead (field l 16 8) 64
    if s.partRefused (field l 8 1) image then s.commandFailed else (s.writePart (field l 8 1) image).commandDone 0

/-! ## Virtual devices (R404, R405) -/

/-- Creation of a device is refused (R404, R411, R413). -/
def State.createRefused (s : State) (vd p cls : Nat) : Bool :=
  let mates := s.devices.filter fun x => s.vdPart x == p
  s.vdExists vd || !s.partExists p || mates.any (fun x => s.vdClass x != cls) ||
    (decide (2 ≤ cls) && !mates.isEmpty) || !s.admission p cls

/-- The device's registers are not written: each reads as its reset value. -/
def State.clearBlock (s : State) (vd : Nat) : State :=
  { s with mgmt := s.mgmt.filter fun e => !(decide (vdOff vd 0 ≤ e.1) && decide (e.1 < vdOff vd 0x100)) }

/-- Creates a device (R405, R461): it is ACTIVE, SAVE is what firmware gives it, and its save area holds no team. -/
def State.createDevice (s : State) (vd p cls : Nat) : State :=
  (((s.clearBlock vd).setReg (vdOff vd 0) (BitVec.ofNat 64 (2 ^ 63 + p * 2 ^ 48 + cls * 2 ^ 40 + 2 ^ 32))).setReg
    (vdOff vd 0x50) (BitVec.ofNat 64 ((Config.saveBase vd).toNat % 2 ^ 50))).linkSaves vd

/-- VDEV_CREATE (R404, R405, R411, R413). -/
def execVdevCreate (s : State) : Host.Outcome State Fault Refusal :=
  s.onCommand 0x02 fun l s =>
    let vd := field l 8 2
    if s.createRefused vd (field l 10 1) (field l 11 1) then s.commandFailed
    else
      let s := s.createDevice vd (field l 10 1) (field l 11 1)
      s.commandDone (s.reg (vdOff vd 0x50))

/-- A launch of the device, no group of which waits for placement any more. -/
def Launch.unwait (l : Launch) : Launch := { l with trees := l.trees.map fun x => { x with unplaced := 0 } }

/-- A team of a device that is destroyed freezes, unless it freezes already (R404). -/
def Team.ended (m : Team) : Team :=
  match m.phase with
  | .running | .preempting => { m with phase := .freezing 3 0 }
  | .freezing _ _ => m

/-- Ends the launches of a device that is destroyed as a freeze does (R379, R404): its teams stop, to be saved with
the frozen mark, its saved teams freeze, and the clusters that wait for placement are dropped with the launches that
have none placed.  The launches then complete under R329. -/
def State.stopDevice (s : State) (vd : Nat) : State :=
  let mine := s.launchesOf vd
  let s : State := { s with
    penen := { s.penen with ending := some vd }
    front := { s.front with placements := s.front.placements.filter fun p => !mine.contains p.launch }
    teams := s.teams.map fun (m : Team) => if mine.contains m.launch then m.ended else m
    launches := s.launches.map fun (l : Launch) => if l.dev == vd then l.unwait else l }
  let s := (s.saved.filter fun v => v.dev == vd && !v.frozen).foldl (fun s v =>
    s.freezeSaved v (destroyedPayload s.freeCount v.team.id v.team.core)) s
  let s := (s.launches.filter fun l => l.dev == vd).foldl (fun s l => l.trees.foldl (fun s x => s.treeCheck l.id x.id) s) s
  (s.launches.filter fun l => l.dev == vd && !l.started).foldl (fun s l => s.endLaunch l) s

/-- The destruction of a device has still to stop something of it: it begins, or a SPAWN of a team that drains has
added clusters. -/
def State.destroyBegins (s : State) (vd : Nat) : Bool :=
  s.penen.ending != some vd || s.front.placements.any (fun p => (s.launchesOf vd).contains p.launch)

/-- A launch of a device that is destroyed has still to end, or its bytes have still to be written back. -/
def State.destroyWaits (s : State) (vd : Nat) : Bool :=
  !(s.launchesOf vd).isEmpty || (s.teams.any fun m => s.isOf vd m.launch) || s.dirtyHeld vd

/-- Removes what a device holds beside its launches, and tells the peers that wait for a frame of its pages.  Its FIFO banks keep their mode, which only CARVE changes
(R250). -/
def State.dropDevice (s : State) (vd : Nat) : State :=
  let pages := (s.ver.dir.filter fun e => e.dev == vd).map fun e => e.idx
  let f := s.front
  let v := s.ver
  let peers := v.waits.filter fun w => pages.contains w.entry
  { s with
    saved := s.saved.filter fun x => x.dev != vd
    outbox := (peers.map fun w => Msg.remoteNoPage w.src).reverse ++ s.outbox
    heldWrites := s.heldWrites.filter fun w => w.dev != vd
    heldMsgs := s.heldMsgs.filter fun m => m.1 != vd
    heldHost := s.heldHost.filter fun h => h.1 != vd
    ms := { s.ms with
      l1 := s.ms.l1.filter fun b => b.dev != vd
      lines := s.ms.lines.filter fun l => l.dev != vd
      tlb := s.ms.tlb.filter fun e => e.dev != vd
      walker := s.ms.walker.filter fun e => e.dev != vd
      layout := s.ms.layout.filter fun e => e.dev != vd }
    front := { f with
      queues := f.queues.filter fun q => q.dev != vd
      placements := f.placements.filter fun p => s.launches.any fun l => l.id == p.launch
      invals := f.invals.filter fun i => i.dev != vd
      served := f.served.filter fun e => e.1 % 1025 != vd
      parked := f.parked.filter fun e => e.1 != vd }
    ver := { v with
      dir := v.dir.filter fun e => e.dev != vd
      pins := v.pins.filter fun p => !pages.contains p.entry
      installs := v.installs.filter fun i => !pages.contains i.entry
      waits := v.waits.filter fun w => !pages.contains w.entry }
    coll := { s.coll with
      known := s.coll.known.filter fun d => d.dev != vd
      stages := s.coll.stages.filter fun g => g.desc.dev != vd
      roots := s.coll.roots.filter fun r => r.desc.dev != vd }
    eng := { tcopies := s.eng.tcopies.filter (fun c => c.dev != vd), qcopies := s.eng.qcopies.filter fun c => c.dev != vd }
    lost := s.lost.filter fun e => e.1 != vd
    lull := s.lull.filter fun e => e.dev != vd
    power := { s.power with
      lullEnergy := s.power.lullEnergy.filter (fun e => e.1 != vd)
      ended := s.power.ended.filter fun e => e.1 != vd }
    penen := { s.penen with heldWakes := s.penen.heldWakes.filter (fun e => e.1 != vd), ending := none } }

/-- Destroys a device whose launches have ended (R404, R406): its dirty bytes are written back, and what Lull holds is
discarded. -/
def State.destroyDevice (s : State) (vd : Nat) : State := ((s.pushBack fun b => b.dev == vd).dropDevice vd).clearBlock vd

/-- VDEV_DESTROY (R404, R413): the device's launches end as a freeze ends them; then it is destroyed, and the command
is done. -/
def execVdevDestroy (s : State) : Host.Outcome State Fault Refusal :=
  match s.penen.command with
  | none => .next s
  | some l =>
    let vd := field l 8 2
    let taken := { s with penen := { s.penen with command := none } }
    if !s.masterRuns 0 ∨ field l 0 1 ≠ 0x03 ∨ !s.commandOk l then .next s
    else if !s.vdExists vd then .next taken.commandFailed
    else if s.destroyBegins vd then .next (s.stopDevice vd)
    else if s.destroyWaits vd then .next s
    else .next ((taken.destroyDevice vd).commandDone 0)

/-! ## The power cap and the physical function's queue -/

/-- SET_PCAP (R413, R423): RESULT is the operative cap. -/
def execSetPcap (s : State) : Host.Outcome State Fault Refusal :=
  s.onCommand 0x07 fun l s =>
    let cap := field l 8 1
    if cap < 20 ∨ s.regField 0xA0000000 5 0 < cap then s.commandFailed
    else { s with power := { s.power with pcap := cap } }.commandDone (BitVec.ofNat 64 cap)

/-- REGISTER_PF_QUEUE (R324, R413): the physical function's queue, of priority 7 and number 0. -/
def execRegisterPfQueue (s : State) : Host.Outcome State Fault Refusal :=
  s.onCommand 0x08 fun l s =>
    let a := field l 8 8
    let block := s.pocRead a 64
    if (s.queueOf 1024 0).isSome ∨ s.ms.poisoned a 64 ∨ blockBad block then s.commandFailed
    else (s.addQueue 1024 0 a block 7 true).commandDone 0

/-! ## Images and attestation (R418, R419) -/

/-- STAGE_IMAGE (R413, R418, R420): the image enters the inactive bank; RESULT is its SVN. -/
def execStageImage (s : State) : Host.Outcome State Fault Refusal :=
  s.onCommand 0x05 fun l s =>
    let data := s.hostRead (field l 8 8) (field l 16 4)
    if !imageOk data then s.commandFailed
    else
      let i := imageOf data
      let p := s.penen
      ({ s with penen := if p.bank then { p with image0 := some i } else { p with image1 := some i } }).commandDone
        (BitVec.ofNat 64 i.svn)

/-- What the report says of an image: its digest and its SVN, zeros for a bank without one (log entry 15). -/
def imageBytes (i : Option Image) : List Byte :=
  match i with
  | none => List.replicate 36 0
  | some i => (i.digest ++ List.replicate 32 0).take 32 ++ toBytes 4 i.svn

/-- The parts of the attestation report, in the order of R419 (log entry 15): the nonce, the identity public key, the
SM3 and the SVN of the image in each bank, the active bank, the version of the state block, bytes 0x00 to 0x0F of the
guard block, and the HCEIL entries. -/
def State.attestation (s : State) (nonce : List Byte) : List Byte :=
  nonce ++ (Config.identityKey ++ List.replicate 64 0).take 64 ++ imageBytes s.penen.image0 ++ imageBytes s.penen.image1 ++
    toBytes 4 (b2n s.penen.bank) ++ toBytes 4 (field (s.pocRead (s.regField 0xA0004010 49 16 * 65536) 2) 0 2) ++
    toBytes 8 (s.reg 0xA0000000).toNat ++ toBytes 8 (s.reg 0xA0000008).toNat ++
    (List.range 32).flatMap fun k => toBytes 8 (s.reg (0xA0000100 + 8 * k)).toNat

/-- ATTEST (R413, R419): the report, with its signature over its SM3 digest behind it, is written, and RESULT is its
length. -/
def execAttest (s : State) : Host.Outcome State Fault Refusal :=
  s.onCommand 0x04 fun l s =>
    let parts := s.attestation ((l.drop 8).take 32)
    let report := (parts ++ Config.identitySign (Config.sm3 parts)).take 4096
    (s.hostWrite (field l 40 8) report).commandDone (BitVec.ofNat 64 report.length)

/-! ## Hand-over (R420 to R422) -/

/-- The state block for a version and policy state, cut to the room of the block (R421). -/
def stateBlock (room : Nat) (policy : List Byte) : List Byte :=
  let rest := (policy.drop 2).take (room - 64)
  (policy.take 2 ++ [0, 0]).take 2 ++ [0, 0] ++ toBytes 4 (64 + rest.length) ++
    (Config.sm3 rest ++ List.replicate 32 0).take 32 ++ List.replicate 24 0 ++ rest

/-- HANDOVER (R420): the state block is written, and every master restarts in the other bank; RESULT is the
version of the block. -/
def execHandover (s : State) : Host.Outcome State Fault Refusal :=
  s.onCommand 0x06 fun _ s =>
    let block := stateBlock (s.regField 0xA0004018 4 0 * 65536) (Config.stateBlock s.freeCount)
    let version := field block 0 2
    match s.penen.image (!s.penen.bank) with
    | none => s.commandFailed
    | some i =>
      if version < i.lo ∨ i.hi < version then s.commandFailed
      else
        let s := s.pocWrite (s.regField 0xA0004010 49 16 * 65536) block
        ({ s with penen := { s.penen with
            bank := !s.penen.bank, frozen := [], handover := some s.tick, fallback := false, hok := false } }).commandDone
          (BitVec.ofNat 64 version)

/-- The new image finds the state block good: its digest is right, and its version within the range that the image
accepts (R421). -/
def State.blockGood (s : State) : Bool :=
  let a := s.regField 0xA0004010 49 16 * 65536
  let head := s.pocRead a 64
  match s.penen.image s.penen.bank with
  | none => false
  | some i =>
    decide (i.lo ≤ field head 0 2 ∧ field head 0 2 ≤ i.hi) &&
      (Config.sm3 (s.pocRead (a + 64) (field head 4 4 - 64)) == (head.drop 8).take 32)

/-- The new image confirms the hand-over (R420, R421): one that finds the block wrong writes nothing. -/
def State.confirm (s : State) : State :=
  if s.penen.handover.isSome ∧ !s.blockGood then s
  else ({ s with penen := { s.penen with hok := true, handover := none } }).serveWakes

/-- HOK (R421). -/
def execHok (s : State) : Host.Outcome State Fault Refusal := .next (if s.masterRuns 0 then s.confirm else s)

/-- The hand-over has failed (R422): no HOK within 100 ms, or a violation before HOK. -/
def State.handoverFails (s : State) : Bool :=
  match s.penen.handover with
  | none => false
  | some t => decide (t + 125000000 ≤ s.tick) || !s.penen.frozen.isEmpty

/-- HANDOVER_TIMEOUT (R422): Penen restarts in the old bank, and GKIND is 5. -/
def execHandoverTimeout (s : State) : Host.Outcome State Fault Refusal :=
  if s.handoverFails then
    let s := { s with penen := { s.penen with
      bank := !s.penen.bank, frozen := [], handover := none, fallback := true, hok := false } }
    .next ((s.setRegField 0xA0000040 7 4 5).serveWakes)
  else .next s

/-- Restarts every Penen master from the active bank (R416). -/
def State.penenRestart (s : State) : State := { s with penen := { s.penen with frozen := [] } }.serveWakes

/-- PENRST (R416). -/
def execPenrst (s : State) : Host.Outcome State Fault Refusal := .next s.penenRestart

end Sys2Proof.Machine
end

