-- ==== Sys2Proof/Machine/Fabric.lean ====
section
/-! DEFINITION. What reaches the package from the host and from its pod (R262, R293, R387 to R399, R410), the
switch planes (R389 to R392), register writes (R5), soft errors (R249), write-back in time (R286), and
package reset (R7, R13). -/

namespace Sys2Proof.Machine

/-! ## Switch planes (R390 to R392) -/

/-- Sets the PLIVE bit of a plane. -/
def State.setLive (s : State) (p : Nat) (up : Bool) : State :=
  if p < 8 then s.setRegField 0x70000010 p p (b2n up) else s

/-- PLANE_DOWN (R391, R392): requests that are outstanding on the plane get no response, and fail once their deadlines
have passed. -/
def execPlaneDown (p : Nat) (s : State) : Host.Outcome State Fault Refusal := .next (s.setLive p false)

/-- PLANE_UP (R390). -/
def execPlaneUp (p : Nat) (s : State) : Host.Outcome State Fault Refusal := .next (s.setLive p true)

/-- The physical plane that a PLMAP value names for a logical plane. -/
def planeIn (v : BitVec 24) (l : Nat) : Nat := bits v.toNat (3 * l + 2) (3 * l)

/-- The requests outstanding on the old planes of the entries that a value changes (R392). -/
def State.onOldPlanes (s : State) (v : BitVec 24) : List Nat :=
  let old := ((List.range 8).filter fun l => planeIn v l != s.planeOf l).map s.planeOf
  (s.ops.filter fun o => !o.held && o.planes.any fun p => old.contains p).map fun o => o.id

/-- Penen writes PLMAP (R392): the changed entries are held until the old planes' requests have resolved. -/
def State.writePlmap (s : State) (v : BitVec 24) : State :=
  let earlier := match s.pending with
    | none => []
    | some w => w.waits
  { s with pending := some ⟨v, earlier ++ (s.onOldPlanes v).filter fun k => !earlier.contains k⟩ }

/-- PLMAP_WRITE (R392). -/
def execPlmapWrite (v : BitVec 24) (s : State) : Host.Outcome State Fault Refusal := .next (s.writePlmap v)

/-- A held write fails (R360, R390, R391): it may have been performed, and its record is posted. -/
def State.failHeld (s : State) (w : HeldWrite) : State :=
  let s := if s.failedDone w.key then s.pocWrite w.key w.data else s
  match w.report with
  | none => s.countFails 1
  | some r => s.engineFault w.dev w.va r.1 8 r.2.1 r.2.2

/-- Performs the held writes of the front end and the engines that nothing holds any more, in their order (R392,
R402). -/
def State.flushWrites (s : State) : State :=
  s.heldWrites.foldl (fun s w =>
    if s.engineHeld w.dev w.key then { s with heldWrites := s.heldWrites ++ [w] }
    else if s.requestFails w.key then s.failHeld w
    else s.pocWrite w.key w.data) { s with heldWrites := [] }

/-- Sends the held messages that nothing holds any more (R402). -/
def State.flushMsgs (s : State) : State :=
  s.heldMsgs.foldl (fun s h => s.sendTo h.1 h.2.1 h.2.2) { s with heldMsgs := [] }

/-- A number of the table of R430, by its place there. -/
def sourceNumber (n : Nat) : Nat :=
  if n < 1536 then n
  else if n < 1632 then 0x600 + (n - 1536)
  else if n < 1664 then 0x700 + (n - 1632)
  else if n < 1672 then 0x800 + (n - 1664)
  else 0x900 + (n - 1672)

/-- A host access through a BAR2 window fails (R398): Completer Abort, and a record of the fault of its
translation, from whichever agent of R430 (log entry 24). -/
def State.hostFault (s : State) (vd n : Nat) (f : AFault) : State :=
  let s := s.countFault f
  (if f.reason ≤ 5 then s.post vd false 0x0A 0 (sourceNumber (Config.hostSource % 2056)) (toBytes 8 f.va ++ [BitVec.ofNat 8 f.reason]) else s).send
    (.hostAbort n)

/-- The device serves host and pod accesses to its memory now (R410). -/
def State.memServed (s : State) (vd : Nat) : Bool := s.vdExists vd && (decide (s.vdClass vd < 2) || s.vdState vd == 1)

/-- A read through the window of a virtual function (R398, R410): one of another member's memory waits while a remap or
a quota holds it (R392, R402). -/
def State.bar2Read (s : State) (vd off n : Nat) : State :=
  let va := s.regField (vdOff vd 0x58) 55 0 + off % 2 ^ 36
  if s.vheld vd va n .read .s then { s with heldHost := s.heldHost ++ [(vd, off, n)] }
  else
    match s.vread vd va n .s with
    | .ok l => s.send (.hostData n (ofBytes l))
    | .error f => s.hostFault vd n f

/-- Performs the held reads of the host that nothing holds any more (R392, R402). -/
def State.flushHost (s : State) : State :=
  s.heldHost.foldl (fun s h => s.bar2Read h.1 h.2.1 h.2.2) { s with heldHost := [] }

/-- Lets requests go that are held for a plane or for a quota, where nothing holds them any more (R392,
R402). -/
def State.releaseHeld (s : State) : State :=
  ({ s with ops := s.ops.map fun (o : Op) =>
      match o.held, s.ctx? o.th with
      | true, some c => s.onPlanes c.l.dev o.planes { o with due := s.tick + s.delay }
      | _, _ => o }).flushWrites.flushMsgs.flushHost

/-- The pending PLMAP write takes effect now. -/
def State.plmapReady (s : State) : Bool :=
  match s.pending with
  | none => false
  | some w => !(w.waits.any fun k => s.ops.any fun o => o.id == k)

/-- PLMAP_EFFECT (R392): the write takes effect, and the held requests go. -/
def execPlmapEffect (s : State) : Host.Outcome State Fault Refusal :=
  match s.pending with
  | none => .next s
  | some w =>
    if s.plmapReady then
      .next (({ s with pending := none }).setReg 0x70000008 (w.value.setWidth 64)).releaseHeld
    else .next s

/-! ## Register writes (R5, R399) -/

/-- EDDY and WAYS of a partition after a write (R401): a share above 96 contexts, or no way at all, leaves its field
as it was (R6). -/
def partShares (old v : Nat) : Nat :=
  let share := fun d => if bits v (39 + 8 * d) (32 + 8 * d) ≤ 96 then bits v (39 + 8 * d) (32 + 8 * d) else bits old (39 + 8 * d) (32 + 8 * d)
  (if bits v 15 0 = 0 then bits old 15 0 else bits v 15 0) +
    (List.range 4).foldl (fun n d => n + share d * 2 ^ (32 + 8 * d)) 0

/-- A Penen master writes a partition register (R400, R401, R415): only while no device is bound to the partition, and
a quota above its ceiling is a violation. -/
def State.penenPart (s : State) (m off : Nat) (v : DWord) : State :=
  let p := (off - 0x90000000) / 0x40
  let k := off % 0x40 / 8
  if s.partBound p then s
  else if k = 7 ∧ s.quotaBad v.toNat then s.violation m 3
  else if k = 1 then s.setReg off (BitVec.ofNat 64 (partShares (s.reg off).toNat v.toNat))
  else if k = 7 then (s.setReg off (BitVec.ofNat 64 (v.toNat &&& partMask k))).releaseHeld
  else s.setReg off (BitVec.ofNat 64 (v.toNat &&& partMask k))

/-- A Penen master writes PCAP (R415, R423): a value above PCAPMAX is a violation, and one below 20 leaves it. -/
def State.penenPcap (s : State) (m cap : Nat) : State :=
  if s.regField 0xA0000000 5 0 < cap then s.violation m 4
  else if cap < 20 then s
  else { s with power := { s.power with pcap := cap } }

/-- A Penen master writes a whole 64-bit register of the management space (R390, R401, R417, R421, R424).  DESIGN
CHOICE: PCAP lies where PWRSTAT has it, in the word at 8 of the power block (log entry 53). -/
def State.penenWrite (s : State) (who : Agent) (m off : Nat) (v : DWord) : State :=
  if off = 0x70000008 then s.writePlmap (v.setWidth 24)
  else if off = 0xA0001020 then (if bit v.toNat 0 then s.confirm else s)
  else if off = 0xA0002008 then s.penenPcap m (bits v.toNat 31 26)
  else if 0x90000000 ≤ off ∧ off < 0x90000000 + 48 * 0x40 then s.penenPart m off v
  else s.mgmtStore8 who .f off 8 v.toNat

/-- A Penen master writes host memory (R414, R415): outside every HCEIL range that is a violation. -/
def State.penenHost (s : State) (m a : Nat) (v : DWord) : State :=
  if s.inHceil a (a + 7) then s.hostWrite a (toBytes 8 v.toNat) else s.violation m 1

/-- A write of a whole 64-bit register of the management space by an agent (R5, R390, R401, R405, R412, R414,
R417, R421, R424, R435); a Penen master that does not run writes nothing. -/
def State.registerWrite (s : State) (who : Agent) (off : Nat) (v : DWord) : State :=
  match who with
  | .penen => if s.masterRuns 0 then s.penenWrite .penen 0 off v else s
  | .packet k => if s.masterRuns (k.val + 1) then s.penenWrite (.packet k) (k.val + 1) off v else s
  | .pf =>
    if off = 0xA0001008 then (if bit v.toNat 0 then s.doorbell else s)
    else if off = 0xA0000048 then (if bit v.toNat 0 then s.penenRestart else s)
    else s.mgmtStore8 .pf .s off 8 v.toNat
  | .vf vd =>
    if (0x80000000 + vd * 0x10000 ≤ off ∧ off < 0x80000000 + (vd + 1) * 0x10000) ∨
        (vdOff vd 0 ≤ off ∧ off < vdOff vd 0x100) then s.mgmtStore8 (.vf vd) .s off 8 v.toNat
    else s

/-- REGISTER_WRITE (R5): the aligned 64-bit register at a physical address; or, by a Penen master, the aligned 64-bit
word of host memory there (R415, log entry 53). -/
def execRegisterWrite (who : Agent) (pa : Nat) (value : DWord) (s : State) : Host.Outcome State Fault Refusal :=
  if isMgmt pa ∧ pa % 8 = 0 then .next (s.registerWrite who (pa - mgmtBase) value)
  else
    match agentMaster who with
    | none => .next s
    | some m => .next (if isHost pa ∧ pa % 8 = 0 ∧ s.masterRuns m then s.penenHost m (pa - 0x1000000000000) value else s)

/-! ## Host accesses (R293, R398, R410) -/

/-- A host write of the management space by an agent: a kick register takes it only where it starts, and another
register takes it merged with the bytes that it leaves (R317, R399).  The manual gives no write that does not lie in
one 64-bit register a fate: it is dropped (DESIGN CHOICE, log entry 75). -/
def State.hostStore (s : State) (who : Agent) (off n v : Nat) : State :=
  if 8 < off % 8 + n then s
  else if 0x80000000 ≤ off ∧ off < 0x90000000 then s.mgmtStore8 who .s off n v
  else s.registerWrite who (off / 8 * 8) (s.merged off n v)

/-- A host access of the physical function to the management space, through BAR0. -/
def State.hostMgmt (s : State) (off n : Nat) (wr : Option Nat) : State :=
  match wr with
  | none => s.send (.hostData n (s.mgmtBytes none .f off n))
  | some v => (s.hostStore .pf off n v).send .hostDone

/-- Where an offset of a virtual function's BAR0 lies in the management space (R398): its doorbell page, or its
registers at 0x8000; none for the rest. -/
def vfOffset (vd off : Nat) : Option Nat :=
  if off < 0x8000 then some (0x80000000 + vd * 0x10000 + off)
  else if off < 0x8100 then some (vdOff vd (off - 0x8000))
  else none

/-- A host access through BAR0 of a virtual function (R398, R399): offsets that it does not map read as zero and drop
writes. -/
def State.hostVf (s : State) (vd off n : Nat) (wr : Option Nat) : State :=
  match vfOffset vd (off % 0x10000), wr with
  | none, none => s.send (.hostData n 0)
  | none, some _ => s.send .hostDone
  | some k, none => s.send (.hostData n (s.mgmtBytes (some vd) .s k n))
  | some k, some v => (s.hostStore (.vf vd) k n v).send .hostDone

/-- A near segment is powered off: its partition, of class W3 or W4, is in Lull (R407). -/
def State.poweredOff (s : State) (pa : Nat) : Bool :=
  decide (pa < 0x4000000000) && s.lull.any fun e => e.reserve.isSome && s.partHolds (s.vdPart e.dev) pa

/-- A host access of the physical function to a segment that is powered off: it holds nothing, and what is read there is
open (R407, log entry 96). -/
def State.hostOff (s : State) (pa n : Nat) (wr : Option Nat) : State :=
  match wr with
  | none => s.send (.hostData n (ofBytes ((List.range n).map fun k => Config.poweredOff s.freeCount (pa + k))))
  | some _ => s.send .hostDone

/-- A host access of the physical function to device memory, through BAR2: reserved ranges read as ones and
drop writes.  Its fills of the memory-side cache are of class normal and take any way (log entry 105). -/
def State.hostMem (s : State) (pa n : Nat) (wr : Option Nat) : State :=
  if s.poweredOff pa then s.hostOff pa n wr
  else
  let s := if reservedPa pa then s else s.homeUse 0xFFFF .normal pa n
  match wr with
  | none =>
    if reservedPa pa then s.send (.hostData n (2 ^ (8 * n) - 1))
    else if s.ms.poisoned pa n then s.send (.hostAbort n)
    else s.send (.hostData n (ofBytes (s.pocRead pa n)))
  | some v => (if reservedPa pa then s else s.pocWrite pa (toBytes n v)).send .hostDone

/-- HOST_ACCESS (R293, R398): an access of the physical function, performed at the home slice, or of a virtual
function at an offset of its BAR0. -/
def execHostAccess (place : HostPlace) (bytes : Nat) (wr : Option Nat) (s : State) : Host.Outcome State Fault Refusal :=
  match place with
  | .vf vd off => .next (s.hostVf vd off bytes wr)
  | .pf pa =>
    if isMgmt pa then .next (s.hostMgmt (pa - mgmtBase) bytes wr)
    else if pa < 0x80000000000 then .next (s.hostMem pa bytes wr)
    else .next s

/-- HOST_BAR2_ACCESS (R398, R410): an access through the window of a virtual function; a read of another member's
memory waits while a remap or a quota holds it (R392, R402). -/
def execHostBar2Access (vd off bytes : Nat) (wr : Option Nat) (s : State) : Host.Outcome State Fault Refusal :=
  if !s.memServed vd then .next (s.send (.hostAbort bytes))
  else
    match wr with
    | none => .next (s.bar2Read vd off bytes)
    | some v =>
      match s.vwrite vd (s.regField (vdOff vd 0x58) 55 0 + off % 2 ^ 36) (toBytes bytes v) .s with
      | (s, none) => .next (s.send .hostDone)
      | (s, some f) => .next (s.hostFault vd bytes f)

/-- HOST_SNOOP (R397): dirty bytes of a host line are written back, and an invalidating snoop drops the
line, in the memory-side cache too. -/
def execHostSnoop (hpa : Nat) (inval : Bool) (s : State) : Host.Outcome State Fault Refusal :=
  let line := lineOf (0x1000000000000 + hpa)
  let mine := fun b : L1Byte => lineOf b.key == line
  let ms := if inval then { s.ms.evict mine with msc := s.ms.msc.filter fun x => x.line != line } else s.ms.writeBack mine
  .next (s.setMs ms)

/-! ## Pod-remote requests of other members (R262, R388, R391, R393, R410) -/

/-- The bytes of a request. -/
def RemoteReq.size : RemoteReq → Nat
  | .load n => n
  | .store n _ => n
  | .atomic _ w _ _ => atomBytes w
  | .ldvMin n _ _ | .ldvAt n _ => n
  | .vpin _ _ | .vunpin _ | .unpin _ => 1

/-- The request writes. -/
def RemoteReq.writes : RemoteReq → Bool
  | .store _ _ | .atomic _ _ _ _ => true
  | .load _ | .ldvMin _ _ _ | .ldvAt _ _ | .vpin _ _ | .vunpin _ | .unpin _ => false

/-- The memory of a device that is not served lies at a physical address (R410). -/
def State.memAsleep (s : State) (pa : Nat) : Bool :=
  s.devices.any fun vd => s.partHolds (s.vdPart vd) pa && !s.memServed vd

/-- A peer's request is performed (R388, R393, R410, R417). -/
def State.remoteOk (s : State) (src pa : Nat) (r : RemoteReq) : Bool :=
  let n := RemoteReq.size r
  decide (0 < n ∧ n ≤ 128 ∧ lineOf pa = lineOf (pa + n - 1)) && nearOrFar pa && !reservedPa pa &&
    s.exported src pa n (RemoteReq.writes r) && !s.memAsleep pa &&
    (match r with
     | .store _ _ | .ldvMin _ _ _ | .ldvAt _ _ | .vpin _ _ | .vunpin _ | .unpin _ => true
     | .load _ | .atomic _ _ _ _ => !s.ms.poisoned pa n)

/-- The directory entry of the page whose frame 0 holds a physical address (R301). -/
def State.pageAt (s : State) (pa : Nat) : Option VEntry :=
  s.ver.dir.find? fun e => decide (e.fpa ≤ pa ∧ pa < e.fpa + 2 ^ e.size)

/-- A peer's LDV.MIN or VPIN with no qualifying frame (R221, R302): it waits at the directory for one, but not when its
team holds a pin on the page, nor when the page's VTIMEOUT is 0. -/
def State.waitFrame (s : State) (src pa team : Nat) (r : RemoteReq) (e : VEntry) (least : Word) : State :=
  if (s.pin? (some src) team e.idx).isSome ∨ e.vtimeout = 0 then s.send (.remoteNoFrame src)
  else s.addWait ⟨src, pa, r, e.idx, least, versionDeadline e s.tick⟩

/-- Serves a peer's LDV.MIN (R221, R301). -/
def State.remoteMin (s : State) (src pa n team : Nat) (r : RemoteReq) (e : VEntry) (least : Word) : State :=
  match e.qualifying least with
  | none => s.waitFrame src pa team r e least
  | some f => s.remoteFrame src pa n e f.1

/-- Serves a peer's LDV.AT (R221, R301). -/
def State.remoteAt (s : State) (src pa n : Nat) (e : VEntry) (st : Word) : State :=
  match e.exact st with
  | none => s.send (.remoteNoFrame src)
  | some k => s.remoteFrame src pa n e k

/-- Records the pin of a peer's team on a page, and answers with the step of its frame (R221, R301). -/
def State.remotePin (s : State) (src pa team : Nat) (r : RemoteReq) (e : VEntry) (least : Word) : State :=
  match s.pin? (some src) team e.idx with
  | some p => s.repin src p least
  | none =>
    match e.qualifying least with
    | none => s.waitFrame src pa team r e least
    | some (k, st) => (s.addPin ⟨some src, team, e.idx, k, st, 1⟩).send (.remoteData src 4 st.toNat)

/-- A peer's versioned access acts at this package's directory (R301); `f` acts on the page's entry. -/
def State.remotePage (s : State) (src pa : Nat) (f : VEntry → State) : State :=
  match s.pageAt pa with
  | none => s.send (.remoteNoPage src)
  | some e => f e

/-- Performs a peer's request at its home slice. -/
def State.remoteServe (s : State) (src pa : Nat) (r : RemoteReq) : State :=
  let s := s.homeUse 0xFFFF .normal pa (RemoteReq.size r)
  match r with
  | .ldvMin n team least => s.remotePage src pa fun e => s.remoteMin src pa n team r e least
  | .ldvAt n st => s.remotePage src pa fun e => s.remoteAt src pa n e st
  | .vpin team least => s.remotePage src pa fun e => s.remotePin src pa team r e least
  | .vunpin team => s.remotePage src pa fun e =>
    (match s.pin? (some src) team e.idx with
     | none => s.send (.remoteNoFrame src)
     | some p => (s.countPin p (-1)).send (.remoteDone src))
  | .unpin team => s.remotePage src pa fun e => s.setPins (s.ver.pins.filter fun p => !p.of (some src) team e.idx)
  | .load n => s.send (.remoteData src n (ofBytes (s.pocRead pa n)))
  | .store n v => (s.pocWrite pa (toBytes n v)).send (.remoteDone src)
  | .atomic op w a b =>
    let n := atomBytes w
    let s := s.clearLoc (.mem pa true) n
    let old := ofBytes (s.pocRead pa n)
    let s := match atomNew op (8 * n) old a b with
      | none => s
      | some v => s.pocWrite pa (toBytes n v)
    s.send (.remoteData src n old)

/-- POD_REMOTE_REQUEST (R388, R391, R393): a request of another member; one whose deadline has passed is not
performed, and has no answer. -/
def execPodRemoteRequest (src pa : Nat) (r : RemoteReq) (late : Bool) (s : State) :
    Host.Outcome State Fault Refusal :=
  if late then .next s
  else if s.remoteOk src pa r then .next (s.remoteServe src pa r)
  else .next (s.send (.remoteRefused src))

/-! ## Write-back in time, soft errors -/

/-- DIRTY_WRITEBACK (R286): the dirty bytes of a line of a core reach their point of coherence. -/
def execDirtyWriteback (core line : Nat) (s : State) : Host.Outcome State Fault Refusal :=
  .next (s.pushBack fun b => b.core == core && lineOf b.key == line)

/-- A soft error in an L1 (R249): it poisons the granule of a dirty line, and drops a clean line. -/
def MemSys.l1Error (m : MemSys) (core key : Nat) : MemSys :=
  let mine := fun b : L1Byte => b.core == core && lineOf b.key == lineOf key
  if m.l1.any fun b => mine b && b.dirty then
    { m with l1 := m.l1.map fun b => if b.core == core && b.key / 16 == key / 16 then { b with bad := true } else b }
  else m.drop mine

/-- A soft error in the memory-side cache (R249): it poisons the granule of a dirty line, and drops a clean line. -/
def MemSys.mscError (m : MemSys) (pa : Nat) : MemSys :=
  match m.msc.find? fun x => x.line == lineOf pa with
  | none => m
  | some x =>
    if x.dirty then (if m.poison.contains (pa / 16) then m else { m with poison := pa / 16 :: m.poison })
    else { m with msc := m.msc.filter fun x => x.line != lineOf pa }

/-- UNCORRECTABLE_ERROR (R249): the register or the 16-byte granule that a soft error strikes is poisoned; what
parity protects is dropped, and what the code corrects is counted. -/
def execUncorrectableError (e : ErrTarget) (s : State) : Host.Outcome State Fault Refusal :=
  match e with
  | .reg th r =>
    .next (s.modThread th fun t => if r.val < t.alloc then { t with poison := t.poison ||| (1#128 <<< r.val) } else t)
  | .scratch team g =>
    .next (s.modTeam team fun tm =>
      if 16 * g < tm.scrSize && !tm.scrPoison.contains g then { tm with scrPoison := g :: tm.scrPoison } else tm)
  | .granule pa =>
    if nearOrFar pa && !reservedPa pa && !s.ms.poison.contains (pa / 16) then
      .next { s with ms := { s.ms with poison := pa / 16 :: s.ms.poison } }
    else .next s
  | .l1 core key => .next (s.setMs (s.ms.l1Error core key))
  | .corrected => .next { s with corrected := s.corrected + 1 }
  | .tlb core =>
    let tlb := roomIn (s.ms.tlb.filter fun e => e.core == core) s.ms.tlb 0 (Config.evicted s.freeCount 4)
    .next (s.setMs { s.ms with tlb := tlb })
  | .layoutDie die =>
    let mates := s.ms.layout.filter fun e => e.core.isNone && e.die == die
    .next (s.setMs { s.ms with layout := roomIn mates s.ms.layout 0 (Config.evicted s.freeCount 6) })
  | .msc pa => .next (s.setMs (s.ms.mscError pa))
  | .layout core =>
    let layout := roomIn (s.ms.layout.filter fun e => e.core == some core) s.ms.layout 0 (Config.evicted s.freeCount 5)
    .next (s.setMs { s.ms with layout := layout })

/-! ## Package reset (R7, R13) -/

/-- PACKAGE_RESET (R13): every thread and team is destroyed, and registers take their reset values.  Memory
and the firmware banks keep what they hold (log entry 15). -/
def execPackageReset (s : State) : Host.Outcome State Fault Refusal :=
  .next { State.reset with
    penen := { State.reset.penen with image0 := s.penen.image0, image1 := s.penen.image1 }
    ms := { State.reset.ms with mem := s.ms.mem, poison := s.ms.poison }
    outbox := s.outbox
    agenda := s.agenda
    nextId := s.nextId
    freeCount := s.freeCount }

end Sys2Proof.Machine
end

