-- ==== Sys2Proof/Machine/Matrix.lean ====
section
/-! DEFINITION. The matrix instructions, majors 0x28 to 0x2B (R168 to R187), with their ports (R171) and
the current-ramp limiter that withholds the product port (R425, R426). -/

namespace Sys2Proof.Machine

/-! ## Fragments -/

/-- A tile or fragment operand as the signing lanes hold it: the value of register r of a lane, none for an
absent lane (R169). -/
def State.laneReg? (s : State) (l : List Signer) (lane r : Nat) : Option Word :=
  (l.find? fun g => g.1.lane.val == lane).map fun g => g.1.rd s.tick s.freeCount r

/-- Element e of a lane's block of w-bit elements from register `base` (R177); absent lanes read +0. -/
def State.element (s : State) (l : List Signer) (lane base w e : Nat) : Nat :=
  match s.laneReg? l lane (base + e * w / 32) with
  | none => 0
  | some x => bits x.toNat (e * w % 32 + w - 1) (e * w % 32)

/-- An FP32 element of a 16 × 16 tile at register `base` (R176). -/
def State.tileElem (s : State) (l : List Signer) (base i j : Nat) : FVal :=
  fp32.decode (((s.laneReg? l (2 * i + j / 8) (base + j % 8)).getD 0).toNat)

/-- The formats of the product port. -/
inductive MForm where
  | half (f : Format)
  | byte (f : Format)
  | c4 (atype btype : Nat)
  deriving DecidableEq, Repr

/-- The width of an element. -/
def MForm.width : MForm → Nat
  | .half _ => 16
  | .byte _ => 8
  | .c4 _ _ => 4

/-- Elements of a row of A in one lane: 8 of 16 bits, else 16 (R177). -/
def MForm.perLane : MForm → Nat
  | .half _ => 8
  | .byte _ | .c4 _ _ => 16

/-- The value of an element of row i of A, or of column i of B with `col` (R180, R185). -/
def MForm.value (f : MForm) (col : Bool) (i x : Nat) : FVal :=
  match f with
  | .half g | .byte g => g.decode x
  | .c4 a b => c4Value (bits (if col then b else a) (2 * i + 1) (2 * i)) x

/-! ## The pattern generator -/

/-- `sp_mix` (R179). -/
def spMix (seed i g : Nat) : Nat :=
  let x := (seed ^^^ (i * 16) ^^^ g) % 2 ^ 32
  let x := x * 0x2C1B3C6D % 2 ^ 32
  let x := x ^^^ (x / 2 ^ 12)
  let x := x * 0x297A2D39 % 2 ^ 32
  x ^^^ (x / 2 ^ 15)

/-- The kept positions of a group (R179). -/
def keptOf (idx : Nat) : Nat × Nat :=
  if idx = 0 then (0, 1) else if idx = 1 then (0, 2) else if idx = 2 then (0, 3) else if idx = 3 then (1, 2)
  else if idx = 4 then (1, 3) else (2, 3)

/-- The logical k of the n-th kept value of row i (R178, R179). -/
def keptK (seed i n : Nat) : Nat :=
  let g := n / 2
  let p := keptOf (spMix seed i g % 6)
  4 * g + (if n % 2 = 0 then p.1 else p.2)

/-! ## Products and sums -/

/-- A product with its NV flag (R180). -/
def product (a b : FVal) : FVal × FFlags :=
  (a.mul b, FFlags.invalid (zeroTimesInf a b || a.isSnan || b.isSnan))

/-- The products of element (i, j), in ascending k, with the flags they raise (R180). -/
def State.terms (s : State) (l : List Signer) (f : MForm) (a b : Nat) (sp : Bool) (seed i j : Nat) :
    List FVal × FFlags :=
  let n := f.perLane
  let bl := if sp then 2 * n else n
  (List.range (2 * n)).foldr (fun e acc =>
    let k := if sp then keptK seed i e else e
    let x := f.value false i (s.element l (2 * i + e / n) a f.width (e % n))
    let y := f.value true j (s.element l (2 * j + k / bl) b f.width (k % bl))
    let p := product x y
    (p.1 :: acc.1, p.2.join acc.2)) ([], FFlags.clear)

/-- The rounded sum of terms, as a value (R181). -/
def roundSum (l : List FVal) : FVal × FFlags :=
  let r := fp32.sum rneEnv 0 [] l false
  (fp32.decode r.1, r.2)

/-- Adds terms one by one to a running sum. -/
def runSum (start : FVal × FFlags) (l : List FVal) : FVal × FFlags :=
  l.foldl (fun acc t =>
    let r := roundSum [acc.1, t]
    (r.1, acc.2.join r.2)) start

/-- One level of the tree of SS1. -/
def pairUp : List FVal → List FVal × FFlags
  | a :: b :: rest =>
    let r := roundSum [a, b]
    let q := pairUp rest
    (r.1 :: q.1, r.2.join q.2)
  | l => (l, FFlags.clear)

/-- The tree of SS1: `fuel` levels. -/
def treeSum : Nat → List FVal × FFlags → List FVal × FFlags
  | 0, l => l
  | n + 1, l =>
    let r := pairUp l.1
    treeSum n (r.1, l.2.join r.2)

/-- The exact sums of runs of four terms (R181), with NV where infinities of opposite sign meet. -/
def fours : List FVal → List FVal × FFlags
  | a :: b :: c :: d :: rest =>
    let q := fours rest
    (sumOf false [a, b, c, d] :: q.1, (FFlags.invalid (opposed [a, b, c, d])).join q.2)
  | l => (l, FFlags.clear)

/-- Sums in order, the first term rounded alone when there is no accumulator. -/
def inOrder (c : Option FVal) (l : List FVal) : FVal × FFlags :=
  match c, l with
  | some v, _ => runSum (v, FFlags.clear) l
  | none, t :: rest => runSum (roundSum [t]) rest
  | none, [] => (.fin false 0, FFlags.clear)

/-- The finite terms among some, of one sign when it is given. -/
def finite (sign : Option Bool) (l : List FVal) : List FVal :=
  l.filter fun v => !v.isNan && !v.isInf && sign.all fun s => s == v.neg

/-- The sum of the magnitudes of finite terms, in units of 2^-298. -/
def magnitude (l : List FVal) : Nat := l.foldl (fun n v => n + v.key.natAbs) 0

/-- The greatest power of two that divides every term. -/
def grain (l : List FVal) : Nat := l.foldl (fun g v => Nat.gcd g v.key.natAbs) (2 ^ 700)

/-- Every partial sum of finite terms, in whatever order and grouping, is a multiple of their grain with at most 24
significant bits: no FP32 addition of them rounds. -/
def neverRounds (l : List FVal) : Bool :=
  decide (magnitude l ≤ 2 ^ 24 * grain l ∧ 2 ^ 149 ≤ grain l ∧ magnitude l < 2 ^ 426)

/-- Terms of one sign reach what rounds to an infinity (R104). -/
def overflows (l : List FVal) : Bool := decide (2 ^ 426 - 2 ^ 401 ≤ magnitude l)

/-- The flags that the intermediate roundings of an SS3 sum raise: free, but that no sum rounds where none can, that UF
needs a term finer than the least FP32 magnitude, OF an overflow of finite terms, and both come with NX (R104, R182, log
entry 8). -/
def looseFlags (free idx : Nat) (l : List FVal) (big : Bool) : FFlags :=
  let f := Config.ss3Flags free idx
  if neverRounds l then FFlags.clear
  else
    let uf := f.getLsbD 1 && decide (grain l < 2 ^ 149)
    let of' := f.getLsbD 2 && big
    { FFlags.clear with nx := f.getLsbD 0 || uf || of', uf := uf, of := of' }

/-- SS3 (R182): the exact sum moved by a free amount within the bound, then rounded; where no order of the additions
rounds, the exact sum (log entry 8). -/
def looseSum (free idx : Nat) (c : Option FVal) (l : List FVal) : FVal × FFlags :=
  let all := c.toList ++ l
  let terms := finite none all
  let big := fun s : Bool => overflows (finite (some s) all)
  match sumOf false all with
  | .nan _ => (.nan false, (FFlags.invalid (opposed all)).join (looseFlags free idx terms (big false || big true)))
  | .inf s => (.inf s, looseFlags free idx terms (big s))
  | .fin neg n =>
    if neverRounds terms then roundSum [.fin neg n]
    else
      let bound : Int := ((l.length + 1) * magnitude terms / 2 ^ 24 : Nat)
      let d := max (-bound) (min (Config.ss3Error free idx) bound)
      let x := (if neg then -(n : Int) else n) + d
      let r := roundSum [if d = 0 then FVal.fin neg n else FVal.fin (decide (x < 0)) x.natAbs]
      (r.1, { r.2 with nx := r.2.nx || decide (d ≠ 0) }.join (looseFlags free idx terms false))

/-- `sum_shape` (R181, R182). -/
def sumShape (ss free idx : Nat) (l : List FVal) (c : Option FVal) : FVal × FFlags :=
  if ss = 0 then inOrder c l
  else if ss = 1 then
    let t := treeSum 5 (l, FFlags.clear)
    let r := roundSum (c.toList ++ t.1)
    (r.1, t.2.join r.2)
  else if ss = 2 then
    let g := fours l
    let r := inOrder c g.1
    (r.1, g.2.join r.2)
  else looseSum free idx c l

/-- The FP32 encoding of a value that rounding has produced. -/
def encode32 (v : FVal) : Word := BitVec.ofNat 32 (fp32.round rneEnv 0 v).1

/-! ## What a matrix instruction computes -/

/-- An element of a result tile: its row, column, value and flags. -/
structure TileOut where
  i : Nat
  j : Nat
  v : Word
  flags : FFlags
  deriving DecidableEq, Repr

/-- The elements that the signing lanes hold (R176). -/
def heldElems (l : List Signer) : List (Nat × Nat) :=
  l.flatMap fun g => (List.range 8).map fun r => (g.1.lane.val / 2, 8 * (g.1.lane.val % 2) + r)

/-- The summation shape of a form: the sums of the C4 form are exact in every order, so SS3 is any of them
(R185). -/
def MForm.shape (f : MForm) (ss : Nat) : Nat :=
  match f with
  | .c4 _ _ => if ss = 3 then 0 else ss
  | .half _ | .byte _ => ss

/-- The result of a product-port form (R183 to R185). -/
def State.products (s : State) (l : List Signer) (f : MForm) (d a b ss : Nat) (sp : Bool) (seed : Nat) (acc : Bool) :
    List TileOut :=
  (heldElems l).map fun e =>
    let t := s.terms l f a b sp seed e.1 e.2
    let c := if acc then some (s.tileElem l d e.1 e.2) else none
    let r := sumShape (f.shape ss) s.freeCount (16 * e.1 + e.2) t.1 c
    let nv := match c with
      | some v => v.isSnan
      | none => false
    ⟨e.1, e.2, encode32 r.1, (t.2.join r.2).join (FFlags.invalid nv)⟩

/-- A scale of SCACC (R101, R186): NaN where it is invalid. -/
def scaleOf8 (x : Nat) : FVal := if x = 0x7F ∨ bit x 7 then .nan false else e4m3.decode x

/-- Byte i of a lane's sixteen scales at register `base` (R186). -/
def State.scaleByte (s : State) (l : List Signer) (lane base i : Nat) : Nat := s.element l lane base 8 i

/-- One element of SCACC (R186). -/
def scaleAcc (d p sa sb : FVal) : Word × FFlags :=
  let bad := sa.isNan || sb.isNan || d.isSnan || p.isSnan
  let sc := sa.mul sb
  let z := zeroTimesInf p sc
  let r := fp32.sum rneEnv 0 [d, p] [d, p.mul sc] z
  (BitVec.ofNat 32 r.1, (FFlags.invalid bad).join r.2)

/-- The result of an accumulate-port form (R186). -/
def State.accumulates (s : State) (l : List Signer) (op : SignOp) : List TileOut :=
  (heldElems l).map fun e =>
    match op with
    | .scacc d p a b =>
      let lane := 2 * e.1 + e.2 / 8
      let r := scaleAcc (s.tileElem l (8 * d.val) e.1 e.2) (s.tileElem l (8 * p.val) e.1 e.2)
        (scaleOf8 (s.scaleByte l lane (4 * a.val) e.1)) (scaleOf8 (s.scaleByte l lane (4 * b.val) e.2))
      ⟨e.1, e.2, r.1, r.2⟩
    | .accadd d p =>
      let x := s.tileElem l (8 * d.val) e.1 e.2
      let y := s.tileElem l (8 * p.val) e.1 e.2
      let r := fp32.sum rneEnv 0 [x, y] [x, y] false
      ⟨e.1, e.2, BitVec.ofNat 32 r.1, r.2⟩
    | .accmov _ p =>
      ⟨e.1, e.2, (s.laneReg? l (2 * e.1 + e.2 / 8) (8 * p.val + e.2 % 8)).getD 0, FFlags.clear⟩
    | .acczero _ | .cvsync | .elect _ | .xlane _ _ _ _ _ | .agreeP _ _ _ | .agreeMask _ _ | .agreeCount _ _ |
      .peers _ _ | .peersAll _ _ _ | .reduce _ _ _ _ _ _ | .mma _ _ _ _ _ _ | .mmaPart _ _ _ _ _ _ |
      .mmaC4 _ _ _ _ _ => ⟨e.1, e.2, 0, FFlags.clear⟩

/-! ## Ports -/

/-- The port of a matrix instruction, true for the product port, its interval and its latency (R171). -/
def matrixTiming : SignOp → Bool × Nat × Nat
  | .mma _ _ _ _ _ _ => (true, 2, 20)
  | .mmaPart _ _ _ _ _ _ => (true, 2, 18)
  | .mmaC4 _ _ _ _ _ => (true, 1, 16)
  | .scacc _ _ _ _ | .accadd _ _ => (false, 1, 8)
  | .accmov _ _ | .acczero _ | .cvsync | .elect _ | .xlane _ _ _ _ _ | .agreeP _ _ _ | .agreeMask _ _ |
    .agreeCount _ _ | .peers _ _ | .peersAll _ _ _ | .reduce _ _ _ _ _ _ => (false, 1, 4)

/-- The next acceptance cycle of a port of a slice (R171). -/
def State.portNext (s : State) (core slice : Nat) (prod : Bool) : Nat :=
  match s.power.ports.find? fun e => e.1 == core && e.2.1 == 2 * slice + b2n prod with
  | some e => e.2.2.1
  | none => 0

/-- When an instruction that a port of a slice accepts now completes: after its latency, and no earlier than those that
the port accepted before it (R171). -/
def State.portDue (s : State) (core slice : Nat) (prod : Bool) (latency : Nat) : Nat :=
  match s.power.ports.find? fun e => e.1 == core && e.2.1 == 2 * slice + b2n prod with
  | some e => max e.2.2.2 (s.tick + latency)
  | none => s.tick + latency

/-- Notes that a port has accepted an instruction, when it accepts the next one, and when this one completes. -/
def State.portTake (s : State) (core slice : Nat) (prod : Bool) (next due : Nat) : State :=
  let rest := s.power.ports.filter fun e => !(e.1 == core && e.2.1 == 2 * slice + b2n prod)
  { s with power := { s.power with ports := (core, 2 * slice + b2n prod, next, due) :: rest } }

/-- The ramp interval I of R426 in ticks: 4 µs for each unit of RAMP. -/
def State.rampInterval (s : State) : Nat := 5000 * s.regField 0xA0002000 6 0

/-- The throttle step, forced to 7 by trip 1 (R423, R427). -/
def State.throttle (s : State) : Nat := if s.power.trip1 then 7 else s.power.step

/-- The ramp limiter of a core. -/
def State.ramp? (s : State) (core : Nat) : Option Ramp := s.power.ramps.find? fun r => r.core == core

/-- Sets the ramp limiter of a core. -/
def State.setRamp (s : State) (r : Ramp) : State :=
  { s with power := { s.power with ramps := r :: s.power.ramps.filter fun x => x.core != r.core } }

/-- The limiter of a core as it meets a product-port request: a core idle for the last I starts at level 1, and the
request turns a down-ramp back (R426). -/
def State.rampRequest (s : State) (core : Nat) : Ramp :=
  match s.ramp? core with
  | some r =>
    if r.level = 0 ∨ r.lastIssue + s.rampInterval ≤ s.tick then ⟨core, 1, s.tick, s.tick, s.tick⟩
    else { r with asked := s.tick }
  | none => ⟨core, 1, s.tick, s.tick, s.tick⟩

/-- The product port may accept in this cycle (R425). -/
def State.productOpen (s : State) (r : Ramp) : Bool := decide (s.tick % 8 < min r.level (8 - s.throttle))

/-! ## MATRIX_ISSUE -/

/-- The operand header of a form (R174): the base of its quad, none for major 0x2B. -/
def headerOf : SignOp → Option Nat
  | .mma _ _ _ h _ _ | .mmaPart _ _ _ h _ _ | .mmaC4 _ _ _ h _ => some (4 * h.val)
  | .scacc _ _ _ _ | .accmov _ _ | .acczero _ | .accadd _ _ | .cvsync | .elect _ | .xlane _ _ _ _ _ |
    .agreeP _ _ _ | .agreeMask _ _ | .agreeCount _ _ | .peers _ _ | .peersAll _ _ _ | .reduce _ _ _ _ _ _ => none

/-- The header check of R175: WHY, none when it passes. -/
def headerWhy (l : Launch) (w0 : Nat) : Option Nat :=
  if bits w0 31 2 ≠ 0 then some 0
  else if bits w0 1 0 = 3 ∧ l.det then some 1
  else if !bit (field l.packet 36 1) (bits w0 1 0) then some 2
  else none

/-- The tile that a matrix instruction computes, and the first register it writes. -/
def State.matrixResult (s : State) (l : List Signer) (op : SignOp) (hdr : Nat → Nat) : Nat × List TileOut :=
  let ss := bits (hdr 0) 1 0
  match op with
  | .mma d a b _ fmt z =>
    let f : MForm := match fmt with
      | .bf16 => .half bf16
      | .f16 => .half fp16
      | .e4m3 => .byte e4m3
      | .e5m2 => .byte e5m2
    (8 * d.val, s.products l f (8 * d.val) (4 * a.val) (4 * b.val) ss false 0 (!z))
  | .mmaPart d a b _ fmt sp =>
    let f : MForm := match fmt with
      | .e4m3 => .byte e4m3
      | .e5m2 => .byte e5m2
    (8 * d.val, s.products l f (8 * d.val) (4 * a.val) (4 * b.val) ss sp (hdr 3) false)
  | .mmaC4 d a b _ sp =>
    (8 * d.val, s.products l (.c4 (hdr 1) (hdr 2)) (8 * d.val) (4 * a.val) (4 * b.val) ss sp (hdr 3) false)
  | .scacc d _ _ _ | .accmov d _ | .acczero d | .accadd d _ => (8 * d.val, s.accumulates l op)
  | .cvsync | .elect _ | .xlane _ _ _ _ _ | .agreeP _ _ _ | .agreeMask _ _ | .agreeCount _ _ | .peers _ _ |
    .peersAll _ _ _ | .reduce _ _ _ _ _ _ => (0, [])

/-- The operation of one signer: its own elements, and the flags of all of them (R170, R173).  The operations of one
instruction share a number of an issue, by which they complete together. -/
def signerOp (id issue due : Nat) (g : Signer) (base : Nat) (out : List TileOut) (flags : FFlags) : Op :=
  let mine := out.filter fun o => 2 * o.i + o.j / 8 == g.1.lane.val
  let kind := OpKind.matrix [(g.1.id, mine.map fun o => (base + o.j % 8, o.v))] (BitVec.ofNat 5 flags.code)
  { Op.mk' id g.1 kind due with issue := issue }

/-- The word at a thread's PC, when it can be fetched. -/
def State.wordHere (s : State) (c : Ctx) : Option Word :=
  match s.fetchFor c c.t.pc with
  | .ok w => some w
  | .fault _ | .miss | .bad | .held | .lost => none

/-- The convergence register of the accumulate-port word at a thread's PC, when there is one there. -/
def State.accumulateHere (s : State) (c : Ctx) : Option (Fin 16) :=
  match s.wordHere c with
  | some w => if bits w.toNat 31 26 = 0x2B then some ⟨bits w.toNat 7 4 % 16, by omega⟩ else none
  | none => none

/-- The signers of a product-port instruction were one issue group, and stand at an accumulate-port word that pairs
with it (R172): its GAP bit is 0, its register, which may be the same one, has the same group and lanes and is free now,
and its port accepts it. -/
def State.pairs (s : State) (tm : Team) (n : Fin 16) (l : List Signer) : Bool :=
  let tm := (s.team? tm.id).getD tm
  let cv := tm.conv n
  let issue := (l.head?.map fun g => g.1.issue).getD 0
  l.all fun g =>
    match s.ctx? g.1.id with
    | none => false
    | some c =>
      c.t.entered && c.t.wait == .run && c.t.place == .home && g.1.issue == issue && g.1.lastIssue == s.tick &&
        !c.t.hdr.getLsbD (1 + ((c.t.pc - c.t.cb).toNat / 4 - 1)) && decide (s.portNext tm.core c.t.slice false ≤ s.tick) &&
        (match s.accumulateHere c with
         | none => false
         | some k => (tm.conv k).state == 1 && (tm.conv k).grp == cv.grp && (tm.conv k).declared == cv.declared)

/-- The threads of a pair issue its second word in this cycle too. -/
def State.pairUp (s : State) (l : List Signer) : State :=
  l.foldl (fun s g => s.modThread g.1.id fun t => { t with ready := s.tick }) s

/-- The instruction issues (R169 to R173): every operand is read, each signer raises its flags and goes
on, and the results are written at completion. -/
def State.matrixStart (s : State) (tm : Team) (n : Fin 16) (l : List Signer) (op : SignOp) (hdr : Nat → Nat) (due : Nat) :
    State :=
  let r := s.matrixResult l op hdr
  let flags := r.2.foldl (fun f o => f.join o.flags) FFlags.clear
  let ops := l.zipIdx.map fun e => signerOp (s.nextId + e.2) s.nextId due e.1 r.1 r.2 flags
  let s := { s with ops := s.ops ++ ops, nextId := s.nextId + ops.length }
  let s := (s.modTeam tm.id fun tm => tm.setConv n (tm.conv n).next).countPm tm.id 0x04 1
  let s := l.foldl (fun s g => s.release1 g fun t => t.raise (hdrSets t.hdr)) s
  if (matrixTiming op).1 && s.pairs tm n l then s.pairUp l else s

/-- A header that fails its check: every signer traps (R175). -/
def State.matrixRefuse (s : State) (tm : Team) (n : Fin 16) (l : List Signer) (why : Nat) : State :=
  (s.modTeam tm.id fun tm => tm.setConv n (tm.conv n).next).asGroup (l.map fun g => g.1.id) fun s t =>
    s.deliver t .mmaHeader (BitVec.ofNat 64 why)

/-- The header words of the lowest declared lane (R174). -/
def State.headerWords (s : State) (l : List Signer) (op : SignOp) (k : Nat) : Nat :=
  match l, headerOf op with
  | g :: _, some base => (g.1.rd s.tick s.freeCount (base + k)).toNat
  | _, _ => 0

/-- MATRIX_ISSUE (R169, R171, R175, R425): a complete set of a matrix instruction issues once its port
accepts it. -/
def execMatrixIssue (team cv : Nat) (s : State) : Host.Outcome State Fault Refusal :=
  if h : cv < 16 then
    let n : Fin 16 := ⟨cv, h⟩
    match s.team? team, s.signers team n with
    | some tm, g :: rest =>
      let l := g :: rest
      let op := g.2.op
      if !((tm.conv n).held && op.isMatrix && l.all fun x => x.1.flagRoom (hdrSets x.1.hdr)) then .next s
      else
        match s.launch? tm.launch with
        | none => .next s
        | some ln =>
          let hdr := s.headerWords l op
          match (headerOf op).bind fun _ => headerWhy ln (hdr 0) with
          | some why => .next (s.matrixRefuse tm n l why)
          | none =>
            let t := matrixTiming op
            let due := s.portDue tm.core g.1.slice t.1 t.2.2
            let taken := fun s : State => s.portTake tm.core g.1.slice t.1 (s.tick + t.2.1) due
            if s.tick < s.portNext tm.core g.1.slice t.1 then .next s
            else if t.1 then
              let r := s.rampRequest tm.core
              if s.productOpen r then .next ((taken (s.setRamp { r with lastIssue := s.tick })).matrixStart tm n l op hdr due)
              else .next ((s.setRamp r).countPm team 0x05 1)
            else .next ((taken s).matrixStart tm n l op hdr due)
    | _, _ => .next s
  else .next s

/-- The operations of all signers of the instruction that a signer's operation belongs to (R170). -/
def State.matrixMates (s : State) (o : Op) : List Op :=
  s.ops.filter fun x =>
    match x.kind with
    | .matrix _ _ => x.issue == o.issue
    | _ => false

/-- The results and flags of one signer are written and its clause's flags lowered. -/
def State.matrixEnd (s : State) (o : Op) : State :=
  match o.kind with
  | .matrix w f => (w.foldl (fun s e => s.modThread e.1 fun t => (t.puts e.2).orCsr (f.setWidth 32)) s).endOp o
  | _ => s

/-- MATRIX_COMPLETE (R170, R173): the results of every signer are written and their flags fall, in one cycle.  Until
then a thread reads what its registers held before, and at completion the results replace what it has written there
itself (log entry 83). -/
def execMatrixComplete (op : Nat) (s : State) : Host.Outcome State Fault Refusal :=
  match s.op? op with
  | none => .next s
  | some o => .next ((s.matrixMates o).foldl State.matrixEnd s)

/-! ## The instructions -/

/-- MMA (R183). -/
def execMma (m : Mods) (d : Fin 16) (a b h : Fin 32) (f : MmaFmt) (c : Fin 16) (z : Bool) (s : State) :
    Host.Outcome State Fault Refusal :=
  s.signing m c [frag8 d] ((if z then [] else [frag8 d]) ++ [frag a 4, frag b 4, frag h 4]) (.mma d a b h f z)

/-- MMA_PART (R184). -/
def execMmaPart (m : Mods) (d : Fin 16) (a b h : Fin 32) (f : Fp8Fmt) (sp : Bool) (c : Fin 16) (s : State) :
    Host.Outcome State Fault Refusal :=
  s.signing m c [frag8 d] [frag a 4, frag b (if sp then 8 else 4), frag h 4] (.mmaPart d a b h f sp)

/-- MMA_C4 (R185). -/
def execMmaC4 (m : Mods) (d : Fin 16) (a b h : Fin 32) (sp : Bool) (c : Fin 16) (s : State) :
    Host.Outcome State Fault Refusal :=
  s.signing m c [frag8 d] [frag a 2, frag b (if sp then 4 else 2), frag h 4] (.mmaC4 d a b h sp)

/-- SCACC (R186). -/
def execScacc (m : Mods) (d p : Fin 16) (a b : Fin 32) (c : Fin 16) (s : State) : Host.Outcome State Fault Refusal :=
  s.signing m c [frag8 d] [frag8 d, frag8 p, frag a 4, frag b 4] (.scacc d p a b)

/-- ACCMOV (R186). -/
def execAccmov (m : Mods) (d p : Fin 16) (c : Fin 16) (s : State) : Host.Outcome State Fault Refusal :=
  s.signing m c [frag8 d] [frag8 p] (.accmov d p)

/-- ACCZERO (R186). -/
def execAcczero (m : Mods) (d : Fin 16) (c : Fin 16) (s : State) : Host.Outcome State Fault Refusal :=
  s.signing m c [frag8 d] [] (.acczero d)

/-- ACCADD (R186). -/
def execAccadd (m : Mods) (d p : Fin 16) (c : Fin 16) (s : State) : Host.Outcome State Fault Refusal :=
  s.signing m c [frag8 d] [frag8 d, frag8 p] (.accadd d p)

end Sys2Proof.Machine
end

