-- ==== Sys2Proof/Machine/Power.lean ====
section
/-! DEFINITION. Power control, current ramps, thermal trips and energy counts (R423 to R428).  What is
measured arrives with the step (log entry 16). -/

namespace Sys2Proof.Machine

/-- POWER_CONTROL (R423, R424, R427): the throttle step moves by one; trip 1 forces it to 7. -/
def execPowerControl (mean : Nat) (s : State) : Host.Outcome State Fault Refusal :=
  let p := s.power
  let cap := 50 * p.pcap
  let step := if p.trip1 then 7
    else if cap < mean then min 7 (p.step + 1)
    else if 10 * mean < 9 * cap then p.step - 1
    else p.step
  .next { s with power := { p with mean := mean, step := step } }

/-- The ramp level rises now (R426): the core's product ports are in use, or a request has turned the down-ramp back, and
an eighth of I has passed. -/
def State.rampUp (s : State) (r : Ramp) : Bool :=
  decide (0 < r.level ∧ r.level < 8) && decide (s.tick < max r.lastIssue r.asked + 1250) &&
    decide (r.lastMove + s.rampInterval / 8 ≤ s.tick)

/-- The ramp level falls now (R426): nothing has issued or been requested for 1 µs, and an eighth of I has passed. -/
def State.rampDown (s : State) (r : Ramp) : Bool :=
  decide (0 < r.level) && decide (max r.lastMove (max r.lastIssue r.asked + 1250) + s.rampInterval / 8 ≤ s.tick)

/-- RAMP_STEP (R426). -/
def execRampStep (core : Nat) (s : State) : Host.Outcome State Fault Refusal :=
  match s.ramp? core with
  | none => .next s
  | some r =>
    if s.rampUp r then .next (s.setRamp { r with level := r.level + 1, lastMove := s.tick })
    else if s.rampDown r then .next (s.setRamp { r with level := r.level - 1, lastMove := s.tick })
    else .next s

/-- The temperature of the hottest junction as it is measured (R424, R427): trip 1 at 105 °C forces STEP to 7, trip 2 at
115 °C stops the arithmetic clocks, and both clear below 100 °C. -/
def Power.measured (p : Power) (temp : Nat) : Power :=
  if temp < 100 then { p with temp := temp, trip1 := false, trip2 := false }
  else if temp < 105 then { p with temp := temp }
  else { p with temp := temp, trip1 := true, trip2 := p.trip2 || decide (115 ≤ temp), step := 7 }

/-- THERMAL_TRIP (R424, R427): a temperature that rises. -/
def execThermalTrip (temp : Nat) (s : State) : Host.Outcome State Fault Refusal :=
  .next { s with power := s.power.measured temp }

/-- TRIP_CLEAR (R424, R427): a temperature that falls. -/
def execTripClear (temp : Nat) (s : State) : Host.Outcome State Fault Refusal :=
  .next { s with power := s.power.measured temp }

/-- Adds the energy of one launch. -/
def State.addEnergy (s : State) (e : Nat × Nat) : State :=
  match s.launch? e.1 with
  | none => s
  | some l => s.setLaunch { l with energy := l.energy + BitVec.ofNat 64 e.2 }

/-- Adds the energy of one device in Lull. -/
def State.addLull (s : State) (e : Nat × Nat) : State :=
  if s.vdState e.1 = 3 then
    let old := (s.power.lullEnergy.lookup e.1).getD 0
    { s with power := { s.power with
        lullEnergy := (e.1, old + BitVec.ofNat 64 e.2) :: s.power.lullEnergy.filter fun x => x.1 != e.1 } }
  else s

/-- The energy measured at a place, divided among launches in proportion to what they used there, rounded down (R428, log
entry 16). -/
def shares (used : List (Nat × Nat × Nat)) (e : Nat × Nat) : List (Nat × Nat) :=
  let here := used.filter fun x => x.1 == e.1
  let total := here.foldl (fun n x => n + x.2.2) 0
  here.map fun x => (x.2.1, e.2 * x.2.2 / total)

/-- ENERGY_UPDATE (R428): the energy measured at each core is divided by issued slice cycles, that of each die's share of
the uncore by line traffic, and that of a device's segments in Lull is the device's; the counts begin anew. -/
def execEnergyUpdate (m : Measured) (lull : List (Nat × Nat)) (s : State) : Host.Outcome State Fault Refusal :=
  let spent := m.cores.flatMap (shares s.power.cycles) ++ m.dies.flatMap (shares s.power.lines)
  let s := spent.foldl (fun s e => s.addEnergy e) s
  .next (lull.foldl (fun s e => s.addLull e) { s with power := { s.power with cycles := [], lines := [] } })

end Sys2Proof.Machine
end

