-- ==== Sys2Proof/Machine/Debug.lean ====
section
/-! DEFINITION. Tagged-instruction samples (R433, R434) and the stop on a named tick (R435).  Single steps are
in Ops, replay is in Collect. -/

namespace Sys2Proof.Machine

/-! ## The stop (R435) -/

/-- STOPPED is set. -/
def State.isStopped (s : State) : Bool := bit (s.reg 0xA0003008).toNat 1

/-- The stop takes effect. -/
def State.stopNow (s : State) : State :=
  if s.halt then { s.setRegField 0xA0003008 1 1 1 with halt := false } else s

/-- STOP_TICK (R435): every event of the tick is complete. -/
def execStopTick (s : State) : Host.Outcome State Fault Refusal := .next s.stopNow

/-- TICK advances by one; an armed STOPTICK that it reaches stops the package at the end of that tick. -/
def State.nextTick (s : State) : State :=
  { s with
    tick := s.tick + 1
    halt := bit (s.reg 0xA0003008).toNat 0 && !s.isStopped && (s.reg 0xA0003000).toNat == s.tick + 1 }

/-! ## Tags (R433) -/

/-- Sampling is enabled for a device, with its exponent. -/
def State.sampling (s : State) (vd : Nat) : Option Nat :=
  if bit (s.reg (vdOff vd 0xA0)).toNat 0 then some (s.regField (vdOff vd 0xA0) 7 4) else none

/-- The number of issues before the next tag (R433): at most twice its mean. -/
def State.draw (s : State) (log : Nat) : Nat := Config.sampleDraw s.freeCount % (2 ^ (log + 9) + 1)

/-- Sets the sampler of a slice. -/
def State.setTag (s : State) (g : Tag) : State :=
  { s with tags := g :: s.tags.filter fun x => x.source != g.source }

/-- A slice issues a group (R433): the issue counts towards the next tag, or is tagged. -/
def State.tagIssue (s : State) (c : Ctx) (fetched : Nat) : State :=
  match s.sampling c.l.dev, c.t.place with
  | some log, .home =>
    let source := sliceSource c.tm.core c.t.slice
    let g := match s.tags.find? fun g => g.source == source with
      | some g => g
      | none => { source := source, countdown := s.draw log, tagged := none }
    if g.tagged.isSome then s
    else if g.countdown ≠ 0 then s.setTag { g with countdown := g.countdown - 1 }
    else
      s.setTag { source := source, countdown := s.draw log
                 tagged := some ⟨c.t.id, c.l.dev, c.t.pc, fetched, s.tick, some s.nextId, none, 0⟩ }
  | _, _ => s

/-! ## The deepest level (R434) -/

/-- The deepest level that an access of a key reaches beyond the L1. -/
def State.keyLevel (s : State) (core key : Nat) : Nat :=
  if isRemote key then 8
  else if isHost key then 7
  else if !s.ms.mscHolds (lineOf key) then (if key < 0x4000000000 then 5 else 6)
  else if homeSlice key / 96 = coreDie core then 3 else 4

/-- The deepest level that an access of n bytes reaches when its lines are looked up beyond the L1. -/
def State.homeLevel (s : State) (core : Nat) (loc : Loc) (n : Nat) : Nat :=
  (loc.keys n).foldl (fun l k => max l (s.keyLevel core k)) 0

/-- The deepest level that an access of n bytes reaches: scratch, the L1 when it ends there, or what lies beyond. -/
def State.locLevel (s : State) (core : Nat) (loc : Loc) (n : Nat) (inL1 : Bool) : Nat :=
  match loc with
  | .scr _ _ => 1
  | .mem _ u | .split _ _ _ u => if !u && inL1 then 2 else s.homeLevel core loc n

/-- The deepest level that a cache-control form reaches (R202, R203): its L1, unless it writes dirty bytes back. -/
def State.controlLevel (s : State) (core : Nat) (sc : Scope) (key : Nat) (back : Bool) : Nat :=
  if !Scope.wide sc then 0
  else if back && (s.ms.l1.any fun b => b.core == core && lineOf b.key == lineOf key && b.dirty) || sc == .sys then s.keyLevel core key
  else 2

/-- The deepest level that an operation reaches: a load ends in the L1 when it hits there, a store that the L1 takes
in it (R258), and an atomic beyond the team at its home slice (R262). -/
def State.opLevel (s : State) (core : Nat) (k : OpKind) : Nat :=
  match k with
  | .load _ n _ loc _ => s.locLevel core loc n (s.locHit core loc n)
  | .store n _ loc rel => s.locLevel core loc n (!rel.any Scope.wide)
  | .atom _ _ w loc sc _ _ _ => s.locLevel core loc (atomBytes w) (!Scope.wide sc && s.locHit core loc (atomBytes w))
  | .ldfe _ _ _ _ _ | .stfull _ _ _ _ | .fifoPop _ _ _ _ | .fifoPush _ _ _ _ => 1
  | .prefetch key l1 =>
    (match key with
     | none => 0
     | some a => if l1 && (s.ms.l1Find core a).isSome then 2 else s.keyLevel core a)
  | .wb sc key => s.controlLevel core sc key true
  | .inv sc key => s.controlLevel core sc key false
  | .wbinv sc key => s.controlLevel core sc key true
  | .ldv _ _ _ _ key => s.keyLevel core key
  | .trans _ _ | .matrix _ _ | .vpin _ _ _ | .vunpin _ | .tcopy _ | .qput _ _ _ | .coll _ | .spawn _ _ _ | .bin _ _ |
    .binrel _ | .carve _ _ _ _ => 0

/-! ## The end of a tagged instruction -/

/-- What becomes of a tagged instruction. -/
inductive TagEnd where
  | goesOn (x : Tagged)
  | dropped
  | complete (x : Tagged)
  deriving DecidableEq, Repr

/-- Follows a tagged instruction after a step.  `op` first names the lowest operation that it may issue, and
then the one it has issued.  A thread that is gone and not saved has exited, which completes its instruction. -/
def State.follow (s : State) (x : Tagged) : TagEnd :=
  match s.ctx? x.thread with
  | none => if s.saved.any fun v => v.threads.any fun t => t.id == x.thread then .dropped else .complete x
  | some c =>
    let f := c.t.frame
    if c.tm.phase != .running ∨ ((c.t.activeU ∨ c.t.activeS) ∧ f.orig.setWidth 56 = x.pc) then .dropped
    else if c.t.wait != .run ∨ c.t.held.isSome ∨ s.issuing.members.contains x.thread then .goesOn x
    else
      match x.due with
      | some d => if s.tick < d then .goesOn x else .complete x
      | none =>
        match s.ops.find? fun o => o.th == x.thread && o.word == x.pc && decide (x.op.getD 0 ≤ o.id) with
        | some o => .goesOn { x with op := some o.id, level := max x.level (s.opLevel c.tm.core o.kind) }
        | none =>
          match c.t.pend.getLast? with
          | some p => if x.issued ≤ p.due then .goesOn { x with due := some p.due } else .complete x
          | none => .complete x

/-- Posts the SAMPLE record of a tagged instruction (R434); its pipeline stages after the issue are free (log entry
12). -/
def State.postSample (s : State) (source : Nat) (x : Tagged) : State :=
  let stages := (List.range 3).flatMap fun k => toBytes 2 (min 0xFFFF (Config.sampleStage s.freeCount k))
  let r := ({ s with tick := x.fetched }).post x.dev true 0x0C 0 source
    (toBytes 7 x.pc.toNat ++ [BitVec.ofNat 8 x.level] ++ toBytes 2 (min 0xFFFF (x.issued - x.fetched)) ++ stages)
  { r with tick := s.tick }

/-- Follows the tagged instruction of one slice. -/
def State.sample (s : State) (g : Tag) : State :=
  match g.tagged with
  | none => s
  | some x =>
    match s.follow x with
    | .goesOn y => s.setTag { g with tagged := some y }
    | .dropped => s.setTag { g with tagged := none }
    | .complete y => (s.postSample g.source y).setTag { g with tagged := none }

/-- Follows every tagged instruction. -/
def State.samples (s : State) : State := s.tags.foldl (fun s g => s.sample g) s

end Sys2Proof.Machine
end

