-- ==== Sys2Proof/Machine/Dispatch.lean ====
section
/-! DEFINITION. The dispatch: one arm for each constructor of Instr. -/

namespace Sys2Proof.Machine

/-- The meaning of an instruction. -/
def exec (i : Instr) (s : State) : Host.Outcome State Fault Refusal :=
  match i with
  | .add x0 x1 x2 x3 => Sys2Proof.Machine.execAdd x0 x1 x2 x3 s
  | .sub x0 x1 x2 x3 => Sys2Proof.Machine.execSub x0 x1 x2 x3 s
  | .mul x0 x1 x2 x3 => Sys2Proof.Machine.execMul x0 x1 x2 x3 s
  | .mulhs x0 x1 x2 x3 => Sys2Proof.Machine.execMulhs x0 x1 x2 x3 s
  | .mulhu x0 x1 x2 x3 => Sys2Proof.Machine.execMulhu x0 x1 x2 x3 s
  | .mins x0 x1 x2 x3 => Sys2Proof.Machine.execMins x0 x1 x2 x3 s
  | .minu x0 x1 x2 x3 => Sys2Proof.Machine.execMinu x0 x1 x2 x3 s
  | .maxs x0 x1 x2 x3 => Sys2Proof.Machine.execMaxs x0 x1 x2 x3 s
  | .maxu x0 x1 x2 x3 => Sys2Proof.Machine.execMaxu x0 x1 x2 x3 s
  | .and x0 x1 x2 x3 => Sys2Proof.Machine.execAnd x0 x1 x2 x3 s
  | .or x0 x1 x2 x3 => Sys2Proof.Machine.execOr x0 x1 x2 x3 s
  | .xor x0 x1 x2 x3 => Sys2Proof.Machine.execXor x0 x1 x2 x3 s
  | .andn x0 x1 x2 x3 => Sys2Proof.Machine.execAndn x0 x1 x2 x3 s
  | .shl x0 x1 x2 x3 => Sys2Proof.Machine.execShl x0 x1 x2 x3 s
  | .shr x0 x1 x2 x3 => Sys2Proof.Machine.execShr x0 x1 x2 x3 s
  | .sar x0 x1 x2 x3 => Sys2Proof.Machine.execSar x0 x1 x2 x3 s
  | .rol x0 x1 x2 x3 => Sys2Proof.Machine.execRol x0 x1 x2 x3 s
  | .ror x0 x1 x2 x3 => Sys2Proof.Machine.execRor x0 x1 x2 x3 s
  | .clz x0 x1 x2 => Sys2Proof.Machine.execClz x0 x1 x2 s
  | .ffs x0 x1 x2 => Sys2Proof.Machine.execFfs x0 x1 x2 s
  | .popc x0 x1 x2 => Sys2Proof.Machine.execPopc x0 x1 x2 s
  | .brev x0 x1 x2 => Sys2Proof.Machine.execBrev x0 x1 x2 s
  | .abs x0 x1 x2 => Sys2Proof.Machine.execAbs x0 x1 x2 s
  | .neg x0 x1 x2 => Sys2Proof.Machine.execNeg x0 x1 x2 s
  | .addus x0 x1 x2 x3 => Sys2Proof.Machine.execAddus x0 x1 x2 x3 s
  | .subus x0 x1 x2 x3 => Sys2Proof.Machine.execSubus x0 x1 x2 x3 s
  | .mulws x0 x1 x2 x3 => Sys2Proof.Machine.execMulws x0 x1 x2 x3 s
  | .mulwu x0 x1 x2 x3 => Sys2Proof.Machine.execMulwu x0 x1 x2 x3 s
  | .addX2 x0 x1 x2 x3 => Sys2Proof.Machine.execAddX2 x0 x1 x2 x3 s
  | .subX2 x0 x1 x2 x3 => Sys2Proof.Machine.execSubX2 x0 x1 x2 x3 s
  | .mulX2 x0 x1 x2 x3 => Sys2Proof.Machine.execMulX2 x0 x1 x2 x3 s
  | .mulhsX2 x0 x1 x2 x3 => Sys2Proof.Machine.execMulhsX2 x0 x1 x2 x3 s
  | .mulhuX2 x0 x1 x2 x3 => Sys2Proof.Machine.execMulhuX2 x0 x1 x2 x3 s
  | .minsX2 x0 x1 x2 x3 => Sys2Proof.Machine.execMinsX2 x0 x1 x2 x3 s
  | .minuX2 x0 x1 x2 x3 => Sys2Proof.Machine.execMinuX2 x0 x1 x2 x3 s
  | .maxsX2 x0 x1 x2 x3 => Sys2Proof.Machine.execMaxsX2 x0 x1 x2 x3 s
  | .maxuX2 x0 x1 x2 x3 => Sys2Proof.Machine.execMaxuX2 x0 x1 x2 x3 s
  | .andX2 x0 x1 x2 x3 => Sys2Proof.Machine.execAndX2 x0 x1 x2 x3 s
  | .orX2 x0 x1 x2 x3 => Sys2Proof.Machine.execOrX2 x0 x1 x2 x3 s
  | .xorX2 x0 x1 x2 x3 => Sys2Proof.Machine.execXorX2 x0 x1 x2 x3 s
  | .andnX2 x0 x1 x2 x3 => Sys2Proof.Machine.execAndnX2 x0 x1 x2 x3 s
  | .shlX2 x0 x1 x2 x3 => Sys2Proof.Machine.execShlX2 x0 x1 x2 x3 s
  | .shrX2 x0 x1 x2 x3 => Sys2Proof.Machine.execShrX2 x0 x1 x2 x3 s
  | .sarX2 x0 x1 x2 x3 => Sys2Proof.Machine.execSarX2 x0 x1 x2 x3 s
  | .rolX2 x0 x1 x2 x3 => Sys2Proof.Machine.execRolX2 x0 x1 x2 x3 s
  | .rorX2 x0 x1 x2 x3 => Sys2Proof.Machine.execRorX2 x0 x1 x2 x3 s
  | .clzX2 x0 x1 x2 => Sys2Proof.Machine.execClzX2 x0 x1 x2 s
  | .ffsX2 x0 x1 x2 => Sys2Proof.Machine.execFfsX2 x0 x1 x2 s
  | .popcX2 x0 x1 x2 => Sys2Proof.Machine.execPopcX2 x0 x1 x2 s
  | .brevX2 x0 x1 x2 => Sys2Proof.Machine.execBrevX2 x0 x1 x2 s
  | .absX2 x0 x1 x2 => Sys2Proof.Machine.execAbsX2 x0 x1 x2 s
  | .negX2 x0 x1 x2 => Sys2Proof.Machine.execNegX2 x0 x1 x2 s
  | .addusX2 x0 x1 x2 x3 => Sys2Proof.Machine.execAddusX2 x0 x1 x2 x3 s
  | .subusX2 x0 x1 x2 x3 => Sys2Proof.Machine.execSubusX2 x0 x1 x2 x3 s
  | .addX4 x0 x1 x2 x3 => Sys2Proof.Machine.execAddX4 x0 x1 x2 x3 s
  | .subX4 x0 x1 x2 x3 => Sys2Proof.Machine.execSubX4 x0 x1 x2 x3 s
  | .mulX4 x0 x1 x2 x3 => Sys2Proof.Machine.execMulX4 x0 x1 x2 x3 s
  | .mulhsX4 x0 x1 x2 x3 => Sys2Proof.Machine.execMulhsX4 x0 x1 x2 x3 s
  | .mulhuX4 x0 x1 x2 x3 => Sys2Proof.Machine.execMulhuX4 x0 x1 x2 x3 s
  | .minsX4 x0 x1 x2 x3 => Sys2Proof.Machine.execMinsX4 x0 x1 x2 x3 s
  | .minuX4 x0 x1 x2 x3 => Sys2Proof.Machine.execMinuX4 x0 x1 x2 x3 s
  | .maxsX4 x0 x1 x2 x3 => Sys2Proof.Machine.execMaxsX4 x0 x1 x2 x3 s
  | .maxuX4 x0 x1 x2 x3 => Sys2Proof.Machine.execMaxuX4 x0 x1 x2 x3 s
  | .andX4 x0 x1 x2 x3 => Sys2Proof.Machine.execAndX4 x0 x1 x2 x3 s
  | .orX4 x0 x1 x2 x3 => Sys2Proof.Machine.execOrX4 x0 x1 x2 x3 s
  | .xorX4 x0 x1 x2 x3 => Sys2Proof.Machine.execXorX4 x0 x1 x2 x3 s
  | .andnX4 x0 x1 x2 x3 => Sys2Proof.Machine.execAndnX4 x0 x1 x2 x3 s
  | .shlX4 x0 x1 x2 x3 => Sys2Proof.Machine.execShlX4 x0 x1 x2 x3 s
  | .shrX4 x0 x1 x2 x3 => Sys2Proof.Machine.execShrX4 x0 x1 x2 x3 s
  | .sarX4 x0 x1 x2 x3 => Sys2Proof.Machine.execSarX4 x0 x1 x2 x3 s
  | .rolX4 x0 x1 x2 x3 => Sys2Proof.Machine.execRolX4 x0 x1 x2 x3 s
  | .rorX4 x0 x1 x2 x3 => Sys2Proof.Machine.execRorX4 x0 x1 x2 x3 s
  | .clzX4 x0 x1 x2 => Sys2Proof.Machine.execClzX4 x0 x1 x2 s
  | .ffsX4 x0 x1 x2 => Sys2Proof.Machine.execFfsX4 x0 x1 x2 s
  | .popcX4 x0 x1 x2 => Sys2Proof.Machine.execPopcX4 x0 x1 x2 s
  | .brevX4 x0 x1 x2 => Sys2Proof.Machine.execBrevX4 x0 x1 x2 s
  | .absX4 x0 x1 x2 => Sys2Proof.Machine.execAbsX4 x0 x1 x2 s
  | .negX4 x0 x1 x2 => Sys2Proof.Machine.execNegX4 x0 x1 x2 s
  | .addusX4 x0 x1 x2 x3 => Sys2Proof.Machine.execAddusX4 x0 x1 x2 x3 s
  | .subusX4 x0 x1 x2 x3 => Sys2Proof.Machine.execSubusX4 x0 x1 x2 x3 s
  | .add64 x0 x1 x2 x3 => Sys2Proof.Machine.execAdd64 x0 x1 x2 x3 s
  | .sub64 x0 x1 x2 x3 => Sys2Proof.Machine.execSub64 x0 x1 x2 x3 s
  | .mul64 x0 x1 x2 x3 => Sys2Proof.Machine.execMul64 x0 x1 x2 x3 s
  | .mulhs64 x0 x1 x2 x3 => Sys2Proof.Machine.execMulhs64 x0 x1 x2 x3 s
  | .mulhu64 x0 x1 x2 x3 => Sys2Proof.Machine.execMulhu64 x0 x1 x2 x3 s
  | .mins64 x0 x1 x2 x3 => Sys2Proof.Machine.execMins64 x0 x1 x2 x3 s
  | .minu64 x0 x1 x2 x3 => Sys2Proof.Machine.execMinu64 x0 x1 x2 x3 s
  | .maxs64 x0 x1 x2 x3 => Sys2Proof.Machine.execMaxs64 x0 x1 x2 x3 s
  | .maxu64 x0 x1 x2 x3 => Sys2Proof.Machine.execMaxu64 x0 x1 x2 x3 s
  | .and64 x0 x1 x2 x3 => Sys2Proof.Machine.execAnd64 x0 x1 x2 x3 s
  | .or64 x0 x1 x2 x3 => Sys2Proof.Machine.execOr64 x0 x1 x2 x3 s
  | .xor64 x0 x1 x2 x3 => Sys2Proof.Machine.execXor64 x0 x1 x2 x3 s
  | .andn64 x0 x1 x2 x3 => Sys2Proof.Machine.execAndn64 x0 x1 x2 x3 s
  | .shl64 x0 x1 x2 x3 => Sys2Proof.Machine.execShl64 x0 x1 x2 x3 s
  | .shr64 x0 x1 x2 x3 => Sys2Proof.Machine.execShr64 x0 x1 x2 x3 s
  | .sar64 x0 x1 x2 x3 => Sys2Proof.Machine.execSar64 x0 x1 x2 x3 s
  | .rol64 x0 x1 x2 x3 => Sys2Proof.Machine.execRol64 x0 x1 x2 x3 s
  | .ror64 x0 x1 x2 x3 => Sys2Proof.Machine.execRor64 x0 x1 x2 x3 s
  | .clz64 x0 x1 x2 => Sys2Proof.Machine.execClz64 x0 x1 x2 s
  | .ffs64 x0 x1 x2 => Sys2Proof.Machine.execFfs64 x0 x1 x2 s
  | .popc64 x0 x1 x2 => Sys2Proof.Machine.execPopc64 x0 x1 x2 s
  | .brev64 x0 x1 x2 => Sys2Proof.Machine.execBrev64 x0 x1 x2 s
  | .abs64 x0 x1 x2 => Sys2Proof.Machine.execAbs64 x0 x1 x2 s
  | .neg64 x0 x1 x2 => Sys2Proof.Machine.execNeg64 x0 x1 x2 s
  | .addus64 x0 x1 x2 x3 => Sys2Proof.Machine.execAddus64 x0 x1 x2 x3 s
  | .subus64 x0 x1 x2 x3 => Sys2Proof.Machine.execSubus64 x0 x1 x2 x3 s
  | .addi x0 x1 x2 x3 => Sys2Proof.Machine.execAddi x0 x1 x2 x3 s
  | .muli x0 x1 x2 x3 => Sys2Proof.Machine.execMuli x0 x1 x2 x3 s
  | .andi x0 x1 x2 x3 => Sys2Proof.Machine.execAndi x0 x1 x2 x3 s
  | .ori x0 x1 x2 x3 => Sys2Proof.Machine.execOri x0 x1 x2 x3 s
  | .xori x0 x1 x2 x3 => Sys2Proof.Machine.execXori x0 x1 x2 x3 s
  | .shli x0 x1 x2 x3 => Sys2Proof.Machine.execShli x0 x1 x2 x3 s
  | .shri x0 x1 x2 x3 => Sys2Proof.Machine.execShri x0 x1 x2 x3 s
  | .sari x0 x1 x2 x3 => Sys2Proof.Machine.execSari x0 x1 x2 x3 s
  | .addi64 x0 x1 x2 x3 => Sys2Proof.Machine.execAddi64 x0 x1 x2 x3 s
  | .muli64 x0 x1 x2 x3 => Sys2Proof.Machine.execMuli64 x0 x1 x2 x3 s
  | .andi64 x0 x1 x2 x3 => Sys2Proof.Machine.execAndi64 x0 x1 x2 x3 s
  | .ori64 x0 x1 x2 x3 => Sys2Proof.Machine.execOri64 x0 x1 x2 x3 s
  | .xori64 x0 x1 x2 x3 => Sys2Proof.Machine.execXori64 x0 x1 x2 x3 s
  | .shli64 x0 x1 x2 x3 => Sys2Proof.Machine.execShli64 x0 x1 x2 x3 s
  | .shri64 x0 x1 x2 x3 => Sys2Proof.Machine.execShri64 x0 x1 x2 x3 s
  | .sari64 x0 x1 x2 x3 => Sys2Proof.Machine.execSari64 x0 x1 x2 x3 s
  | .bfez x0 x1 x2 x3 x4 => Sys2Proof.Machine.execBfez x0 x1 x2 x3 x4 s
  | .bfes x0 x1 x2 x3 x4 => Sys2Proof.Machine.execBfes x0 x1 x2 x3 x4 s
  | .bfi x0 x1 x2 x3 x4 => Sys2Proof.Machine.execBfi x0 x1 x2 x3 x4 s
  | .movi x0 x1 x2 => Sys2Proof.Machine.execMovi x0 x1 x2 s
  | .movdi x0 x1 x2 => Sys2Proof.Machine.execMovdi x0 x1 x2 s
  | .leai x0 x1 x2 x3 => Sys2Proof.Machine.execLeai x0 x1 x2 x3 s
  | .mov x0 x1 x2 => Sys2Proof.Machine.execMov x0 x1 x2 s
  | .movd x0 x1 x2 => Sys2Proof.Machine.execMovd x0 x1 x2 s
  | .movq x0 x1 x2 => Sys2Proof.Machine.execMovq x0 x1 x2 s
  | .leas x0 x1 x2 x3 x4 => Sys2Proof.Machine.execLeas x0 x1 x2 x3 x4 s
  | .leaz x0 x1 x2 x3 x4 => Sys2Proof.Machine.execLeaz x0 x1 x2 x3 x4 s
  | .mad x0 x1 x2 x3 => Sys2Proof.Machine.execMad x0 x1 x2 x3 s
  | .madws x0 x1 x2 x3 => Sys2Proof.Machine.execMadws x0 x1 x2 x3 s
  | .madwu x0 x1 x2 x3 => Sys2Proof.Machine.execMadwu x0 x1 x2 x3 s
  | .dp4s x0 x1 x2 x3 => Sys2Proof.Machine.execDp4s x0 x1 x2 x3 s
  | .dp4u x0 x1 x2 x3 => Sys2Proof.Machine.execDp4u x0 x1 x2 x3 s
  | .cmp x0 x1 x2 x3 x4 x5 => Sys2Proof.Machine.execCmp x0 x1 x2 x3 x4 x5 s
  | .cmpImm x0 x1 x2 x3 x4 x5 => Sys2Proof.Machine.execCmpImm x0 x1 x2 x3 x4 x5 s
  | .sel x0 x1 x2 x3 x4 x5 x6 => Sys2Proof.Machine.execSel x0 x1 x2 x3 x4 x5 x6 s
  | .pand x0 x1 x2 x3 x4 x5 => Sys2Proof.Machine.execPand x0 x1 x2 x3 x4 x5 s
  | .por x0 x1 x2 x3 x4 x5 => Sys2Proof.Machine.execPor x0 x1 x2 x3 x4 x5 s
  | .pxor x0 x1 x2 x3 x4 x5 => Sys2Proof.Machine.execPxor x0 x1 x2 x3 x4 x5 s
  | .p2g x0 x1 => Sys2Proof.Machine.execP2g x0 x1 s
  | .g2p x0 x1 => Sys2Proof.Machine.execG2p x0 x1 s
  | .bra x0 x1 x2 x3 => Sys2Proof.Machine.execBra x0 x1 x2 x3 s
  | .call x0 x1 x2 x3 => Sys2Proof.Machine.execCall x0 x1 x2 x3 s
  | .loop x0 x1 x2 x3 => Sys2Proof.Machine.execLoop x0 x1 x2 x3 s
  | .lbrk x0 x1 => Sys2Proof.Machine.execLbrk x0 x1 s
  | .jmp x0 x1 x2 x3 => Sys2Proof.Machine.execJmp x0 x1 x2 x3 s
  | .calli x0 x1 x2 x3 => Sys2Proof.Machine.execCalli x0 x1 x2 x3 s
  | .ret x0 x1 x2 => Sys2Proof.Machine.execRet x0 x1 x2 s
  | .join x0 x1 x2 => Sys2Proof.Machine.execJoin x0 x1 x2 s
  | .yield x0 x1 x2 => Sys2Proof.Machine.execYield x0 x1 x2 s
  | .sleep x0 x1 x2 x3 => Sys2Proof.Machine.execSleep x0 x1 x2 x3 s
  | .exit x0 x1 x2 => Sys2Proof.Machine.execExit x0 x1 x2 s
  | .beq x0 x1 x2 x3 => Sys2Proof.Machine.execBeq x0 x1 x2 x3 s
  | .bne x0 x1 x2 x3 => Sys2Proof.Machine.execBne x0 x1 x2 x3 s
  | .blt x0 x1 x2 x3 => Sys2Proof.Machine.execBlt x0 x1 x2 x3 s
  | .bge x0 x1 x2 x3 => Sys2Proof.Machine.execBge x0 x1 x2 x3 s
  | .bltu x0 x1 x2 x3 => Sys2Proof.Machine.execBltu x0 x1 x2 x3 s
  | .bgeu x0 x1 x2 x3 => Sys2Proof.Machine.execBgeu x0 x1 x2 x3 s
  | .fadd x0 x1 x2 x3 => Sys2Proof.Machine.execFadd x0 x1 x2 x3 s
  | .fsub x0 x1 x2 x3 => Sys2Proof.Machine.execFsub x0 x1 x2 x3 s
  | .fmul x0 x1 x2 x3 => Sys2Proof.Machine.execFmul x0 x1 x2 x3 s
  | .fma x0 x1 x2 x3 => Sys2Proof.Machine.execFma x0 x1 x2 x3 s
  | .fmin x0 x1 x2 x3 => Sys2Proof.Machine.execFmin x0 x1 x2 x3 s
  | .fmax x0 x1 x2 x3 => Sys2Proof.Machine.execFmax x0 x1 x2 x3 s
  | .fminnum x0 x1 x2 x3 => Sys2Proof.Machine.execFminnum x0 x1 x2 x3 s
  | .fmaxnum x0 x1 x2 x3 => Sys2Proof.Machine.execFmaxnum x0 x1 x2 x3 s
  | .fabs x0 x1 x2 => Sys2Proof.Machine.execFabs x0 x1 x2 s
  | .fneg x0 x1 x2 => Sys2Proof.Machine.execFneg x0 x1 x2 s
  | .fclass x0 x1 x2 => Sys2Proof.Machine.execFclass x0 x1 x2 s
  | .fcopysign x0 x1 x2 x3 => Sys2Proof.Machine.execFcopysign x0 x1 x2 x3 s
  | .fscale x0 x1 x2 x3 => Sys2Proof.Machine.execFscale x0 x1 x2 x3 s
  | .faddX2 x0 x1 x2 x3 x4 => Sys2Proof.Machine.execFaddX2 x0 x1 x2 x3 x4 s
  | .fsubX2 x0 x1 x2 x3 x4 => Sys2Proof.Machine.execFsubX2 x0 x1 x2 x3 x4 s
  | .fmulX2 x0 x1 x2 x3 x4 => Sys2Proof.Machine.execFmulX2 x0 x1 x2 x3 x4 s
  | .fmaX2 x0 x1 x2 x3 x4 => Sys2Proof.Machine.execFmaX2 x0 x1 x2 x3 x4 s
  | .fminX2 x0 x1 x2 x3 x4 => Sys2Proof.Machine.execFminX2 x0 x1 x2 x3 x4 s
  | .fmaxX2 x0 x1 x2 x3 x4 => Sys2Proof.Machine.execFmaxX2 x0 x1 x2 x3 x4 s
  | .fabsX2 x0 x1 x2 x3 => Sys2Proof.Machine.execFabsX2 x0 x1 x2 x3 s
  | .fnegX2 x0 x1 x2 x3 => Sys2Proof.Machine.execFnegX2 x0 x1 x2 x3 s
  | .dot2 x0 x1 x2 x3 x4 => Sys2Proof.Machine.execDot2 x0 x1 x2 x3 x4 s
  | .rcp x0 x1 x2 => Sys2Proof.Machine.execRcp x0 x1 x2 s
  | .rsq x0 x1 x2 => Sys2Proof.Machine.execRsq x0 x1 x2 s
  | .sqrt x0 x1 x2 => Sys2Proof.Machine.execSqrt x0 x1 x2 s
  | .ex2 x0 x1 x2 => Sys2Proof.Machine.execEx2 x0 x1 x2 s
  | .lg2 x0 x1 x2 => Sys2Proof.Machine.execLg2 x0 x1 x2 s
  | .sin x0 x1 x2 => Sys2Proof.Machine.execSin x0 x1 x2 s
  | .cos x0 x1 x2 => Sys2Proof.Machine.execCos x0 x1 x2 s
  | .tanh x0 x1 x2 => Sys2Proof.Machine.execTanh x0 x1 x2 s
  | .div x0 x1 x2 x3 => Sys2Proof.Machine.execDiv x0 x1 x2 x3 s
  | .cvt x0 x1 x2 x3 x4 x5 x6 => Sys2Proof.Machine.execCvt x0 x1 x2 x3 x4 x5 x6 s
  | .qc4 x0 x1 x2 x3 => Sys2Proof.Machine.execQc4 x0 x1 x2 x3 s
  | .dqc4 x0 x1 x2 x3 => Sys2Proof.Machine.execDqc4 x0 x1 x2 x3 s
  | .rand x0 x1 x2 x3 => Sys2Proof.Machine.execRand x0 x1 x2 x3 s
  | .randf x0 x1 x2 x3 => Sys2Proof.Machine.execRandf x0 x1 x2 x3 s
  | .xlane x0 x1 x2 x3 x4 x5 x6 => Sys2Proof.Machine.execXlane x0 x1 x2 x3 x4 x5 x6 s
  | .agreeAll x0 x1 x2 x3 => Sys2Proof.Machine.execAgreeAll x0 x1 x2 x3 s
  | .agreeSome x0 x1 x2 x3 => Sys2Proof.Machine.execAgreeSome x0 x1 x2 x3 s
  | .agreeSame x0 x1 x2 x3 => Sys2Proof.Machine.execAgreeSame x0 x1 x2 x3 s
  | .agreeMask x0 x1 x2 x3 => Sys2Proof.Machine.execAgreeMask x0 x1 x2 x3 s
  | .peers x0 x1 x2 x3 => Sys2Proof.Machine.execPeers x0 x1 x2 x3 s
  | .peersAll x0 x1 x2 x3 x4 => Sys2Proof.Machine.execPeersAll x0 x1 x2 x3 x4 s
  | .agreeCount x0 x1 x2 x3 => Sys2Proof.Machine.execAgreeCount x0 x1 x2 x3 s
  | .gred x0 x1 x2 x3 x4 x5 x6 => Sys2Proof.Machine.execGred x0 x1 x2 x3 x4 x5 x6 s
  | .gscan x0 x1 x2 x3 x4 x5 x6 => Sys2Proof.Machine.execGscan x0 x1 x2 x3 x4 x5 x6 s
  | .gscanx x0 x1 x2 x3 x4 x5 x6 => Sys2Proof.Machine.execGscanx x0 x1 x2 x3 x4 x5 x6 s
  | .mma x0 x1 x2 x3 x4 x5 x6 x7 => Sys2Proof.Machine.execMma x0 x1 x2 x3 x4 x5 x6 x7 s
  | .mmaPart x0 x1 x2 x3 x4 x5 x6 x7 => Sys2Proof.Machine.execMmaPart x0 x1 x2 x3 x4 x5 x6 x7 s
  | .mmaC4 x0 x1 x2 x3 x4 x5 x6 => Sys2Proof.Machine.execMmaC4 x0 x1 x2 x3 x4 x5 x6 s
  | .scacc x0 x1 x2 x3 x4 x5 => Sys2Proof.Machine.execScacc x0 x1 x2 x3 x4 x5 s
  | .accmov x0 x1 x2 x3 => Sys2Proof.Machine.execAccmov x0 x1 x2 x3 s
  | .acczero x0 x1 x2 => Sys2Proof.Machine.execAcczero x0 x1 x2 s
  | .accadd x0 x1 x2 x3 => Sys2Proof.Machine.execAccadd x0 x1 x2 x3 s
  | .ld x0 x1 x2 x3 x4 x5 => Sys2Proof.Machine.execLd x0 x1 x2 x3 x4 x5 s
  | .st x0 x1 x2 x3 x4 x5 => Sys2Proof.Machine.execSt x0 x1 x2 x3 x4 x5 s
  | .ldAcq x0 x1 x2 x3 x4 x5 => Sys2Proof.Machine.execLdAcq x0 x1 x2 x3 x4 x5 s
  | .stRel x0 x1 x2 x3 x4 x5 => Sys2Proof.Machine.execStRel x0 x1 x2 x3 x4 x5 s
  | .ldfe x0 x1 x2 x3 x4 => Sys2Proof.Machine.execLdfe x0 x1 x2 x3 x4 s
  | .ldfec x0 x1 x2 x3 x4 => Sys2Proof.Machine.execLdfec x0 x1 x2 x3 x4 s
  | .stfull x0 x1 x2 x3 x4 => Sys2Proof.Machine.execStfull x0 x1 x2 x3 x4 s
  | .ldfifo x0 x1 x2 x3 => Sys2Proof.Machine.execLdfifo x0 x1 x2 x3 s
  | .stfifo x0 x1 x2 x3 => Sys2Proof.Machine.execStfifo x0 x1 x2 x3 s
  | .pfL1 x0 x1 x2 => Sys2Proof.Machine.execPfL1 x0 x1 x2 s
  | .pfMsc x0 x1 x2 => Sys2Proof.Machine.execPfMsc x0 x1 x2 s
  | .wb x0 x1 x2 x3 => Sys2Proof.Machine.execWb x0 x1 x2 x3 s
  | .inv x0 x1 x2 x3 => Sys2Proof.Machine.execInv x0 x1 x2 x3 s
  | .wbinv x0 x1 x2 x3 => Sys2Proof.Machine.execWbinv x0 x1 x2 x3 s
  | .atom x0 x1 x2 x3 x4 x5 x6 x7 => Sys2Proof.Machine.execAtom x0 x1 x2 x3 x4 x5 x6 x7 s
  | .red x0 x1 x2 x3 x4 x5 x6 x7 => Sys2Proof.Machine.execRed x0 x1 x2 x3 x4 x5 x6 x7 s
  | .fence x0 x1 => Sys2Proof.Machine.execFence x0 x1 s
  | .fenceAcq x0 x1 => Sys2Proof.Machine.execFenceAcq x0 x1 s
  | .fenceRel x0 x1 => Sys2Proof.Machine.execFenceRel x0 x1 s
  | .tlfence x0 x1 => Sys2Proof.Machine.execTlfence x0 x1 s
  | .barInitImm x0 x1 x2 => Sys2Proof.Machine.execBarInitImm x0 x1 x2 s
  | .barInitReg x0 x1 x2 => Sys2Proof.Machine.execBarInitReg x0 x1 x2 s
  | .barArr x0 x1 => Sys2Proof.Machine.execBarArr x0 x1 s
  | .barWait x0 x1 => Sys2Proof.Machine.execBarWait x0 x1 s
  | .barSync x0 x1 => Sys2Proof.Machine.execBarSync x0 x1 s
  | .cvdeclImm x0 x1 x2 => Sys2Proof.Machine.execCvdeclImm x0 x1 x2 s
  | .cvdeclReg x0 x1 x2 => Sys2Proof.Machine.execCvdeclReg x0 x1 x2 s
  | .cvsync x0 x1 => Sys2Proof.Machine.execCvsync x0 x1 s
  | .elect x0 x1 x2 => Sys2Proof.Machine.execElect x0 x1 x2 s
  | .release x0 x1 => Sys2Proof.Machine.execRelease x0 x1 s
  | .ldvMin x0 x1 x2 x3 x4 => Sys2Proof.Machine.execLdvMin x0 x1 x2 x3 x4 s
  | .ldvAt x0 x1 x2 x3 x4 => Sys2Proof.Machine.execLdvAt x0 x1 x2 x3 x4 s
  | .vpin x0 x1 x2 x3 => Sys2Proof.Machine.execVpin x0 x1 x2 x3 s
  | .vunpin x0 x1 => Sys2Proof.Machine.execVunpin x0 x1 s
  | .stepAdv x0 x1 => Sys2Proof.Machine.execStepAdv x0 x1 s
  | .rgnB x0 x1 x2 => Sys2Proof.Machine.execRgnB x0 x1 x2 s
  | .rgnE x0 => Sys2Proof.Machine.execRgnE x0 s
  | .tkwait x0 => Sys2Proof.Machine.execTkwait x0 s
  | .tkpass x0 => Sys2Proof.Machine.execTkpass x0 s
  | .tcopy x0 x1 x2 => Sys2Proof.Machine.execTcopy x0 x1 x2 s
  | .qput x0 x1 x2 => Sys2Proof.Machine.execQput x0 x1 x2 s
  | .coll x0 x1 x2 x3 => Sys2Proof.Machine.execColl x0 x1 x2 x3 s
  | .spawn x0 x1 x2 => Sys2Proof.Machine.execSpawn x0 x1 x2 s
  | .bin x0 x1 x2 x3 => Sys2Proof.Machine.execBin x0 x1 x2 x3 s
  | .binrel x0 x1 => Sys2Proof.Machine.execBinrel x0 x1 s
  | .carve x0 x1 x2 x3 => Sys2Proof.Machine.execCarve x0 x1 x2 x3 s
  | .mfs x0 x1 x2 => Sys2Proof.Machine.execMfs x0 x1 x2 s
  | .mts x0 x1 x2 => Sys2Proof.Machine.execMts x0 x1 x2 s
  | .trap x0 x1 => Sys2Proof.Machine.execTrap x0 x1 s
  | .tret x0 => Sys2Proof.Machine.execTret x0 s
  | .tretSkip x0 => Sys2Proof.Machine.execTretSkip x0 s
  | .enrd x0 x1 x2 => Sys2Proof.Machine.execEnrd x0 x1 x2 s
  | .brk x0 x1 => Sys2Proof.Machine.execBrk x0 x1 s
  | .clauseStart x0 => Sys2Proof.Machine.execClauseStart x0 s
  | .laneResultWrite x0 => Sys2Proof.Machine.execLaneResultWrite x0 s
  | .ejectHandover x0 => Sys2Proof.Machine.execEjectHandover x0 s
  | .recall x0 => Sys2Proof.Machine.execRecall x0 s
  | .recallComplete x0 => Sys2Proof.Machine.execRecallComplete x0 s
  | .joinTimeout x0 => Sys2Proof.Machine.execJoinTimeout x0 s
  | .sleepExpire x0 => Sys2Proof.Machine.execSleepExpire x0 s
  | .memoryOpComplete x0 => Sys2Proof.Machine.execMemoryOpComplete x0 s
  | .transcendentalComplete x0 => Sys2Proof.Machine.execTranscendentalComplete x0 s
  | .matrixIssue x0 x1 => Sys2Proof.Machine.execMatrixIssue x0 x1 s
  | .matrixComplete x0 => Sys2Proof.Machine.execMatrixComplete x0 s
  | .teamFreeze x0 => Sys2Proof.Machine.execTeamFreeze x0 s
  | .accessFailure x0 => Sys2Proof.Machine.execAccessFailure x0 s
  | .regionRestart x0 => Sys2Proof.Machine.execRegionRestart x0 s
  | .pageWalk x0 => Sys2Proof.Machine.execPageWalk x0 s
  | .xlinv x0 => Sys2Proof.Machine.execXlinv x0 s
  | .xlinvComplete x0 => Sys2Proof.Machine.execXlinvComplete x0 s
  | .preemption x0 => Sys2Proof.Machine.execPreemption x0 s
  | .teamSave x0 => Sys2Proof.Machine.execTeamSave x0 s
  | .teamRestore x0 => Sys2Proof.Machine.execTeamRestore x0 s
  | .versionTimeout x0 => Sys2Proof.Machine.execVersionTimeout x0 s
  | .installFrameTake x0 => Sys2Proof.Machine.execInstallFrameTake x0 s
  | .installComplete x0 => Sys2Proof.Machine.execInstallComplete x0 s
  | .installStall x0 => Sys2Proof.Machine.execInstallStall x0 s
  | .vcreate x0 => Sys2Proof.Machine.execVcreate x0 s
  | .vdestroy x0 => Sys2Proof.Machine.execVdestroy x0 s
  | .vdestroyComplete x0 => Sys2Proof.Machine.execVdestroyComplete x0 s
  | .worker x0 => Sys2Proof.Machine.execWorker x0 s
  | .progressMessage x0 x1 x2 => Sys2Proof.Machine.execProgressMessage x0 x1 x2 s
  | .leaveMessage x0 x1 => Sys2Proof.Machine.execLeaveMessage x0 x1 s
  | .heartbeat x0 => Sys2Proof.Machine.execHeartbeat x0 s
  | .peerSilent x0 => Sys2Proof.Machine.execPeerSilent x0 s
  | .kick x0 x1 x2 => Sys2Proof.Machine.execKick x0 x1 x2 s
  | .queueReread x0 => Sys2Proof.Machine.execQueueReread x0 s
  | .launch x0 => Sys2Proof.Machine.execLaunch x0 s
  | .nop x0 => Sys2Proof.Machine.execNop x0 s
  | .copy x0 => Sys2Proof.Machine.execCopy x0 s
  | .qcreate x0 => Sys2Proof.Machine.execQcreate x0 s
  | .placement x0 => Sys2Proof.Machine.execPlacement x0 s
  | .spawnDescriptor x0 => Sys2Proof.Machine.execSpawnDescriptor x0 s
  | .launchComplete x0 => Sys2Proof.Machine.execLaunchComplete x0 s
  | .qputSlotWrite x0 => Sys2Proof.Machine.execQputSlotWrite x0 s
  | .carveComplete x0 => Sys2Proof.Machine.execCarveComplete x0 s
  | .dirtyWriteback x0 x1 => Sys2Proof.Machine.execDirtyWriteback x0 x1 s
  | .hostAccess x0 x1 x2 => Sys2Proof.Machine.execHostAccess x0 x1 x2 s
  | .hostBar2Access x0 x1 x2 x3 => Sys2Proof.Machine.execHostBar2Access x0 x1 x2 x3 s
  | .hostSnoop x0 x1 => Sys2Proof.Machine.execHostSnoop x0 x1 s
  | .podRemoteRequest x0 x1 x2 x3 => Sys2Proof.Machine.execPodRemoteRequest x0 x1 x2 x3 s
  | .remoteDeadline x0 => Sys2Proof.Machine.execRemoteDeadline x0 s
  | .planeDown x0 => Sys2Proof.Machine.execPlaneDown x0 s
  | .plmapWrite x0 => Sys2Proof.Machine.execPlmapWrite x0 s
  | .plmapEffect => Sys2Proof.Machine.execPlmapEffect s
  | .transportAbandon x0 => Sys2Proof.Machine.execTransportAbandon x0 s
  | .tcopyAccept x0 => Sys2Proof.Machine.execTcopyAccept x0 s
  | .tcopyComplete x0 => Sys2Proof.Machine.execTcopyComplete x0 s
  | .queueCopyComplete x0 => Sys2Proof.Machine.execQueueCopyComplete x0 s
  | .binrelRelease x0 => Sys2Proof.Machine.execBinrelRelease x0 s
  | .collContributionRead x0 => Sys2Proof.Machine.execCollContributionRead x0 s
  | .contributionArrival x0 => Sys2Proof.Machine.execContributionArrival x0 s
  | .stepTimer x0 => Sys2Proof.Machine.execStepTimer x0 s
  | .collectiveResult x0 => Sys2Proof.Machine.execCollectiveResult x0 s
  | .replayMissing x0 => Sys2Proof.Machine.execReplayMissing x0 s
  | .partitionWrite => Sys2Proof.Machine.execPartitionWrite s
  | .vdevCreate => Sys2Proof.Machine.execVdevCreate s
  | .vdevDestroy => Sys2Proof.Machine.execVdevDestroy s
  | .attest => Sys2Proof.Machine.execAttest s
  | .stageImage => Sys2Proof.Machine.execStageImage s
  | .handover => Sys2Proof.Machine.execHandover s
  | .setPcap => Sys2Proof.Machine.execSetPcap s
  | .registerPfQueue => Sys2Proof.Machine.execRegisterPfQueue s
  | .hok => Sys2Proof.Machine.execHok s
  | .handoverTimeout => Sys2Proof.Machine.execHandoverTimeout s
  | .penrst => Sys2Proof.Machine.execPenrst s
  | .lullRequest x0 => Sys2Proof.Machine.execLullRequest x0 s
  | .wakeWrite x0 => Sys2Proof.Machine.execWakeWrite x0 s
  | .idleTimeout x0 => Sys2Proof.Machine.execIdleTimeout x0 s
  | .collapseComplete x0 => Sys2Proof.Machine.execCollapseComplete x0 s
  | .wakeComplete x0 => Sys2Proof.Machine.execWakeComplete x0 s
  | .powerControl x0 => Sys2Proof.Machine.execPowerControl x0 s
  | .rampStep x0 => Sys2Proof.Machine.execRampStep x0 s
  | .thermalTrip x0 => Sys2Proof.Machine.execThermalTrip x0 s
  | .tripClear x0 => Sys2Proof.Machine.execTripClear x0 s
  | .energyUpdate x0 x1 => Sys2Proof.Machine.execEnergyUpdate x0 x1 s
  | .stopTick => Sys2Proof.Machine.execStopTick s
  | .packageReset => Sys2Proof.Machine.execPackageReset s
  | .registerWrite x0 x1 x2 => Sys2Proof.Machine.execRegisterWrite x0 x1 x2 s
  | .illegalInsn x0 => Sys2Proof.Machine.execIllegalInsn x0 s
  | .badTypePacket x0 => Sys2Proof.Machine.execBadTypePacket x0 s
  | .mailboxRefused => Sys2Proof.Machine.execMailboxRefused s
  | .contributionAck x0 => Sys2Proof.Machine.execContributionAck x0 s
  | .planeUp x0 => Sys2Proof.Machine.execPlaneUp x0 s
  | .binComplete x0 => Sys2Proof.Machine.execBinComplete x0 s
  | .uncorrectableError x0 => Sys2Proof.Machine.execUncorrectableError x0 s

end Sys2Proof.Machine
end

