-- ==== Sys2Proof/Machine/Sched.lean ====
section
/-! DEFINITION. What issues next (R24, R332 to R336, R348), how a tick passes, and which steps of the package
are due. -/

namespace Sys2Proof.Machine

/-! ## Candidates (R332, R348) -/

/-- What a thread waits for has come to pass: it may execute its instruction again.  Other waits are ended by
the step that ends them. -/
def State.waitOver (s : State) (c : Ctx) : Bool :=
  match c.t.wait with
  | .run => true
  | .ops cls => !s.outstanding c.t cls
  | .flagRoom => c.t.flagRoom (hdrSets c.t.hdr)
  | .exiting => !s.busy c.t.id
  | .join _ => !s.groupAway c.t
  | .token => c.holds
  | .version e _ least _ _ got =>
    got.isSome ||
      (match s.ventry? e with
       | none => true
       | some v => isRemote e && (v.frameFor c.t least).isSome)
  | .step st =>
    (match c.l.worker with
     | none => true
     | some w => st.ule w.step || s.mayAnnounce w st)
  | .walk _ _ _ | .replay _ | .sleep _ _ | .barrier _ _ | .sign _ _ | .asleep _ _ _ | .accept _ _ | .past _ => false

/-- The place of the thread's PC among the words of its clause. -/
def Thread.pos (t : Thread) : Nat := (t.pc - t.cb).toNat / 4 - 1

/-- An issue cycle in half ticks: the second Eddy cycle of a tick comes after its first (R348). -/
def halfTicks (tick : Nat) (half : Bool) : Nat := 2 * tick + b2n half

/-- The GAP bit of the thread's word is met in this tick, on an Eddy core in one of its two cycles: 4 cycles, on an
Eddy core 4 Eddy cycles (R52, R348). -/
def State.gapMet (s : State) (t : Thread) (half : Bool) : Bool :=
  !t.hdr.getLsbD (1 + t.pos) || (t.held.isSome && t.wait.issued) ||
    (match t.place with
     | .home => decide (t.lastIssue + 4 ≤ s.tick)
     | .leaving _ _ _ | .eddy _ _ | .recallWanted _ _ | .returning _ _ _ =>
       decide (halfTicks t.lastIssue t.lastHalf + 4 ≤ halfTicks s.tick half))

/-- The earliest time of the thread's next word has come (R52, R129, R348). -/
def State.readyNow (s : State) (t : Thread) (half : Bool) : Bool :=
  decide (halfTicks t.ready t.readyHalf ≤ halfTicks s.tick half)

/-- The thread issues where it stands. -/
def Place.issues : Place → Bool
  | .home | .eddy _ _ => true
  | .leaving _ _ _ | .recallWanted _ _ | .returning _ _ _ => false

/-- The thread may issue but for the turn of its group and the port that its word needs. -/
def State.able (s : State) (c : Ctx) (half : Bool) : Bool :=
  c.t.entered && c.t.place.issues && c.tm.phase == .running && s.waitOver c && s.noFailure c.t &&
    s.readyNow c.t half && s.gapMet c.t half && !s.chained c.t.id

/-! ## Turns (R336) -/

/-- The thread waits in a block-class instruction, or is parked (R336). -/
def State.waits (s : State) (c : Ctx) : Bool :=
  match c.t.wait with
  | .run | .walk _ _ _ | .sleep _ _ | .version _ _ _ _ _ _ | .flagRoom | .accept _ _ | .past _ => false
  | .replay _ | .ops _ | .step _ | .token | .join _ | .barrier _ _ | .sign _ _ | .asleep _ _ _ | .exiting =>
    !s.waitOver c

/-- A thread lets the turn of its group pass: it waits in a block-class instruction, is parked, or has issued
YIELD. -/
def State.passes (s : State) (c : Ctx) : Bool := s.waits c || c.t.gaveTurn

/-- The threads of a launch that are resident in the slice of a thread. -/
def State.sliceMates (s : State) (c : Ctx) : List Ctx :=
  s.threads.filterMap fun t =>
    match s.ctx? t.id with
    | none => none
    | some d => if d.l.id == c.l.id && d.tm.core == c.tm.core && t.slice == c.t.slice then some d else none

/-- The group of the launch that holds the turn in the thread's slice. -/
def State.turn (s : State) (c : Ctx) : Nat :=
  let mates := s.sliceMates c
  let groups := mates.map fun d => d.group
  let holder := (c.l.turns.lookup (sliceSource c.tm.core c.t.slice)).getD (groups.min?.getD 0)
  let live := mates.filter fun d => d.group == holder
  if !live.isEmpty && !(live.all s.passes) then holder
  else
    let awake := (mates.filter fun d => !s.waits d).map fun d => d.group
    if awake.isEmpty then holder else nextGroup awake holder

/-- The threads that may issue but for the turns of their groups and the ports that their words need. -/
def State.ables (s : State) (half : Bool) : List Ctx :=
  s.threads.filterMap fun t =>
    match s.ctx? t.id with
    | none => none
    | some c => if s.able c half then some c else none

/-- Those of them whose group has the turn of its launch (R336). -/
def State.candidates (s : State) (half : Bool) : List Ctx :=
  (s.ables half).filter fun c => !c.l.det || c.group == s.turn c

/-! ## The words of an instruction -/

/-- The words of the instruction at a thread's PC, up to the first that is no modifier word or to the end of
the clause; or the word that could not be fetched. -/
def State.chainFrom (s : State) (c : Ctx) : Nat → VAddr → Except (VAddr × FetchRes) (List Word)
  | 0, _ => .ok []
  | n + 1, va =>
    match s.fetchFor c va with
    | .ok w =>
      if modKind w = 0 then .ok [w]
      else
        match s.chainFrom c n (va + 4) with
        | .error e => .error e
        | .ok l => .ok (w :: l)
    | .miss => .error (va, .miss)
    | .fault f => .error (va, .fault f)
    | .bad => .error (va, .bad)
    | .held => .error (va, .held)
    | .lost => .error (va, .lost)

/-- How many words of the clause there are from the thread's PC on. -/
def Thread.wordsLeft (t : Thread) : Nat := (t.nextHeader - t.pc).toNat / 4

/-- The words of the instruction at a thread's PC. -/
def State.chain (s : State) (c : Ctx) : Except (VAddr × FetchRes) (List Word) := s.chainFrom c (min 8 c.t.wordsLeft) c.t.pc

/-! ## Issue groups and their choice (R24, R333) -/

/-- Two candidates of one slice form one issue group, lanes aside (R24). -/
def together (c d : Ctx) : Bool :=
  d.tm.core == c.tm.core && d.t.slice == c.t.slice && d.l.id == c.l.id && d.t.level == c.t.level && d.t.pc == c.t.pc &&
    d.t.cb == c.t.cb && d.t.place == c.t.place && (!c.l.det || (d.t.team == c.t.team && d.t.grp == c.t.grp))

/-- Of two threads of a lane, the older comes first, then the one in the lower slot (R24). -/
def older (a b : Ctx) : Ctx :=
  if a.t.age < b.t.age ∨ (a.t.age = b.t.age ∧ b.t.slot < a.t.slot) then b else a

/-- The issue group of a candidate, in ascending lane order. -/
def groupFor (cs : List Ctx) (c : Ctx) : List Ctx :=
  (List.finRange 32).filterMap fun lane =>
    match cs.filter fun d => d.t.lane == lane && together c d with
    | [] => none
    | d :: ds => some (ds.foldl older d)

/-- The greatest age of a group. -/
def oldest (g : List Ctx) : Nat := g.foldl (fun n c => max n c.t.age) 0

/-- The lowest member of a group, by lane and then by slot. -/
def lowest (g : List Ctx) : Nat := ((g.head?).map fun c => 16 * c.t.lane.val + c.t.slot).getD 0

/-- Group a is chosen before group b (R333); in deterministic mode the marks of R335 are ignored (R38). -/
def chosenBefore (a b : List Ctx) : Bool :=
  let demoted := fun g : List Ctx => g.any fun c => c.t.demoted && !c.l.det
  let starving := fun g => decide (3072 ≤ oldest g)
  let prio : List Ctx → Nat := fun g => ((g.head?).map fun c => c.l.prio).getD 0
  if demoted a != demoted b then demoted b
  else if starving a != starving b then starving a
  else if starving a && decide (oldest a ≠ oldest b) then decide (oldest b < oldest a)
  else if prio a ≠ prio b then decide (prio b < prio a)
  else if oldest a ≠ oldest b then decide (oldest b < oldest a)
  else decide (lowest a < lowest b)

/-- The context in which a group of an Eddy core stands. -/
def contextOf (g : List Ctx) : Nat := ((g.head?).bind fun c => c.t.place.context.map fun e => e.2).getD 0

/-- On an Eddy core the context that has waited longest is chosen, which serves them round-robin (R348). -/
def contextBefore (a b : List Ctx) : Bool :=
  let last : List Ctx → Nat := fun g => ((g.head?).map fun c => halfTicks c.t.lastIssue c.t.lastHalf).getD 0
  if last a ≠ last b then decide (last a < last b) else decide (contextOf a < contextOf b)

/-- A source number is that of an Eddy core (R430). -/
def isEddy (source : Nat) : Bool := decide (0x0600 ≤ source ∧ source < 0x0660)

/-- A slice has issued in this tick, or an Eddy core in both of its cycles, or modifier words are issuing there
(R332, R348). -/
def State.taken (s : State) (source : Nat) : Bool :=
  s.slots.any fun x => x.source == source && (decide (s.tick < x.last) ||
    (x.last == s.tick && (!isEddy source || x.count == 2)))

/-- A slice or an Eddy core has issued nothing yet in this tick. -/
def State.unused (s : State) (source : Nat) : Bool :=
  !(s.slots.any fun x => x.source == source && decide (s.tick ≤ x.last))

/-! ## The port of a matrix word (R171, R332) -/

/-- The port of a matrix word, true for the product port, and its convergence register (R71). -/
def matrixWord (w : Word) : Option (Bool × Fin 16) :=
  let major := bits w.toNat 31 26
  if major = 0x28 ∨ major = 0x29 ∨ major = 0x2A then some (true, ⟨bits w.toNat 4 1 % 16, by omega⟩)
  else if major = 0x2B then some (false, ⟨bits w.toNat 7 4 % 16, by omega⟩)
  else none

/-- The matrix word that a group is about to issue, when it stands at one at home. -/
def State.matrixHead (s : State) (c : Ctx) : Option (Bool × Fin 16) :=
  if c.t.place != .home then none
  else
    match s.chain c with
    | .ok ws => ws.getLast?.bind matrixWord
    | .error _ => none

/-- The issue group completes the set of a member's register when it signs (R214). -/
def completesSet (g : List Ctx) (n : Fin 16) (d : Ctx) : Bool :=
  let cv := d.tm.conv n
  let lanes := (g.filter fun x => x.tm.id == d.tm.id && x.t.grp == d.t.grp).foldl (fun v x => v ||| laneBit x.t.lane) 0
  cv.state != 0 && !cv.held && d.t.grp == cv.grp.toNat && cv.declared.getLsbD d.t.lane.val &&
    cv.declared &&& ~~~(cv.signed ||| lanes) == 0

/-- The port of a matrix word that completes a set, and whether it has reached its next acceptance cycle. -/
def State.portWanted (s : State) (g : List Ctx) : Option (Bool × Bool) :=
  match g with
  | [] => none
  | c :: _ =>
    match s.matrixHead c with
    | none => none
    | some (prod, n) =>
      if g.any (completesSet g n) then some (prod, decide (s.portNext c.tm.core c.t.slice prod ≤ s.tick)) else none

/-- The group is withheld from the product port by the limiter alone (R425). -/
def State.limited (s : State) (g : List Ctx) : Bool :=
  s.portWanted g == some (true, true) &&
    (match g with
     | [] => false
     | c :: _ => !s.productOpen (s.rampRequest c.tm.core))

/-- The port that the group's word needs accepts it (R171, R332): a matrix word that completes a set is held at issue
until then. -/
def State.portOpen (s : State) (g : List Ctx) : Bool :=
  (match s.portWanted g with
   | some (_, next) => next
   | none => true) && !s.limited g

/-- The candidates that a selection chooses from: those that have not yielded, when there are any (R333). -/
def unyielded (cs : List Ctx) : List Ctx :=
  let fresh := cs.filter fun c => !c.t.yielded
  if fresh.isEmpty then cs else fresh

/-- The first slice or Eddy core among those of some threads. -/
def State.firstSource (s : State) (cs : List Ctx) : Option Nat := (cs.map fun c => s.threadSource c.t).min?

/-- The candidates whose word's port accepts it. -/
def State.accepted (s : State) (cs : List Ctx) : List Ctx := cs.filter fun c => s.portOpen (groupFor cs c)

/-- The candidates of a slice or Eddy core in the next of its cycles in this tick that has any, and whether that is the
second cycle of an Eddy core. -/
def State.choosable (s : State) (source : Nat) : Bool × List Ctx :=
  let here := fun half => s.accepted ((s.candidates half).filter fun c => s.threadSource c.t == source)
  if s.unused source && !(here false).isEmpty then (false, here false) else (true, here true)

/-- What a selection gives: the group that issues, the candidates of its slice, and the cycle of an Eddy core. -/
structure Choice where
  group : List Ctx
  from' : List Ctx
  half : Bool
  deriving DecidableEq, Repr

/-- The issue group that issues next. -/
def State.pick (s : State) : Option Choice :=
  let all := s.accepted ((s.candidates true).filter fun c => !s.taken (s.threadSource c.t))
  match s.firstSource all with
  | none => none
  | some source =>
    let cs := s.choosable source
    let fresh := unyielded cs.2
    let before := if isEddy source then contextBefore else chosenBefore
    let best := (fresh.map (groupFor fresh)).foldl (fun best g =>
      match best with
      | none => some g
      | some b => if before g b then some g else best) none
    best.map fun g => ⟨g, cs.2, isEddy source && cs.1⟩

/-- A demoted thread that is still to issue the word it waited for stands back for an undemoted candidate of its slice
(R335). -/
def State.standsBack (s : State) (c : Ctx) : Bool :=
  c.t.demoted && !c.l.det && !c.t.wait.issued &&
    (s.candidates true).any fun d => !d.t.demoted && s.threadSource d.t == s.threadSource c.t

/-- The threads whose instruction's wait is over, and which execute it again: those that have issued it already, and
those that it held at issue, whose group has the turn (R336). -/
def State.resumable (s : State) : List Ctx :=
  (s.ables true).filter fun c =>
    c.t.held.isSome && (c.t.wait.issued || !c.l.det || c.group == s.turn c) && !s.standsBack c

/-- The group of such threads that goes on next, in the place of its lowest member. -/
def State.resumed (s : State) : List Ctx :=
  match s.resumable with
  | [] => []
  | c :: cs => groupFor (c :: cs) c

/-- The threads of an issue group whose product-port word has issued in this tick, and whose next word makes a pair
with it (R172). -/
def State.paired (s : State) : List Ctx :=
  match (s.candidates false).filter fun c =>
      c.t.place == .home && c.t.held.isNone && c.t.issue != 0 && c.t.lastIssue == s.tick && s.taken (s.threadSource c.t) with
  | [] => []
  | c :: cs => groupFor (c :: cs) c

/-- The slot whose last word issues now. -/
def State.slotDue (s : State) : Option Slot :=
  s.slots.find? fun x => !x.members.isEmpty && decide (x.last ≤ s.tick)

/-! ## How a tick passes -/

/-- A complete matrix set that the limiter withholds in this cycle: the limiter as the request leaves it
(R425, R426). -/
def State.withheld (s : State) (tm : Team) (n : Fin 16) : Option Ramp :=
  if !(tm.conv n).held then none
  else
    match s.signers tm.id n with
    | [] => none
    | g :: _ =>
      let t := matrixTiming g.2.op
      if g.2.op.isMatrix && t.1 && decide (s.portNext tm.core g.1.slice true ≤ s.tick) &&
          !s.productOpen (s.rampRequest tm.core) then some (s.rampRequest tm.core)
      else none

/-- The teams of the groups that the limiter holds at issue in this cycle, each group by its lowest member. -/
def State.limitedTeams (s : State) : List Team :=
  let cs := s.candidates false
  (cs.filter fun c =>
    let g := groupFor cs c
    (g.head?.map fun x => x.t.id) == some c.t.id && s.limited g).map fun c => c.tm

/-- The cycles that the limiter withholds are counted (R247, R425). -/
def State.countWithheld (s : State) : State :=
  let groups := s.limitedTeams
  let s := s.teams.foldl (fun s tm => (List.finRange 16).foldl (fun s (n : Fin 16) =>
    match s.withheld tm n with
    | none => s
    | some r => (s.setRamp r).countPm tm.id 0x05 1) s) s
  groups.foldl (fun s tm => (s.setRamp (s.rampRequest tm.core)).countPm tm.id 0x05 1) s

/-- The threads that were members of a candidate in this cycle and have not issued age by one, to 8,191 at most
(R332). -/
def State.ageAll (s : State) : State :=
  let ids := (s.accepted (s.ables true)).map fun c => c.t.id
  { s with threads := s.threads.map fun t => if ids.contains t.id then { t with age := min 8191 (t.age + 1) } else t }

/-- The thread waits in STEP.ADV. -/
def Thread.inStep (t : Thread) : Bool :=
  match t.wait with
  | .step _ => true
  | _ => false

/-- The thread waits in LDV.MIN or VPIN. -/
def Thread.inVersion (t : Thread) : Bool :=
  match t.wait with
  | .version _ _ _ _ _ _ => true
  | _ => false

/-- What the counters of a team count in one cycle (R247). -/
def State.countCycle (s : State) (tm : Team) : Team :=
  let mine := s.threads.filter fun t => t.team == tm.id
  ((tm.count 0x01 (b2n (!mine.isEmpty))).count 0x0C (mine.filter Thread.inStep).length).count 0x0D
    (mine.filter Thread.inVersion).length

/-! ## Issue -/

/-- Notes what a selection does to the threads of its slice (R333): a selection in which there was another candidate is
the one from which a thread that has yielded is excluded. -/
def State.noteIssue (s : State) (g cs : List Ctx) : State :=
  let mine := g.map fun c => c.t.id
  let all := cs.map fun c => c.t.id
  let other := all.any fun id => !mine.contains id
  { s with threads := s.threads.map fun t =>
      if other && all.contains t.id then { t with yielded := false } else t }

/-- Notes the turn of a deterministic launch; when it has passed, the YIELDs of the group that gave it up count no more
(R336). -/
def State.noteTurnOf (s : State) (c : Ctx) : State :=
  if !c.l.det then s
  else
    let source := sliceSource c.tm.core c.t.slice
    let now := s.turn c
    let old := (c.l.turns.lookup source).getD now
    if c.l.turns.lookup source = some now then s
    else
      let s := s.setLaunch { c.l with turns := (source, now) :: c.l.turns.filter fun e => e.1 != source }
      if old = now then s
      else
        let ids := ((s.sliceMates c).filter fun d => d.group == old).map fun d => d.t.id
        { s with threads := s.threads.map fun t => if ids.contains t.id then { t with gaveTurn := false } else t }

/-- The turns of deterministic launches pass at the tick at which the groups that hold them wait (R336). -/
def State.passTurns (s : State) : State :=
  (s.threads.map fun t => t.id).foldl (fun s id =>
    match s.ctx? id with
    | none => s
    | some c => s.noteTurnOf c) s

/-- One tick passes; trip 2 stops what the clocks of the compute dies count and choose (R427). -/
def State.tickOnce (s : State) : State :=
  let s :=
    if s.power.trip2 then s
    else
      let s := s.passTurns.ageAll.countWithheld
      { s with teams := s.teams.map s.countCycle }
  (s.devices.foldl (fun s vd => s.noteIdle vd) s.expireWaits).nextTick

/-- The end of a tick: the package stops, or the next tick begins (R435). -/
def State.endTick (s : State) : State := if s.halt then s.stopNow else s.tickOnce

/-- The group executes: its members stand in ascending lane order (R25) under the number of a new issue, which is still
to be counted for each, and the sampler sees it (R433). -/
def State.beginGroup (s : State) (members : List Nat) (fetched : Nat) : State :=
  let s := { s.newIssue members with issuing := { Issue.idle with members := members } }
  let cs := members.filterMap s.ctx?
  match cs with
  | [] => s
  | c :: _ =>
    ({ s with threads := s.threads.map fun (t : Thread) =>
        if members.contains t.id then { t with uncounted := 2 } else t } : State).tagIssue c fetched

/-- The word of a thread that has just executed is still held at issue, or met a trap there: its translation, with the
choice of a frame, has not succeeded (R189, R220). -/
def Thread.unissued (t : Thread) : Bool :=
  (t.held.isSome && !t.wait.issued) ||
    (match t.trapAt with
     | some (n, k, _) => n == t.issue && (k == Cause.xlateFault.code || decide (Cause.versionPage.code ≤ k ∧ k ≤ Cause.pinLimit.code))
     | none => false) ||
    t.freeze.any fun f => f.1 == Cause.xlateFault.code

/-- A thread's word has issued: the issue is counted for its team, the group's once (R247). -/
def State.countIssue (s : State) (t : Thread) : State :=
  let mine := fun x : Thread => x.issue == t.issue && x.team == t.team
  if t.uncounted = 0 then s
  else if t.uncounted = 1 then s.countPm t.team 0x03 1
  else
    ({ s with threads := s.threads.map fun x =>
        if mine x then { x with uncounted := min 1 x.uncounted } else x }.countPm t.team 0x02 1).countPm t.team 0x03 1

/-- Notes that a member has executed: once its word has issued it is counted, and the thread is neither old nor demoted
any more (R247, R332, R335). -/
def State.noteIssued (s : State) (c : Ctx) : State :=
  match s.thread? c.t.id with
  | none => s.countIssue c.t
  | some t =>
    if t.unissued then s
    else (s.countIssue c.t).modThread t.id fun t => { t with age := 0, demoted := t.demoted && c.t.uncounted == 0, uncounted := 0 }

/-- A write-back that a thread's instruction asked for as it issued has failed since a state, and the thread did not trap
there: it hears of it as of a failed access (R382, R388, log entry 70). -/
def State.noteLost (s before : State) (c : Ctx) : State :=
  if s.reg 0x70000020 == before.reg 0x70000020 then s
  else
    s.modThread c.t.id fun t =>
      if t.trapAt.any fun e => e.1 == c.t.issue then t
      else { t with fails := t.fails ++ [⟨before.nextId, c.t.pc, true, !c.t.inRegion, none⟩] }

/-- Counts the cycles of an issue (R428). -/
def State.spendCycles (s : State) (c : Ctx) (words : Nat) : State :=
  { s with power := { s.power with cycles := tally s.power.cycles c.tm.core c.l.id words } }

/-- How many ticks the modifier words of a group take, and in which cycle of its tick the last word issues, 1 or 2: a
word a tick, on an Eddy core a word an Eddy cycle (R52, R348). -/
def chainTicks (eddy half : Bool) (words : Nat) : Nat × Nat :=
  if eddy then ((b2n half + words - 1) / 2, (b2n half + words - 1) % 2 + 1) else (words - 1, 1)

/-- An issue group takes its slice's slot: its modifier words issue, and it executes with the last word. -/
def State.startGroup (s : State) (x : Choice) (words : Nat) : State :=
  match x.group with
  | [] => s
  | c :: _ =>
    let members := x.group.map fun y : Ctx => y.t.id
    let source := s.threadSource c.t
    let n := chainTicks (isEddy source) x.half words
    let s := ((s.noteTurnOf c).noteIssue x.group x.from').spendCycles c words
    let rest := s.slots.filter fun y => y.source != source
    if n.1 = 0 then { s with slots := ⟨source, s.tick, s.tick, n.2, []⟩ :: rest }.beginGroup members s.tick
    else { s with slots := ⟨source, s.tick, s.tick + n.1, n.2, members⟩ :: rest }

/-- The last word of a slot's group issues. -/
def State.endChain (s : State) (x : Slot) : State :=
  { s with slots := { x with members := [] } :: s.slots.filter fun y => y.source != x.source }.beginGroup x.members
    x.since

/-- The first member has executed: the next one follows. -/
def State.afterMember (s : State) : State :=
  match s.issuing.members with
  | [] | [_] => { s with issuing := Issue.idle }
  | _ :: rest => { s with issuing := { s.issuing with members := rest } }

/-! ## Steps that are due -/

/-- The thread's clause may start. -/
def State.clauseDue (s : State) (t : Thread) : Bool :=
  t.atHeader && t.place.issues && s.noFailure t &&
    (match s.ctx? t.id with
     | none => false
     | some c => c.tm.phase == .running && s.clauseReady c)

/-- A failure is due for delivery at the boundary where the thread stands; a thread that froze its team takes none
(R379). -/
def State.failureDue (s : State) (t : Thread) : Bool :=
  t.freeze.isNone && s.atBoundary t && !t.plainFails.isEmpty && t.place.issues

/-- The region of the thread restarts now. -/
def State.restartDue (s : State) (t : Thread) : Bool :=
  t.freeze.isNone && !t.regionFails.isEmpty && !t.suspended && !s.busy t.id && t.place.issues

/-- The wait for a frame has timed out; a team that stops has withdrawn it (R352). -/
def State.versionLate (s : State) (t : Thread) : Bool :=
  match t.wait with
  | .version k _ least (some d) _ none =>
    decide (d ≤ s.tick) && !s.teamStops t && (match s.ventry? k with
      | some e => (e.frameFor t least).isNone
      | none => true)
  | _ => false

/-- A complete matrix set issues, or is refused, now. -/
def State.matrixDue (s : State) (tm : Team) (n : Fin 16) : Bool :=
  (tm.conv n).held && tm.phase == .running &&
    (match s.signers tm.id n, s.launch? tm.launch with
     | g :: rest, some l =>
       let op := g.2.op
       op.isMatrix && (g :: rest).all (fun x => x.1.flagRoom (hdrSets x.1.hdr)) &&
         (((headerOf op).bind fun _ => headerWhy l (s.headerWords (g :: rest) op 0)).isSome ||
           (decide (s.portNext tm.core g.1.slice (matrixTiming op).1 ≤ s.tick) &&
             (!(matrixTiming op).1 || s.productOpen (s.rampRequest tm.core))))
     | _, _ => false)

/-- The copy is the first of its core that waits, and there is a place for it. -/
def State.acceptDue (s : State) (op : Nat) : Bool :=
  match s.tcopy? op with
  | none => false
  | some k =>
    !k.accepted && s.copyRoom k.core && ((s.copiesOf k.core).find? fun x => !x.accepted).map (fun x => x.id) == some k.id

/-- The deadline of a pod-remote request has passed. -/
def State.deadlinePast (s : State) (o : Op) : Bool :=
  match o.deadline with
  | none => false
  | some d => !o.held && decide (d ≤ s.tick) && s.inOrder o

/-- A memory operation is to be performed, or fails, now. -/
def State.accessDue (s : State) (o : Op) : Bool := s.opReady o || s.deadlinePast o

/-- The cluster of a placement fits now. -/
def State.placeDue (s : State) (p : Placement) : Bool :=
  match s.launch? p.launch with
  | none => false
  | some l =>
    s.served l.dev && !s.restoreFirst l &&
      (match s.placementFit l p with
       | none => false
       | some ats => !ats.any fun a => s.carving a.1)

/-- The priority of a waiting placement. -/
def State.placePrio (s : State) (p : Placement) : Nat := ((s.launch? p.launch).map fun l => l.prio).getD 0

/-- An installation can take a frame, or ends without one. -/
def State.takeDue (s : State) (i : Install) : Bool :=
  i.frame.isNone && s.installFirst i &&
    (match s.ventry? i.entry with
     | none => true
     | some e => e.resident.any (fun f => decide (i.step ≤ f.2.toNat)) || (s.installFrame e).isSome)

/-- The installation has stalled. -/
def State.stallDue (s : State) (i : Install) : Bool :=
  i.frame.isNone && !i.stalled && s.installFirst i && (match s.ventry? i.entry with
    | none => false
    | some e => decide (i.since + e.vtimeout < s.tick))

/-- The devices that wake, in the order in which wakes are served (R409). -/
def State.waking (s : State) : List Nat :=
  sortBy (fun a b => decide (s.vdClass a < s.vdClass b) ||
    (s.vdClass a == s.vdClass b && decide ((s.lullOf a).wakeTick < (s.lullOf b).wakeTick ∨
      ((s.lullOf a).wakeTick = (s.lullOf b).wakeTick ∧ a ≤ b))))
    (s.devices.filter fun vd => s.vdState vd == 4)

end Sys2Proof.Machine
end

