-- ==== Sys2Proof/Machine/Due.lean ====
section
/-! DEFINITION. The step of the package that is due next, and the run of one member of an issue group.  The
order in which steps that are due at one time are taken is a choice of the model (log entry 1). -/

namespace Sys2Proof.Machine

/-! ## What is due -/

/-- What is due for a thread's lane-class results, its place and its waits. -/
noncomputable def State.threadDue (s : State) (t : Thread) : Option Instr :=
  if t.landDue s.tick then some (.laneResultWrite t.id)
  else if s.asksPort t || s.handedOver t then some (.ejectHandover t.id)
  else if (s.recallNow t).isSome then some (.recall t.id)
  else if (match t.place with
      | .returning _ _ ready => decide (ready ≤ s.tick)
      | _ => false) then some (.recallComplete t.id)
  else if s.failureDue t && !s.chained t.id then some (.accessFailure t.id)
  else if s.restartDue t && !s.chained t.id then some (.regionRestart t.id)
  else if s.versionLate t then some (.versionTimeout t.id)
  else
    match t.wait with
    | .walk _ _ _ => some (.pageWalk t.id)
    | .sleep u _ => if s.slept t u then some (.sleepExpire t.id) else none
    | .join d => if d ≤ s.tick then some (.joinTimeout t.id) else none
    | .run | .past _ => if s.clauseDue t then some (.clauseStart t.id) else none
    | .replay _ | .ops _ | .version _ _ _ _ _ _ | .step _ | .token | .flagRoom | .barrier _ _ | .sign _ _ |
      .asleep _ _ _ | .accept _ _ | .exiting => none

/-- What is due for an outstanding operation. -/
noncomputable def State.opDue (s : State) (o : Op) : Option Instr :=
  match o.kind with
  | .load _ _ _ _ _ | .store _ _ _ _ | .ldfe _ _ _ _ _ | .stfull _ _ _ _ | .fifoPop _ _ _ _ | .fifoPush _ _ _ _ |
    .prefetch _ _ | .wb _ _ | .inv _ _ | .wbinv _ _ | .atom _ _ _ _ _ _ _ _ | .ldv _ _ _ _ _ | .vpin _ _ _ | .vunpin _ =>
    if s.opReady o then some (.memoryOpComplete o.id)
    else if s.deadlinePast o then some (.remoteDeadline o.id)
    else none
  | .trans _ _ => if o.due ≤ s.tick then some (.transcendentalComplete o.id) else none
  | .matrix _ _ => if o.due ≤ s.tick then some (.matrixComplete o.id) else none
  | .bin _ _ => if o.due ≤ s.tick then some (.binComplete o.id) else none
  | .tcopy _ => if s.acceptDue o.id then some (.tcopyAccept o.id) else none
  | .qput _ _ _ =>
    (match s.ctx? o.th with
     | none => none
     | some c => if s.qputReady c o then some (.qputSlotWrite o.id) else none)
  | .spawn desc _ _ =>
    (match s.ctx? o.th with
     | none => none
     | some c =>
       if s.forkWaits o ∨ s.laneAhead o ∨ (desc ≠ 0 ∧ s.vheld c.l.dev desc 64 .read c.l.level) then none
       else some (.spawnDescriptor o.id))
  | .binrel desc =>
    (match s.ctx? o.th with
     | none => none
     | some c =>
       if s.forkWaits o ∨ s.laneAhead o ∨ s.binHeld c.l.dev desc o.level then none else some (.binrelRelease o.id))
  | .carve _ core bank _ =>
    if s.carveAhead o core ∨ s.tick < o.due ∨ s.carveHeld core bank then none else some (.carveComplete (.insn o.id))
  | .coll _ => none

/-- What is due for a team: a matrix instruction, or its save. -/
noncomputable def State.teamDue (s : State) (m : Team) : Option Instr :=
  match (List.finRange 16).find? fun n => s.matrixDue m n with
  | some n => some (.matrixIssue m.id n.val)
  | none =>
    match m.phase with
    | .running => none
    | .preempting => if s.leavesNow m then some (.teamSave m.id) else none
    | .freezing _ _ => if s.leavesNow m then some (.teamFreeze m.id) else none

/-- What is due in the L1s: bytes that became dirty 50 µs ago are written back, unless a plane or a quota holds them
(R286, R392). -/
noncomputable def State.dirtyDue (s : State) : Option Instr :=
  s.ms.l1.findSome? fun b =>
    if b.dirty && decide (b.since + 62500 ≤ s.tick) && !s.engineHeld b.dev b.key then
      some (Instr.dirtyWriteback b.core (lineOf b.key))
    else none

/-- What is due on the compute dies: trip 2 stops the clocks of their cores (R427). -/
noncomputable def State.coresDue (s : State) : Option Instr :=
  if s.power.trip2 then s.dirtyDue
  else
    (s.threads.findSome? s.threadDue).or <| (s.teams.findSome? s.teamDue).or <| (s.ops.findSome? s.opDue).or <|
      (s.power.ramps.findSome? fun r =>
        if s.rampUp r || s.rampDown r then some (Instr.rampStep r.core) else none).or s.dirtyDue

/-- The packet that the front end serves next (R316, R319, R366). -/
noncomputable def State.packetDue (s : State) : Option Instr :=
  match s.frontPick with
  | none => none
  | some q =>
    match s.head q with
    | .empty | .blocked | .stop => none
    | .ready l bad =>
      let ty := field l 0 1
      if bad then some (.nop q.id)
      else if !typeAllowed q ty then some (.badTypePacket q.id)
      else if ty = 0x01 then some (.launch q.id)
      else if ty = 0x02 then some (.nop q.id)
      else if ty = 0x03 then some (.copy q.id)
      else if ty = 0x10 then some (.vcreate q.id)
      else if ty = 0x11 then some (.vdestroy q.id)
      else if ty = 0x12 then some (.worker q.id)
      else if ty = 0x13 then some (.xlinv q.id)
      else some (.qcreate q.id)

/-- A queue stops at a slot, or reads it again (R318). -/
noncomputable def State.queueDue (s : State) (q : Queue) : Option Instr :=
  match q.wait with
  | .stopped t => if t + 12500 ≤ s.tick then some (.queueReread q.id) else none
  | .idle => if s.head q = .stop then some (.queueReread q.id) else none
  | .placing | .destroying _ _ | .invalidating _ _ => none

/-- The placement or the restore that comes next, the highest priority first and a restore before a placement
of its priority (R331, R338), or the pre-emption that makes room for one. -/
noncomputable def State.placementDue (s : State) : Option Instr :=
  let saved := sortBy (fun a b => decide (s.teamPrio b.team ≤ s.teamPrio a.team)) s.saved
  let waiting := sortBy (fun a b => decide (s.placePrio b ≤ s.placePrio a)) s.front.placements
  (saved.findSome? fun v =>
    if s.restorable v && (s.restoreNow v).isSome then some (Instr.teamRestore v.team.id) else none).or <|
  (waiting.findSome? fun p => if s.placeDue p then some (Instr.placement p.id) else none).or <|
  (saved.findSome? fun v => if (s.preempted v.team.id).isSome then some (Instr.preemption v.team.id) else none).or <|
  waiting.findSome? fun p => if (s.preempted p.id).isSome then some (Instr.preemption p.id) else none

/-- What is due at the front end. -/
noncomputable def State.frontDue (s : State) : Option Instr :=
  (s.front.invals.findSome? fun i =>
    if i.waits.any fun k => s.ops.any fun o => o.id == k then none else some (Instr.xlinvComplete i.id)).or <|
  (s.ver.dir.findSome? fun e =>
    if e.closing.isSome && !s.pageBusy e.idx then some (Instr.vdestroyComplete e.idx) else none).or <|
  (s.launches.findSome? fun l =>
    if l.started && l.counter == 0 && !(l.cores.any fun k => s.backHeld k l.dev) then some (Instr.launchComplete l.id)
    else none).or <|
  s.placementDue.or <| s.packetDue.or <| s.front.queues.findSome? s.queueDue

/-- What is due at the copy and collective engines; trip 2 stops the tile copy engines of the compute dies (R355,
R427). -/
noncomputable def State.enginesDue (s : State) : Option Instr :=
  (s.eng.tcopies.findSome? fun k =>
    if k.accepted && !s.power.trip2 && !s.copyWaits k then some (Instr.tcopyComplete k.id) else none).or <|
  (s.eng.qcopies.findSome? fun k => if s.copyReady k then some (Instr.queueCopyComplete k.id) else none).or <|
  (s.coll.stages.findSome? fun g =>
    if s.stageReady g then some (Instr.collContributionRead g.id)
    else if g.read && !g.sent && s.canTake g.message then some (Instr.contributionArrival g.message)
    else none).or <|
  s.coll.roots.findSome? fun r =>
    let id := collName r.desc.job r.desc.cid
    if (s.closeOne r.desc.job r.desc.cid).isSome || (s.slotFault r).isSome then some (Instr.stepTimer id)
    else if (s.missing r).isSome then some (Instr.replayMissing id)
    else none

/-- What is due at the version directory and the progress table. -/
noncomputable def State.versionsDue (s : State) : Option Instr :=
  (s.ver.installs.findSome? fun i =>
    if i.frame.isSome then (if i.ready ≤ s.tick then some (Instr.installComplete i.id) else none)
    else if s.takeDue i then some (Instr.installFrameTake i.id)
    else if s.stallDue i then some (Instr.installStall i.id)
    else none).or <|
  (s.ver.ptable.findSome? fun e => if s.silentNow e then some (Instr.peerSilent e.idx) else none).or <|
  s.launches.findSome? fun l =>
    match l.worker with
    | none => none
    | some w => if s.beatDue w then some (Instr.heartbeat l.id) else none

/-- The command that Penen runs next (R412). -/
noncomputable def State.commandDue (s : State) : Option Instr :=
  match s.penen.command with
  | none => none
  | some l =>
    let code := field l 0 1
    if !s.masterRuns 0 then none
    else if !s.commandOk l then some .mailboxRefused
    else if code = 0x01 then some .partitionWrite
    else if code = 0x02 then some .vdevCreate
    else if code = 0x03 then
      (let vd := field l 8 2
       if s.vdExists vd && !s.destroyBegins vd && s.destroyWaits vd then none else some .vdevDestroy)
    else if code = 0x04 then some .attest
    else if code = 0x05 then some .stageImage
    else if code = 0x06 then some .handover
    else if code = 0x07 then some .setPcap
    else some .registerPfQueue

/-- What is due at Penen, the fabric and the virtual devices. -/
noncomputable def State.packageDue (s : State) : Option Instr :=
  (if s.handoverFails then some Instr.handoverTimeout else none).or <| s.commandDue.or <|
  (if s.plmapReady then some Instr.plmapEffect else none).or <|
  (s.waking.findSome? fun vd => if s.woken vd then some (Instr.wakeComplete vd) else none).or <|
  s.devices.findSome? fun vd =>
    if s.idleLong vd then some (Instr.idleTimeout vd)
    else if s.collapsed vd then some (Instr.collapseComplete vd)
    else none

/-- The step of the package that is due next. -/
noncomputable def State.due (s : State) : Option Instr :=
  s.coresDue.or <| s.enginesDue.or <| s.versionsDue.or <| s.frontDue.or s.packageDue

/-! ## Running the first member of an issue group -/

/-- The instruction at a thread's PC, or the word of its chain that could not be fetched (R57, R74). -/
noncomputable def State.nextInstr (s : State) (c : Ctx) : Except (VAddr × FetchRes) Instr :=
  match s.chain c with
  | .error e => .error e
  | .ok [] => .error (c.t.pc, .bad)
  | .ok (w :: rest) =>
    match decodeAt c.t.pos w (rest ++ List.replicate (c.t.wordsLeft - (rest.length + 1)) 0) with
    | .ok (i, _) => .ok i
    | .error r => .ok (.illegalInsn r)

/-- Maps the next state of an outcome. -/
def thenNext (f : State → State) : Host.Outcome State Fault Refusal → Host.Outcome State Fault Refusal
  | .next s => .next (f s)
  | .fault e => .fault e
  | .refused r => .refused r

/-- The first member of the issue group executes the instruction at its PC (R25). -/
noncomputable def State.runMember (s : State) : Host.Outcome State Fault Refusal :=
  match s.cur? with
  | none => .next s.afterMember
  | some c =>
    match s.nextInstr c with
    | .error (va, r) => .next (s.fetchFail c.t c.l.dev va r).afterMember
    | .ok i => thenNext (fun s' => ((s'.noteLost s c).noteIssued c).afterMember) (exec i s)

/-- An instruction whose last word issues now, or whose wait is over, executes; or an issue group is chosen;
without any the tick ends. -/
noncomputable def State.schedule (s : State) : Host.Outcome State Fault Refusal :=
  if s.power.trip2 then .next s.endTick
  else
    match s.slotDue with
    | some x => (s.endChain x).runMember
    | none =>
      match s.resumed with
      | c :: g => { s with issuing := { Issue.idle with members := (c :: g).map fun x : Ctx => x.t.id } }.runMember
      | [] =>
        match s.paired with
        | c :: g => (s.beginGroup ((c :: g).map fun x : Ctx => x.t.id) s.tick).runMember
        | [] =>
          match s.pick with
          | none => if s.halt then exec .stopTick s else .next s.tickOnce
          | some x =>
            match x.group with
            | [] => if s.halt then exec .stopTick s else .next s.tickOnce
            | c :: g =>
              match s.chain c with
              | .error (va, r) => .next (s.asGroup ((c :: g).map fun x => x.t.id) fun s t => s.fetchFail t c.l.dev va r)
              | .ok ws =>
                let s := (s.codeRun c c.t.pc ws.length).startGroup x ws.length
                if s.issuing.members.isEmpty then .next s else s.runMember

/-- What happens next in a package that has not stopped. -/
noncomputable def State.advance (s : State) : Host.Outcome State Fault Refusal :=
  match s.issuing.members with
  | _ :: _ => s.runMember
  | [] =>
    match s.agenda with
    | e :: es => exec e { s with agenda := es }
    | [] =>
      match s.due with
      | some e => exec e s
      | none => s.schedule

/-- What happens next in a stopped package: TICK runs on, and only package reset has an effect (R435). -/
noncomputable def State.idleStopped (s : State) : Host.Outcome State Fault Refusal :=
  match s.agenda with
  | .packageReset :: es => exec .packageReset { s with agenda := es }
  | _ :: es => .next { s with agenda := es }
  | [] => .next { s with tick := s.tick + 1 }

/-- What every step does at its end: the next free choice is another one, a token that waited moves on (R231), and the
tagged instructions are followed (R433). -/
def State.closeStep (s : State) : State := { s.settleAll.samples with freeCount := s.freeCount + 1 }

/-! ## Placing one instruction -/

/-- The device, partition and memory in which a placed instruction runs: partition 0 with unit 0 and the first
near segment, and device 0 in it. -/
def State.withHome (s : State) : State :=
  let off := fun (s : State) (o : Nat) (v : Nat) => s.setReg o (s.reg o ||| BitVec.ofNat 64 v)
  let s := off s (partOff 0) (2 ^ 63 + 1)
  let s := off s (partOff 0 + 0x10) 1
  (s.setReg (vdOff 0 0) (setBits (setBits (setBits (s.reg (vdOff 0 0)) 63 63 1) 55 48 0) 34 32 1)).setRegField 0xA0003008 1 1 0

/-- A launch, a team and one thread at level S that stands at the word after the header of a clause. -/
def placedLaunch (id : Nat) : Launch :=
  { id := id, dev := 0, queue := 0, level := .s, det := false, prio := 7, packet := List.replicate 64 0, counter := 1
    trees := [⟨id, 0⟩], ranges := [(0, 32)], refused := 0, first := 0, holder := 0, skips := 0, moves := 0
    skipped := [], turns := [], pvbase := 0, pvsize := 0, worker := none, energy := 0, cores := [0], started := true, born := 0 }

/-- The team of a placed instruction. -/
def placedTeam (id : Nat) : Team :=
  Team.create (id + 1) id id id 0 0 0 1 1 1 0 15 0 16 0 [] [(0, 0)] id

/-- Its thread. -/
def placedThread (id words tick : Nat) : Thread :=
  { Thread.create (id + 2) (id + 1) 0 0 0 0 128 0 0x10000 .s with
    pc := 0x10004, hdr := BitVec.ofNat 32 (0x000FF000 + (words - 1) * 512), entered := true, lastIssue := tick, ready := tick }

/-- The translation of the page that holds the clause: near tier, readable, writable and executable. -/
def placedPage : TlbEntry := { core := 0, slice := some 0, dev := 0, va := 0x10000, size := 16, leaf := 0x1001F }

/-- The state with a clause of some words placed, and the thread that executes it chosen to issue. -/
def State.placeWords (s : State) (ws : List Word) : State :=
  let id := s.nextId
  let header := BitVec.ofNat 32 (0x000FF000 + (ws.length - 1) * 512)
  let s := s.withHome.pocWrite 0x10000 ((header :: ws).flatMap fun w => toBytes 4 w.toNat)
  { s with
    ms := { s.ms with tlb := placedPage :: s.ms.tlb, poison := s.ms.poison.filter fun g => !(0x1000 ≤ g && decide (g < 0x1010)) }
    launches := { placedLaunch id with born := s.ms.past.length } :: s.launches
    teams := placedTeam id :: s.teams
    threads := placedThread id ws.length s.tick :: s.threads
    issuing := { Issue.idle with members := [id + 2] }
    nextId := id + 3 }

end Sys2Proof.Machine
end

