-- ==== Sys2Proof/Machine/Step.lean ====
section
/-! DEFINITION. The step function, and the placing of one instruction where the next step fetches it. -/

namespace Sys2Proof.Machine

/-- One step of the package: the first member of an issue group executes, or a step of another agent or of the
package itself happens, or a group is chosen, or a tick passes. -/
noncomputable def step (s : State) : Host.Outcome State Fault Refusal :=
  if s.isStopped then s.idleStopped else thenNext State.closeStep s.advance

/-- The state in which the next step fetches and runs the instruction whose words w holds (log entry 25). -/
def State.withFetchWord (s : State) (nbits w : Nat) : State := s.placeWords (tableWords nbits w)

end Sys2Proof.Machine
end

