-- ==== Sys2Proof/Safety.lean ====
section
/-! DEFINITION. The vocabulary of the statements: when an instruction meets its operands, what the integer
operations compute on bit vectors, which instructions are steps of other agents, and what the invariants of a
run say. -/

namespace Sys2Proof.Machine

/-! ## When an instruction completes -/

/-- The thread c executes an instruction with modifiers m, destinations dst and sources reads: it is predicated
on (R59), every register lies in its allocation (R16, check 5 of R74), and no source is poisoned (R249). -/
structure State.Ready (s : State) (c : Ctx) (m : Mods) (dst reads : List Blk) : Prop where
  cur : s.cur? = some c
  on : s.on c.t m = true
  range : firstBeyond c.t.alloc (dst ++ reads) = none
  clean : c.t.poisoned reads = none

/-- The thread c executes an instruction that takes no prefix, with registers regs, all of them read. -/
structure State.Ready' (s : State) (c : Ctx) (regs : List Blk) : Prop where
  cur : s.cur? = some c
  range : firstBeyond c.t.alloc regs = none
  clean : c.t.poisoned regs = none

/-- The outcome of a lane-class instruction that completes: its registers are written later (R51). -/
def wrote (s : State) (c : Ctx) (m : Mods) (l : List (Nat × Word)) : Host.Outcome State Fault Refusal :=
  .next (s.laneDone c m (LaneResult.ofRegs l))

/-- The outcome of an instruction that writes one register and raises flags: an enabled exception traps, with the
flags in XINFO and nothing written (R111); else the result is written with its flags (R110). -/
def raised (s : State) (c : Ctx) (m : Mods) (d : Reg) (r : Word × FFlags) : Host.Outcome State Fault Refusal :=
  match fpTrap (s.csr c.t) r.2 with
  | some cause => .next (s.deliver c.t cause (BitVec.ofNat 64 r.2.code))
  | none => .next (s.laneDone c m ⟨[(d.val, r.1)], [], r.2, false⟩)

/-- The outcome of a long-class instruction that issues: its operation is outstanding, the clause's flags are raised
by one each, and the thread goes on (R19, R51). -/
def issued (s : State) (c : Ctx) (m : Mods) (o : Op) : Host.Outcome State Fault Refusal :=
  .next ({ s with ops := s.ops ++ [o], nextId := s.nextId + 1 }.done c m (c.t.raise o.flags))

/-- The byte that memory holds at its point of coherence (R249). -/
def State.byteAt (s : State) (key : Nat) : Byte := Memory.get s.ms.mem key

/-- Memory and the scratch of every team, resident or saved, are in canonical form. -/
def State.memWf (s : State) : Bool :=
  Memory.wf s.ms.mem && (s.teams.all fun tm => Memory.wf tm.scratch) &&
    s.saved.all fun v => Memory.wf v.team.scratch

/-- A core's L1 holds at most one byte for a key. -/
def State.l1Wf (s : State) : Prop := (s.ms.l1.map fun b => (b.core, b.key)).Nodup

/-- The instruction issues a long-class operation of this kind, which raises the clause's flags (R19, R51). -/
def issues (s : State) (c : Ctx) (m : Mods) (kind : OpKind) (r : Host.Outcome State Fault Refusal) : Prop :=
  ∃ o : Op, o.id = s.nextId ∧ o.th = c.t.id ∧ o.level = c.t.level ∧ o.kind = kind ∧ o.flags = hdrSets c.t.hdr ∧
    o.word = c.t.pc ∧ o.handler = !c.t.inRegion ∧ r = issued s c m o

/-- The state after the executing thread has signed on a convergence register (R214): the register holds its lane
and, from the first signature on, its PC, and the thread waits with what it signed. -/
def State.signedBy (s : State) (c : Ctx) (m : Mods) (n : Fin 16) (op : SignOp) : State :=
  let cv := c.tm.convs[n]
  let cv' : Conv :=
    { state := 2, grp := cv.grp, declared := cv.declared, signed := cv.signed ||| laneBit c.t.lane
      pc := if cv.state = 1 then c.t.pc else cv.pc }
  (s.setTeam { c.tm with convs := c.tm.convs.set n cv' }).setThread { s.issued c m (1, false) c.t with
    wait := .sign n ⟨op, s.on c.t m, m.pre, m.count + 1⟩ }

/-- The executing thread may sign on a convergence register (R161, R214): it is at home, its operands pass their
checks when it is predicated on, it is a declared member, and the register is free or fixed at its PC. -/
structure State.CanSign (s : State) (c : Ctx) (m : Mods) (n : Fin 16) (dst reads : List Blk) : Prop where
  cur : s.cur? = some c
  home : ∀ e x, c.t.place ≠ .eddy e x
  operands : s.on c.t m = true → firstBeyond c.t.alloc (dst ++ reads) = none ∧ c.t.poisoned reads = none
  declared : c.tm.convs[n].state ≠ 0
  grp : c.tm.convs[n].grp.toNat = c.t.grp
  member : c.tm.convs[n].declared.getLsbD c.t.lane.val = true
  free : c.tm.convs[n].state = 1 ∨ c.tm.convs[n].pc = c.t.pc
  open_ : ¬(c.tm.convs[n].state = 2 ∧ c.tm.convs[n].declared &&& ~~~c.tm.convs[n].signed = 0)

/-- The signature of the executing thread completes the set (R214). -/
def Ctx.completes (c : Ctx) (n : Fin 16) : Prop :=
  c.tm.convs[n].declared &&& ~~~(c.tm.convs[n].signed ||| laneBit c.t.lane) = 0

/-- These are the signers of a complete set: different threads of one team, none of them single-stepped and none of them
back from a save with its header still to be taken (R55), that have signed the same word. -/
def State.signersAre (s : State) (c : Ctx) (m : Mods) (n : Fin 16) (op : SignOp) (l : List Signer) : Prop :=
  s.signers c.tm.id n = l ∧ (l.map fun g => g.1.id).Nodup ∧
    ∀ g ∈ l, s.thread? g.1.id = some g.1 ∧ g.1.team = c.tm.id ∧ stepped c.tm g.1 = false ∧ g.1.entered = true ∧
      g.2.op = op ∧ g.2.pre = m.pre ∧ g.2.words = m.count + 1

/-- The thread has gone past its instruction of some words and waits for nothing; its registers and predicates are
those of u. -/
def State.wentOn (s : State) (words : Nat) (t u : Thread) : Prop :=
  ∃ t', s.thread? t.id = some t' ∧ t'.wait = .run ∧ t'.pc = (t.past words).pc ∧ t'.cb = (t.past words).cb ∧
    t'.regs = u.regs ∧ t'.preds = u.preds ∧ t'.flags = u.flags ∧ t'.fpcsr = u.fpcsr

/-- A release at a scope takes a memory system to another (R259): beyond the core, every dirty byte of the core and
device is written back and stays valid; nothing else changes but the words that a fetch may still meet (R56), the
poison of the granules written (R249), and which lines of the memory-side cache are dirty (R262). -/
def released (core dev : Nat) (sc : Scope) (m m' : MemSys) : Prop :=
  let mine := fun b : L1Byte => b.core = core ∧ b.dev = dev ∧ b.dirty = true
  if Scope.wide sc then
    (∀ b ∈ m'.l1, ¬mine b) ∧ (∀ b ∈ m.l1, mine b → Memory.get m'.mem b.key = b.val) ∧
      (∀ k, (∀ b ∈ m.l1, mine b → b.key ≠ k) → Memory.get m'.mem k = Memory.get m.mem k) ∧
      (∀ b ∈ m.l1, ¬mine b → b ∈ m'.l1) ∧ (∀ b ∈ m.l1, mine b → { b with dirty := false } ∈ m'.l1) ∧
      m'.l1.length = m.l1.length ∧
      (m'.msc.map fun x => { x with dirty := false }) = (m.msc.map fun x => { x with dirty := false }) ∧
      { m' with mem := m.mem, l1 := m.l1, past := m.past, poison := m.poison, msc := m.msc } = m
  else m' = m

/-- An acquire at a scope takes a memory system to another (R259): beyond the core, the clean bytes of the core and
device leave its L1; memory stays. -/
def acquired (core dev : Nat) (sc : Scope) (m m' : MemSys) : Prop :=
  if Scope.wide sc then
    (∀ b, b ∈ m'.l1 ↔ b ∈ m.l1 ∧ ¬(b.core = core ∧ b.dev = dev ∧ b.dirty = false)) ∧ { m' with l1 := m.l1 } = m
  else m' = m

/-- What the release and the acquire of an atomic's order leave, when the atomic at a scope takes a state to another
(R205, R259): beyond the core, a release, made when the atomic writes, leaves no dirty byte of the core and device, and
each of them but those that a test names is in memory; an acquire leaves no clean one. -/
def State.synced (s s' : State) (c : Ctx) (sc : Scope) (ord : MemOrd) (writes : Prop) (but : L1Byte → Prop) : Prop :=
  let mine := fun b : L1Byte => b.core = c.tm.core ∧ b.dev = c.l.dev
  Scope.wide sc = true →
    (ord = .rel ∨ ord = .ar → writes →
      (∀ b ∈ s'.ms.l1, mine b → b.dirty = false) ∧
      ∀ b ∈ s.ms.l1, mine b → b.dirty = true → ¬but b → s'.byteAt b.key = b.val) ∧
    (ord = .acq ∨ ord = .ar → ∀ b ∈ s'.ms.l1, mine b → b.dirty = true)

/-- No dirty byte of the core and device belongs to another package's memory: its write-backs need no fabric
(R389). -/
def State.homeDirty (s : State) (core dev : Nat) : Prop :=
  ∀ b ∈ s.ms.l1, b.core = core → b.dev = dev → b.dirty = true → isRemote b.key = false

/-- No write-back of a dirty byte fails or is held at its source now: every one of them belongs to this package's
memory, or the fabric carries it (R389 to R392, R402). -/
def State.backsGo (s : State) : Prop :=
  ∀ b ∈ s.ms.l1, b.dirty = true → s.engineHeld b.dev b.key = false ∧ s.requestFails b.key = false

/-- A byte of memory holds what it held, or what a dirty byte of this core's L1 held: the line left the L1 for another
(R258). -/
def State.spills (s s' : State) (core key : Nat) : Prop :=
  s'.byteAt key = s.byteAt key ∨
    ∃ b ∈ s.ms.l1, b.core = core ∧ b.key = key ∧ b.dirty = true ∧ s'.byteAt key = b.val

/-- The teams are what they were, but for their event counts (R246). -/
def State.keepsTeams (s s' : State) : Prop :=
  ∀ id tm, s.team? id = some tm → ∃ tm', s'.team? id = some tm' ∧ { tm' with pmcnt := tm.pmcnt } = tm

/-- A line of a core's L1 holds no byte of another device and no poisoned byte (R249, R257). -/
def State.lineClean (s : State) (c : Ctx) (key : Nat) : Prop :=
  ∀ b ∈ s.ms.l1, b.core = c.tm.core → lineOf b.key = lineOf key → b.dev = c.l.dev ∧ b.bad = false

/-- A thread of a core and a device that reads n bytes at a location meets these bytes: those of a team's
scratch, those of memory for an uncached page, and for a cached one those that its L1 holds, and those of memory
where its L1 holds none. -/
def State.sees (s : State) (c : Ctx) (loc : Loc) (n : Nat) (l : List Byte) : Prop :=
  match loc with
  | .scr team off =>
    ∃ tm, s.team? team = some tm ∧ tm.scrBad off n = false ∧
      l = (List.range n).map fun k => Memory.get tm.scratch (off + k)
  | .mem key true =>
    key % 128 + n ≤ 128 ∧ isMgmt key = false ∧ s.ms.poisoned key n = false ∧
      l = (List.range n).map fun k => s.byteAt (key + k)
  | .mem key false =>
    key % 128 + n ≤ 128 ∧ s.ms.poisoned key n = false ∧ s.lineClean c key ∧
      l = (List.range n).map fun k =>
        match s.ms.l1Find c.tm.core (key + k) with
        | some b => b.val
        | none => s.byteAt (key + k)
  | .split _ _ _ _ => False

/-- The operation o of the thread c may be performed now, whole and within the package: it is ready, it sends no
request to another package, it is no 128-bit access to host memory, which is performed in two halves, no other
lane of its instruction is to follow it at once, and no write-back that it may cause fails (R190, R192, R206, R389,
R391). -/
structure State.Performs (s : State) (c : Ctx) (o : Op) : Prop where
  op : s.op? o.id = some o
  ctx : s.ctx? o.th = some c
  ready : s.opReady o = true
  here : o.planes = []
  whole : o.kind.halves = none
  alone : s.atomMates o = []
  stays : s.mustTravel c o = false
  backs : s.backsGo

/-- The thread of a long-class operation after the operation has ended: n registers from dst upwards hold a value,
the operation's flags are lowered, and the rest of its registers, its predicates and its place in the program are as
they were.  No other thread changes, and the operation is outstanding no more. -/
def ended (s s' : State) (o : Op) (t : Thread) (dst n v : Nat) : Prop :=
  (∃ t', s'.thread? o.th = some t' ∧
    (∀ r : Reg, t'.regs[r] =
      if dst ≤ r.val ∧ r.val < dst + n then BitVec.ofNat 32 (v / 2 ^ (32 * (r.val - dst))) else t.regs[r]) ∧
    (∀ f : Fin 12, t'.flags[f] = t.flags[f] - b2n (o.flags.getLsbD f.val)) ∧
    t'.preds = t.preds ∧ t'.pc = t.pc ∧ t'.cb = t.cb ∧ t'.flow = t.flow ∧ t'.level = t.level ∧ t'.wait = t.wait ∧
    t'.fails = t.fails ∧ t'.fpcsr = t.fpcsr) ∧
  (∀ id ≠ o.th, s'.thread? id = s.thread? id) ∧ s'.ops = s.ops.filter fun x => x.id != o.id

/-- The thread's versioned form meets this page, at this offset and key (R220): its translation gives it, or the thread
waits for a frame of it at this package's directory, which its operation has reached (R302). -/
def State.meetsPage (s : State) (c : Ctx) (a : Nat) (special : Bool) (e : VEntry) (off key : Nat) : Prop :=
  match s.waitEntry c.t with
  | some x => e = x ∧ off = a % 2 ^ x.size ∧ key = x.fpa + off
  | none => s.versioned c a special = .ok e off key

/-! ## Packets and commands -/

/-- The front end serves this packet of this queue next: the queue's turn has come, the slot at its head is
written, and the queue accepts the packet's TYPE (R316, R318, R319). -/
structure State.Serves (s : State) (q : Queue) (l : List Byte) (ty : Nat) : Prop where
  turn : s.frontPick = some q
  head : s.head q = .ready l false
  type_ : field l 0 1 = ty
  accepted : typeAllowed q ty = true

/-- A command of a code waits in the mailbox, is well formed, and the core that runs it is not frozen and has an image
(R412, R413, R418). -/
structure State.Commands (s : State) (l : List Byte) (code : Nat) : Prop where
  waits : s.penen.command = some l
  runs : s.masterRuns 0 = true
  code_ : field l 0 1 = code
  formed : s.commandOk l = true

/-- The mailbox has answered: STATUS and RESULT stand there, and no command waits (R412). -/
def State.replied (s : State) (status : Nat) (result : DWord) : Prop :=
  s.reg 0xA0001010 = BitVec.ofNat 64 status ∧ s.reg 0xA0001018 = result ∧ s.penen.command = none

/-- Every management register but some holds what it held. -/
def State.keepsRegs (s s' : State) (l : List Nat) : Prop := ∀ off, off ∉ l → s'.reg off = s.reg off

end Sys2Proof.Machine

namespace Sys2Proof

/-! ## Lane-class instructions -/

open Sys2Proof.Machine in
/-- The modifiers and the destinations of a lane-class instruction that only computes (R51, R59): majors 0x01 to
0x0F and 0x18 to 0x21 but for 0x1A.  RAND and RANDF, which also write their counter, stand apart. -/
def Instr.laneDst : Instr → Option (Mods × List Blk × List Pred)
  | .add m d _ _ | .sub m d _ _ | .mul m d _ _ | .mulhs m d _ _ | .mulhu m d _ _ | .mins m d _ _
  | .minu m d _ _ | .maxs m d _ _ | .maxu m d _ _ | .and m d _ _ | .or m d _ _ | .xor m d _ _ | .andn m d _ _
  | .shl m d _ _ | .shr m d _ _ | .sar m d _ _ | .rol m d _ _ | .ror m d _ _ | .addus m d _ _ | .subus m d _ _
  | .addX2 m d _ _ | .subX2 m d _ _ | .mulX2 m d _ _ | .mulhsX2 m d _ _ | .mulhuX2 m d _ _ | .minsX2 m d _ _
  | .minuX2 m d _ _ | .maxsX2 m d _ _ | .maxuX2 m d _ _ | .andX2 m d _ _ | .orX2 m d _ _ | .xorX2 m d _ _
  | .andnX2 m d _ _ | .shlX2 m d _ _ | .shrX2 m d _ _ | .sarX2 m d _ _ | .rolX2 m d _ _ | .rorX2 m d _ _
  | .addusX2 m d _ _ | .subusX2 m d _ _ | .addX4 m d _ _ | .subX4 m d _ _ | .mulX4 m d _ _ | .mulhsX4 m d _ _
  | .mulhuX4 m d _ _ | .minsX4 m d _ _ | .minuX4 m d _ _ | .maxsX4 m d _ _ | .maxuX4 m d _ _ | .andX4 m d _ _
  | .orX4 m d _ _ | .xorX4 m d _ _ | .andnX4 m d _ _ | .shlX4 m d _ _ | .shrX4 m d _ _ | .sarX4 m d _ _
  | .rolX4 m d _ _ | .rorX4 m d _ _ | .addusX4 m d _ _ | .subusX4 m d _ _ | .clz m d _ | .ffs m d _
  | .popc m d _ | .brev m d _ | .abs m d _ | .neg m d _ | .clzX2 m d _ | .ffsX2 m d _ | .popcX2 m d _
  | .brevX2 m d _ | .absX2 m d _ | .negX2 m d _ | .clzX4 m d _ | .ffsX4 m d _ | .popcX4 m d _ | .brevX4 m d _
  | .absX4 m d _ | .negX4 m d _ | .addi m d _ _ | .muli m d _ _ | .andi m d _ _ | .ori m d _ _ | .xori m d _ _
  | .shli m d _ _ | .shri m d _ _ | .sari m d _ _ | .bfez m d _ _ _ | .bfes m d _ _ _ | .bfi m d _ _ _
  | .movi m d _ | .mov m d _ | .mad m d _ _ | .dp4s m d _ _ | .dp4u m d _ _ | .fadd m d _ _ | .fsub m d _ _
  | .fmul m d _ _ | .fma m d _ _ | .fmin m d _ _ | .fmax m d _ _ | .fminnum m d _ _ | .fmaxnum m d _ _
  | .fcopysign m d _ _ | .fscale m d _ _ | .qc4 m d _ _ | .fabs m d _ | .fneg m d _ | .fclass m d _
  | .faddX2 m d _ _ _ | .fsubX2 m d _ _ _ | .fmulX2 m d _ _ _ | .fmaX2 m d _ _ _ | .fminX2 m d _ _ _
  | .fmaxX2 m d _ _ _ | .dot2 m d _ _ _ | .fabsX2 m d _ _ | .fnegX2 m d _ _ | .p2g m d => some (m, [one d], [])
  | .add64 m d _ _ | .sub64 m d _ _ | .mul64 m d _ _ | .mulhs64 m d _ _ | .mulhu64 m d _ _ | .mins64 m d _ _
  | .minu64 m d _ _ | .maxs64 m d _ _ | .maxu64 m d _ _ | .and64 m d _ _ | .or64 m d _ _ | .xor64 m d _ _
  | .andn64 m d _ _ | .shl64 m d _ _ | .shr64 m d _ _ | .sar64 m d _ _ | .rol64 m d _ _ | .ror64 m d _ _
  | .addus64 m d _ _ | .subus64 m d _ _ | .mulws m d _ _ | .mulwu m d _ _ | .madws m d _ _ | .madwu m d _ _
  | .clz64 m d _ | .ffs64 m d _ | .popc64 m d _ | .brev64 m d _ | .abs64 m d _ | .neg64 m d _ | .addi64 m d _ _
  | .muli64 m d _ _ | .andi64 m d _ _ | .ori64 m d _ _ | .xori64 m d _ _ | .shli64 m d _ _ | .shri64 m d _ _
  | .sari64 m d _ _ | .movdi m d _ | .leai m d _ _ | .movd m d _ | .leas m d _ _ _ | .leaz m d _ _ _ =>
    some (m, [pair d], [])
  | .movq m d _ => some (m, [quad d], [])
  | .dqc4 m d _ _ => some (m, [eight d], [])
  | .sel m d _ _ _ _ w => some (m, [wide w d], [])
  | .cvt m d _ t _ _ _ => some (m, [t.blk d], [])
  | .cmp m p _ _ _ _ | .cmpImm m p _ _ _ _ | .pand m p _ _ _ _ | .por m p _ _ _ _ | .pxor m p _ _ _ _ =>
    some (m, [], [p])
  | .g2p m _ => some (m, [], upperPreds)
  | _ => none

/-- The numbers of the registers of some blocks. -/
def regsOf (l : List Blk) : List Nat := l.flatMap fun b => (List.range b.count).map (b.base + ·)

end Sys2Proof

namespace Sys2Proof.Claim

/-! ## The integer operations of R116 on bit vectors -/

/-- The greatest or the least signed value. -/
def limit (w : Nat) (neg : Bool) : BitVec w := if neg then BitVec.intMin w else BitVec.intMax w

/-- a + b, with signed saturation under `sat`. -/
def add {w : Nat} (sat : Bool) (a b : BitVec w) : BitVec w :=
  if sat && a.saddOverflow b then limit w a.msb else a + b

/-- a − b, with signed saturation under `sat`. -/
def sub {w : Nat} (sat : Bool) (a b : BitVec w) : BitVec w :=
  if sat && a.ssubOverflow b then limit w a.msb else a - b

/-- a × b, with signed saturation under `sat`. -/
def mul {w : Nat} (sat : Bool) (a b : BitVec w) : BitVec w :=
  if sat && a.smulOverflow b then limit w (a.msb != b.msb) else a * b

/-- The high half of the signed product. -/
def mulhs {w : Nat} (a b : BitVec w) : BitVec w :=
  (a.signExtend (2 * w) * b.signExtend (2 * w)).extractLsb' w w

/-- The high half of the unsigned product. -/
def mulhu {w : Nat} (a b : BitVec w) : BitVec w :=
  (a.setWidth (2 * w) * b.setWidth (2 * w)).extractLsb' w w

/-- The lesser, signed. -/
def mins {w : Nat} (a b : BitVec w) : BitVec w := if b.slt a then b else a

/-- The lesser, unsigned. -/
def minu {w : Nat} (a b : BitVec w) : BitVec w := if b.ult a then b else a

/-- The greater, signed. -/
def maxs {w : Nat} (a b : BitVec w) : BitVec w := if a.slt b then b else a

/-- The greater, unsigned. -/
def maxu {w : Nat} (a b : BitVec w) : BitVec w := if a.ult b then b else a

/-- Left shift by b mod w. -/
def shl {w : Nat} (a b : BitVec w) : BitVec w := a <<< (b.toNat % w)

/-- Logical right shift by b mod w. -/
def shr {w : Nat} (a b : BitVec w) : BitVec w := a >>> (b.toNat % w)

/-- Arithmetic right shift by b mod w. -/
def sar {w : Nat} (a b : BitVec w) : BitVec w := a.sshiftRight (b.toNat % w)

/-- Rotate left by b mod w. -/
def rol {w : Nat} (a b : BitVec w) : BitVec w := a.rotateLeft (b.toNat % w)

/-- Rotate right by b mod w. -/
def ror {w : Nat} (a b : BitVec w) : BitVec w := a.rotateRight (b.toNat % w)

/-- The index of the least significant 1 bit, all ones without one. -/
def ffs {w : Nat} (a : BitVec w) : BitVec w := if a = 0 then BitVec.allOnes w else a.ctz

/-- |a|, with the most negative value kept or, under `sat`, taken to the greatest. -/
def abs {w : Nat} (sat : Bool) (a : BitVec w) : BitVec w :=
  if sat && a.negOverflow then BitVec.intMax w else if a.msb then -a else a

/-- −a, with the most negative value kept or, under `sat`, taken to the greatest. -/
def neg {w : Nat} (sat : Bool) (a : BitVec w) : BitVec w := if sat && a.negOverflow then BitVec.intMax w else -a

/-- a + b, at most the greatest unsigned value. -/
def addus {w : Nat} (a b : BitVec w) : BitVec w := if a.uaddOverflow b then BitVec.allOnes w else a + b

/-- a − b, at least zero. -/
def subus {w : Nat} (a b : BitVec w) : BitVec w := if a.ult b then 0 else a - b

/-- What an atomic of w bits leaves where it found `old` (R205): CAS leaves b where it found a, and FADD adds in FP32
to nearest even. -/
def atomic (w : Nat) (op : AtomOp) (old a b : Nat) : Nat :=
  let x : BitVec w := BitVec.ofNat w old
  let y : BitVec w := BitVec.ofNat w a
  match op with
  | .add => (x + y).toNat
  | .mins => (mins x y).toNat
  | .minu => (minu x y).toNat
  | .maxs => (maxs x y).toNat
  | .maxu => (maxu x y).toNat
  | .and => (x &&& y).toNat
  | .or => (x ||| y).toNat
  | .xor => (x ^^^ y).toNat
  | .xchg => y.toNat
  | .cas => if x = y then b % 2 ^ w else old
  | .fadd => (Machine.fp32.add Machine.rneEnv 0 (Machine.fp32.decode old) (Machine.fp32.decode a)).1

/-! ## Compares (R123, R124) -/

/-- The condition holds for two values that stand in this order; none when they are unordered. -/
def holds (cd : Cond) (o : Option Ordering) : Bool :=
  match o with
  | none =>
    match cd with
    | .nan | .ueq | .une | .ult | .ule | .ugt | .uge => true
    | .eq | .ne | .lt | .le | .gt | .ge | .num => false
  | some r =>
    match cd with
    | .eq | .ueq => r.isEq
    | .ne | .une => !r.isEq
    | .lt | .ult => r.isLT
    | .le | .ule => r.isLE
    | .gt | .ugt => r.isGT
    | .ge | .uge => r.isGE
    | .num => true
    | .nan => false

end Sys2Proof.Claim
end

