-- ==== Sys2Proof/Certificates/Slice0/Obligations.lean ====
section
/-! DEFINITION. The statements for the provers. -/

open Sys2Proof Sys2Proof.Machine

/-! ## Integer instructions (majors 0x01 to 0x0F) -/

/-- R115, R116 at 32 and at 64 bits: the result of every integer register form is the operation of R116 on its
sources, written to DST, a register or a pair, four cycles later.  MULWS and MULWU write the exact 64-bit
product to a pair. -/
def Obligations.IntegerRegisterForms : Prop :=
  (∀ (s : State) (c : Ctx) (m : Mods) (d a b : Reg),
     let x := s.reg32 c.t a
     let y := s.reg32 c.t b
     (s.Ready c m [one d] [one a, one b] →
       ∀ i v, (i, v) ∈ [(Instr.add m d a b, Claim.add m.sat x y), (.sub m d a b, Claim.sub m.sat x y),
           (.mul m d a b, Claim.mul m.sat x y), (.mulhs m d a b, Claim.mulhs x y), (.mulhu m d a b, Claim.mulhu x y),
           (.mins m d a b, Claim.mins x y), (.minu m d a b, Claim.minu x y), (.maxs m d a b, Claim.maxs x y),
           (.maxu m d a b, Claim.maxu x y), (.and m d a b, x &&& y), (.or m d a b, x ||| y), (.xor m d a b, x ^^^ y),
           (.andn m d a b, x &&& ~~~y), (.shl m d a b, Claim.shl x y), (.shr m d a b, Claim.shr x y),
           (.sar m d a b, Claim.sar x y), (.rol m d a b, Claim.rol x y), (.ror m d a b, Claim.ror x y),
           (.addus m d a b, Claim.addus x y), (.subus m d a b, Claim.subus x y)] →
         exec i s = wrote s c m [(d.val, v)]) ∧
     (s.Ready c m [one d] [one a] →
       ∀ i v, (i, v) ∈ [(Instr.clz m d a, x.clz), (.ffs m d a, Claim.ffs x), (.popc m d a, x.cpop),
           (.brev m d a, x.reverse), (.abs m d a, Claim.abs m.sat x), (.neg m d a, Claim.neg m.sat x)] →
         exec i s = wrote s c m [(d.val, v)]) ∧
     (s.Ready c m [pair d] [one a, one b] →
       ∀ i v, (i, v) ∈ [(Instr.mulws m d a b, x.signExtend 64 * y.signExtend 64),
           (.mulwu m d a b, x.setWidth 64 * y.setWidth 64)] →
         exec i s = wrote s c m [(d.val, lo32 v), (d.val + 1, hi32 v)])) ∧
  (∀ (s : State) (c : Ctx) (m : Mods) (d a b : Reg),
     let x := s.reg64 c.t a
     let y := s.reg64 c.t b
     (s.Ready c m [pair d] [pair a, pair b] →
       ∀ i v, (i, v) ∈ [(Instr.add64 m d a b, Claim.add m.sat x y), (.sub64 m d a b, Claim.sub m.sat x y),
           (.mul64 m d a b, Claim.mul m.sat x y), (.mulhs64 m d a b, Claim.mulhs x y),
           (.mulhu64 m d a b, Claim.mulhu x y), (.mins64 m d a b, Claim.mins x y), (.minu64 m d a b, Claim.minu x y),
           (.maxs64 m d a b, Claim.maxs x y), (.maxu64 m d a b, Claim.maxu x y), (.and64 m d a b, x &&& y),
           (.or64 m d a b, x ||| y), (.xor64 m d a b, x ^^^ y), (.andn64 m d a b, x &&& ~~~y),
           (.shl64 m d a b, Claim.shl x y), (.shr64 m d a b, Claim.shr x y), (.sar64 m d a b, Claim.sar x y),
           (.rol64 m d a b, Claim.rol x y), (.ror64 m d a b, Claim.ror x y), (.addus64 m d a b, Claim.addus x y),
           (.subus64 m d a b, Claim.subus x y)] →
         exec i s = wrote s c m [(d.val, lo32 v), (d.val + 1, hi32 v)]) ∧
     (s.Ready c m [pair d] [pair a] →
       ∀ i v, (i, v) ∈ [(Instr.clz64 m d a, x.clz), (.ffs64 m d a, Claim.ffs x), (.popc64 m d a, x.cpop),
           (.brev64 m d a, x.reverse), (.abs64 m d a, Claim.abs m.sat x), (.neg64 m d a, Claim.neg m.sat x)] →
         exec i s = wrote s c m [(d.val, lo32 v), (d.val + 1, hi32 v)]))

/-- R115, R116 at 16 and 8 bits: every element of DST is the operation on the same elements of the sources. -/
def Obligations.PackedIntegerForms : Prop :=
  ∀ (s : State) (c : Ctx) (m : Mods) (d a b : Reg),
    let x := s.reg32 c.t a
    let y := s.reg32 c.t b
    (s.Ready c m [one d] [one a, one b] →
      (∀ i (f : BitVec 16 → BitVec 16 → BitVec 16),
        (i, f) ∈ [(Instr.addX2 m d a b, Claim.add m.sat), (.subX2 m d a b, Claim.sub m.sat),
          (.mulX2 m d a b, Claim.mul m.sat), (.mulhsX2 m d a b, Claim.mulhs), (.mulhuX2 m d a b, Claim.mulhu),
          (.minsX2 m d a b, Claim.mins), (.minuX2 m d a b, Claim.minu), (.maxsX2 m d a b, Claim.maxs),
          (.maxuX2 m d a b, Claim.maxu), (.andX2 m d a b, fun p q => p &&& q), (.orX2 m d a b, fun p q => p ||| q),
          (.xorX2 m d a b, fun p q => p ^^^ q), (.andnX2 m d a b, fun p q => p &&& ~~~q), (.shlX2 m d a b, Claim.shl),
          (.shrX2 m d a b, Claim.shr), (.sarX2 m d a b, Claim.sar), (.rolX2 m d a b, Claim.rol),
          (.rorX2 m d a b, Claim.ror), (.addusX2 m d a b, Claim.addus), (.subusX2 m d a b, Claim.subus)] →
        ∃ v : Word, exec i s = wrote s c m [(d.val, v)] ∧
          ∀ k < 2, v.extractLsb' (16 * k) 16 = f (x.extractLsb' (16 * k) 16) (y.extractLsb' (16 * k) 16)) ∧
      (∀ i (f : BitVec 8 → BitVec 8 → BitVec 8),
        (i, f) ∈ [(Instr.addX4 m d a b, Claim.add m.sat), (.subX4 m d a b, Claim.sub m.sat),
          (.mulX4 m d a b, Claim.mul m.sat), (.mulhsX4 m d a b, Claim.mulhs), (.mulhuX4 m d a b, Claim.mulhu),
          (.minsX4 m d a b, Claim.mins), (.minuX4 m d a b, Claim.minu), (.maxsX4 m d a b, Claim.maxs),
          (.maxuX4 m d a b, Claim.maxu), (.andX4 m d a b, fun p q => p &&& q), (.orX4 m d a b, fun p q => p ||| q),
          (.xorX4 m d a b, fun p q => p ^^^ q), (.andnX4 m d a b, fun p q => p &&& ~~~q), (.shlX4 m d a b, Claim.shl),
          (.shrX4 m d a b, Claim.shr), (.sarX4 m d a b, Claim.sar), (.rolX4 m d a b, Claim.rol),
          (.rorX4 m d a b, Claim.ror), (.addusX4 m d a b, Claim.addus), (.subusX4 m d a b, Claim.subus)] →
        ∃ v : Word, exec i s = wrote s c m [(d.val, v)] ∧
          ∀ k < 4, v.extractLsb' (8 * k) 8 = f (x.extractLsb' (8 * k) 8) (y.extractLsb' (8 * k) 8))) ∧
    (s.Ready c m [one d] [one a] →
      (∀ i (f : BitVec 16 → BitVec 16),
        (i, f) ∈ [(Instr.clzX2 m d a, BitVec.clz), (.ffsX2 m d a, Claim.ffs), (.popcX2 m d a, BitVec.cpop),
          (.brevX2 m d a, BitVec.reverse), (.absX2 m d a, Claim.abs m.sat), (.negX2 m d a, Claim.neg m.sat)] →
        ∃ v : Word, exec i s = wrote s c m [(d.val, v)] ∧
          ∀ k < 2, v.extractLsb' (16 * k) 16 = f (x.extractLsb' (16 * k) 16)) ∧
      (∀ i (f : BitVec 8 → BitVec 8),
        (i, f) ∈ [(Instr.clzX4 m d a, BitVec.clz), (.ffsX4 m d a, Claim.ffs), (.popcX4 m d a, BitVec.cpop),
          (.brevX4 m d a, BitVec.reverse), (.absX4 m d a, Claim.abs m.sat), (.negX4 m d a, Claim.neg m.sat)] →
        ∃ v : Word, exec i s = wrote s c m [(d.val, v)] ∧
          ∀ k < 4, v.extractLsb' (8 * k) 8 = f (x.extractLsb' (8 * k) 8)))

/-- R118 to R121: the immediate forms are the register forms with the immediate of R60 in the place of SB,
signed for ADDI and MULI and unsigned for the others; with n = min(LEN, 32 − POS), BFEZ and BFES extract n bits
from POS with zero or sign extension and BFI replaces just those bits of DST by the low bits of SA; moves copy,
and LEA forms add an immediate or a scaled index to an address. -/
def Obligations.ImmediateAndMoveForms : Prop :=
  (∀ (s : State) (c : Ctx) (m : Mods) (d a : Reg) (k : BitVec 9),
     (s.Ready c m [one d] [one a] →
       let x := s.reg32 c.t a
       let y : Word := BitVec.ofInt 32 (immS m.wide k)
       let z : Word := BitVec.ofNat 32 (immU m.wide k)
       ∀ i v, (i, v) ∈ [(Instr.addi m d a k, Claim.add m.sat x y), (.muli m d a k, Claim.mul m.sat x y),
           (.andi m d a k, x &&& z), (.ori m d a k, x ||| z), (.xori m d a k, x ^^^ z), (.shli m d a k, Claim.shl x z),
           (.shri m d a k, Claim.shr x z), (.sari m d a k, Claim.sar x z)] →
         exec i s = wrote s c m [(d.val, v)]) ∧
     (s.Ready c m [pair d] [pair a] →
       let x := s.reg64 c.t a
       let y : DWord := BitVec.ofInt 64 (immS m.wide k)
       let z : DWord := BitVec.ofNat 64 (immU m.wide k)
       ∀ i v, (i, v) ∈ [(Instr.addi64 m d a k, Claim.add m.sat x y), (.muli64 m d a k, Claim.mul m.sat x y),
           (.andi64 m d a k, x &&& z), (.ori64 m d a k, x ||| z), (.xori64 m d a k, x ^^^ z),
           (.shli64 m d a k, Claim.shl x z), (.shri64 m d a k, Claim.shr x z), (.sari64 m d a k, Claim.sar x z)] →
         exec i s = wrote s c m [(d.val, lo32 v), (d.val + 1, hi32 v)])) ∧
  (∀ (s : State) (c : Ctx) (m : Mods) (d a : Reg) (p l : Fin 32),
     let x := s.reg32 c.t a
     let n := min (l.val + 1) (32 - p.val)
     (s.Ready c m [one d] [one a] →
       exec (.bfez m d a p l) s = wrote s c m [(d.val, (x.extractLsb' p.val n).setWidth 32)] ∧
       exec (.bfes m d a p l) s = wrote s c m [(d.val, (x.extractLsb' p.val n).signExtend 32)]) ∧
     (s.Ready c m [one d] [one a, one d] →
       ∃ v : Word, exec (.bfi m d a p l) s = wrote s c m [(d.val, v)] ∧
         ∀ k < 32, v.getLsbD k =
           if p.val ≤ k ∧ k < p.val + n then x.getLsbD (k - p.val) else (s.reg32 c.t d).getLsbD k)) ∧
  (∀ (s : State) (c : Ctx) (m : Mods) (d a b : Reg) (k : BitVec 9) (sh : Fin 4),
     let both := fun v : DWord => wrote s c m [(d.val, lo32 v), (d.val + 1, hi32 v)]
     (s.Ready c m [one d] [] → exec (.movi m d k) s = wrote s c m [(d.val, BitVec.ofInt 32 (immS m.wide k))]) ∧
     (s.Ready c m [pair d] [] → exec (.movdi m d k) s = both (BitVec.ofInt 64 (immS m.wide k))) ∧
     (s.Ready c m [pair d] [pair a] →
       exec (.leai m d a k) s = both (s.reg64 c.t a + BitVec.ofInt 64 (immS m.wide k)) ∧
       exec (.movd m d a) s = both (s.reg64 c.t a)) ∧
     (s.Ready c m [one d] [one a] → exec (.mov m d a) s = wrote s c m [(d.val, s.reg32 c.t a)]) ∧
     (s.Ready c m [quad d] [quad a] →
       exec (.movq m d a) s =
         wrote s c m ((List.range 4).map fun j => (d.val + j, c.t.rd s.tick s.freeCount (a.val + j)))) ∧
     (s.Ready c m [pair d] [pair a, one b] →
       exec (.leas m d a b sh) s = both (s.reg64 c.t a + (s.reg32 c.t b).signExtend 64 <<< sh.val) ∧
       exec (.leaz m d a b sh) s = both (s.reg64 c.t a + (s.reg32 c.t b).setWidth 64 <<< sh.val)))

/-- R122: the addend is the register OPD4 of the prefix, else DST itself; the exact value is narrowed once. -/
def Obligations.MultiplyAddForms : Prop :=
  ∀ (s : State) (c : Ctx) (m : Mods) (d a b : Reg),
    let e := addend m d
    let x := s.reg32 c.t a
    let y := s.reg32 c.t b
    let bytes := fun (f : BitVec 8 → BitVec 8 → Int) =>
      f (x.extractLsb' 0 8) (y.extractLsb' 0 8) + f (x.extractLsb' 8 8) (y.extractLsb' 8 8) +
        f (x.extractLsb' 16 8) (y.extractLsb' 16 8) + f (x.extractLsb' 24 8) (y.extractLsb' 24 8)
    let signed := fun (w : Nat) (v : Int) =>
      BitVec.ofInt w (if m.sat then max (-(2 ^ (w - 1))) (min v (2 ^ (w - 1) - 1)) else v)
    let unsigned := fun (w : Nat) (v : Int) => BitVec.ofInt w (if m.sat then max 0 (min v (2 ^ w - 1)) else v)
    (s.Ready c m [one d] [one a, one b, one e] →
      exec (.mad m d a b) s = wrote s c m [(d.val, signed 32 (x.toInt * y.toInt + (s.reg32 c.t e).toInt))] ∧
      exec (.dp4s m d a b) s =
        wrote s c m [(d.val, signed 32 ((s.reg32 c.t e).toInt + bytes fun p q => p.toInt * q.toInt))] ∧
      exec (.dp4u m d a b) s =
        wrote s c m [(d.val, unsigned 32 ((s.reg32 c.t e).toNat + bytes fun p q => (p.toNat * q.toNat : Nat)))]) ∧
    (s.Ready c m [pair d] [one a, one b, pair e] →
      ∀ i v, (i, v) ∈ [(Instr.madws m d a b, signed 64 (x.toInt * y.toInt + (s.reg64 c.t e).toInt)),
          (.madwu m d a b, unsigned 64 (x.toNat * y.toNat + (s.reg64 c.t e).toNat))] →
        exec i s = wrote s c m [(d.val, lo32 v), (d.val + 1, hi32 v)])

/-! ## Compares, selects and predicates -/

/-- R123 to R126, R109: CMP and CMP_IMM write whether the condition holds for their operands; a floating-point
compare raises NV for a signalling NaN, and for any NaN under LT, LE, GT and GE, and traps when NV is enabled
(R111).  SEL copies SA or SB by a predicate; PAND, POR and PXOR combine two predicates; P2G and G2P move the
predicates to a register and back, bit 0 of P2G being 1. -/
def Obligations.CompareAndSelectForms : Prop :=
  (∀ (s : State) (c : Ctx) (m : Mods) (p : Pred) (a b : Reg) (cd : Cond) (k : BitVec 10),
     (∀ ty : CmpType, ty.float = false → s.Ready c m [] [ty.blk a, ty.blk b] →
       exec (.cmp m p a b cd ty) s = .next (s.laneDone c m (LaneResult.ofPred p (Claim.holds cd
         (some (compare (s.intOperand c.t (cmpInt ty) a) (s.intOperand c.t (cmpInt ty) b))))))) ∧
     (∀ ty : IntType, s.Ready c m [] [ty.blk a] →
       exec (.cmpImm m p a cd ty k) s = .next (s.laneDone c m (LaneResult.ofPred p (Claim.holds cd
         (some (compare (s.intOperand c.t ty a) (intImmediate ty m k))))))) ∧
     (∀ ty : CmpType, ty.float = true → s.Ready c m [] [ty.blk a, ty.blk b] →
       let x := s.fltOperand c.t ty a
       let y := s.fltOperand c.t ty b
       let o := if x.isNan || y.isNan then none else some (compare x.key y.key)
       let nv := x.isSnan || y.isSnan || (o.isNone && (cd == .lt || cd == .le || cd == .gt || cd == .ge))
       exec (.cmp m p a b cd ty) s =
         if nv && (s.csr c.t).getLsbD 6 then .next (s.deliver c.t .fpInvalid 1)
         else .next (s.laneDone c m ⟨[], [(p, Claim.holds cd o)], FFlags.invalid nv, false⟩))) ∧
  (∀ (s : State) (c : Ctx) (m : Mods) (p pa pb : Pred) (na nb : Bool) (d a b : Reg),
     (s.Ready c m [one d] [one a, one b] →
       exec (.sel m d a b pa na false) s =
         wrote s c m [(d.val, if s.pred c.t pa != na then s.reg32 c.t a else s.reg32 c.t b)]) ∧
     (s.Ready c m [pair d] [pair a, pair b] →
       ∃ v : DWord, v = (if s.pred c.t pa != na then s.reg64 c.t a else s.reg64 c.t b) ∧
         exec (.sel m d a b pa na true) s = wrote s c m [(d.val, lo32 v), (d.val + 1, hi32 v)]) ∧
     (s.Ready c m [] [] →
       ∀ i (f : Bool → Bool → Bool), (i, f) ∈ [(Instr.pand m p pa na pb nb, and), (.por m p pa na pb nb, or),
           (.pxor m p pa na pb nb, Bool.xor)] →
         exec i s = .next (s.laneDone c m (LaneResult.ofPred p
           (f (s.pred c.t pa ^^ na) (s.pred c.t pb ^^ nb))))) ∧
     (s.Ready c m [one d] [] →
       ∃ v : Word, exec (.p2g m d) s = wrote s c m [(d.val, v)] ∧ v.getLsbD 0 = true ∧
         ∀ k < 32, v.getLsbD k = if h : k < 8 then s.pred c.t ⟨k, h⟩ else false) ∧
     (s.Ready c m [] [one d] →
       exec (.g2p m d) s = .next (s.laneDone c m
         ⟨[], [1, 2, 3, 4, 5, 6, 7].map fun q : Pred => (q, (s.reg32 c.t d).getLsbD q.val), FFlags.clear, false⟩)))

/-! ## Floating point -/

/-- R145 to R148: the FP32 forms: one rounding of the exact value, minima and maxima, and the forms on bits.
R149, R150: the packed forms compute each element on its own and raise every flag an element raises; DOT2 rounds
two exact products and an FP32 addend once.  That SR folds a register named twice once for each of its names is the
model's choice (log entries 9 and 79), and so is that an infinite operand of FSCALE under SAT gives the greatest
finite value (log entry 81). -/
def Obligations.FloatForms : Prop :=
  (∀ (s : State) (c : Ctx) (m : Mods) (d a b : Reg),
     let e := addend m d
     let env := fun l => s.renv c m (s.fold c.t l)
     let v := s.f32 c.t
     let x := s.reg32 c.t a
     let y := s.reg32 c.t b
     let ftz := csrFtz (s.csr c.t)
     (s.Ready c m [one d] [one a, one b] →
       ∀ i r, (i, r) ∈ [(Instr.fadd m d a b, fp32.add (env [a, b]) 0 (v a) (v b)),
           (.fsub m d a b, fp32.sub (env [a, b]) 0 (v a) (v b)), (.fmul m d a b, fp32.mul (env [a, b]) 0 (v a) (v b)),
           (.fmin m d a b, fp32.minMax ftz false false x.toNat y.toNat),
           (.fmax m d a b, fp32.minMax ftz true false x.toNat y.toNat),
           (.fminnum m d a b, fp32.minMax ftz false true x.toNat y.toNat),
           (.fmaxnum m d a b, fp32.minMax ftz true true x.toNat y.toNat)] →
         exec i s = raised s c m d (asWord r)) ∧
     (s.Ready c m [one d] [one a, one b] →
       exec (.fscale m d a b) s = raised s c m d (scaleOf (env [a, b]) (v a) y.toInt) ∧
       exec (.fcopysign m d a b) s = wrote s c m [(d.val, y.extractLsb' 31 1 ++ x.extractLsb' 0 31)]) ∧
     (s.Ready c m [one d] [one a, one b, one e] →
       exec (.fma m d a b) s = raised s c m d (asWord (fp32.fma (env [a, b, e]) 0 (v a) (v b) (v e)))) ∧
     (s.Ready c m [one d] [one a] →
       exec (.fabs m d a) s = wrote s c m [(d.val, 0#1 ++ x.extractLsb' 0 31)] ∧
       exec (.fneg m d a) s = wrote s c m [(d.val, (~~~x).extractLsb' 31 1 ++ x.extractLsb' 0 31)] ∧
       exec (.fclass m d a) s = wrote s c m [(d.val, BitVec.ofNat 32 (fp32.classOf x.toNat))])) ∧
  (∀ (s : State) (c : Ctx) (m : Mods) (d a b : Reg) (f : HalfFmt),
     let e := addend m d
     let g := halfFormat f
     let env := fun l => s.renv c m (s.fold c.t l)
     let h := s.halfVal c.t f
     let code := fun (r : Reg) (k : Nat) => ((s.reg32 c.t r).extractLsb' (16 * k) 16).toNat
     let ftz := csrFtz (s.csr c.t)
     let pack := fun r : Nat → Nat × FFlags =>
       (BitVec.ofNat 32 ((r 1).1 * 2 ^ 16 + (r 0).1), (r 0).2.join (r 1).2)
     (s.Ready c m [one d] [one a, one b] →
       ∀ i r, (i, r) ∈ [(Instr.faddX2 m d a b f, fun k => g.add (env [a, b]) k (h a k) (h b k)),
           (.fsubX2 m d a b f, fun k => g.sub (env [a, b]) k (h a k) (h b k)),
           (.fmulX2 m d a b f, fun k => g.mul (env [a, b]) k (h a k) (h b k)),
           (.fminX2 m d a b f, fun k => g.minMax ftz false false (code a k) (code b k)),
           (.fmaxX2 m d a b f, fun k => g.minMax ftz true false (code a k) (code b k))] →
         exec i s = raised s c m d (pack r)) ∧
     (s.Ready c m [one d] [one a, one b, one e] →
       exec (.fmaX2 m d a b f) s =
         raised s c m d (pack fun k => g.fma (env [a, b, e]) k (h a k) (h b k) (h e k)) ∧
       exec (.dot2 m d a b f) s =
         raised s c m d (asWord (fp32.sum (env [a, b, e]) 0 [h a 0, h a 1, h b 0, h b 1, s.f32 c.t e]
           [(h a 0).mul (h b 0), (h a 1).mul (h b 1), s.f32 c.t e]
           (zeroTimesInf (h a 0) (h b 0) || zeroTimesInf (h a 1) (h b 1))))) ∧
     (s.Ready c m [one d] [one a] →
       exec (.fabsX2 m d a f) s = wrote s c m [(d.val, s.reg32 c.t a &&& 0x7FFF7FFF)] ∧
       exec (.fnegX2 m d a f) s = wrote s c m [(d.val, s.reg32 c.t a ^^^ 0x80008000)]))

/-- R154 to R157: CVT replaces one element of its destination by the converted element, or a pair; QC4 packs eight
quantised FP32 values, and DQC4 unpacks eight.  That the prior destination of a narrow conversion is no source of the
SR fold is the model's choice (log entry 80), and so is the fold of a register named twice (log entry 79). -/
def Obligations.ConversionForms : Prop :=
  ∀ (s : State) (c : Ctx) (m : Mods) (d a b : Reg) (tf ff : Fmt) (p q : Fin 4),
    (s.Ready c m [tf.blk d] (ff.blk a :: (if tf.width < 32 then [one d] else [])) →
      let r := convert (s.renv c m (s.fold c.t (cvtSrcs ff a))) p.val tf ff (s.cvtSource c.t ff a q)
      exec (.cvt m d a tf ff p q) s =
        match fpTrap (s.csr c.t) r.2 with
        | some cause => .next (s.deliver c.t cause (BitVec.ofNat 64 r.2.code))
        | none => .next (s.laneDone c m ⟨cvtWrites (s.reg32 c.t d) tf d p r.1, [], r.2, false⟩)) ∧
    (s.Ready c m [one d] [eight a, one b] →
      let w := (s.reg32 c.t b).toNat % 2 ^ 16
      let env := s.renv c m (s.fold c.t (eightRegs a ++ [b]))
      let r := fun k : Fin 8 => quantise env k.val w (s.f32 c.t (a + ⟨k.val, by omega⟩))
      exec (.qc4 m d a b) s = raised s c m d
        (BitVec.ofNat 32 ((List.finRange 8).map fun k => (r k).1 * 16 ^ k.val).sum,
          (List.finRange 8).foldl (fun f k => f.join (r k).2) FFlags.clear)) ∧
    (s.Ready c m [eight d] [one a, one b] →
      let w := (s.reg32 c.t b).toNat % 2 ^ 16
      exec (.dqc4 m d a b) s =
        match fpTrap (s.csr c.t) (FFlags.invalid (scaleBad w)) with
        | some cause => .next (s.deliver c.t cause (BitVec.ofNat 64 (FFlags.invalid (scaleBad w)).code))
        | none => .next (s.laneDone c m
            ⟨(List.range 8).map fun k =>
                (d.val + k, dequantise w ((s.reg32 c.t a).extractLsb' (4 * k) 4).toNat), [],
              FFlags.invalid (scaleBad w), false⟩))

/-- R103: rounding takes one of the two encodings next to the exact value num / den, the value itself when it is
one; RTZ takes the lower magnitude, RUP and RDN go by the sign, RNE and RNA take the nearer, a tie going to the even one
or away from zero, and SR the higher one where the fraction and the element's random bits carry out of 16 bits; R105
says which bits those are in an instruction whose source registers fold to a value (the fold of a register that is named
twice, and that of a conversion, are log entries 9, 79 and 80).  R104: past the greatest finite magnitude the format, the
mode and SAT say what the result is, with OF and NX, and so they do for an infinite operand.  R107: under FTZ a tiny result of
FP32, FP16 or BF16 is a zero of its sign with UF and NX, a subnormal operand of one of them is read as zero, and the
other formats round as without it. -/
def Obligations.RoundingTakesANeighbour : Prop :=
  (∀ f ∈ [fp32, fp16, bf16, e4m3, e5m2],
    let inf : Nat := if f = fp32 then 0x7F800000 else if f = fp16 then 0x7C00 else if f = bf16 then 0x7F80 else 0x7C
    let nan : Nat := if f = fp32 then 0x7FC00000 else if f = fp16 then 0x7E00 else if f = bf16 then 0x7FC0
      else if f = e4m3 then 0x7F else 0x7E
    let max : Nat := if f = fp32 then 0x7F7FFFFF else if f = fp16 then 0x7BFF else if f = bf16 then 0x7F7F
      else if f = e4m3 then 0x7E else 0x7B
    let signed := fun (neg : Bool) (k : Nat) => (if neg then 2 ^ (f.bits - 1) else 0) + k
    let big := fun neg : Bool => if f = e4m3 then nan else signed neg inf
    let flushes := f = fp32 ∨ f = fp16 ∨ f = bf16
    (∀ (env : REnv) (elem : Nat) (neg : Bool) (num den : Nat), 0 < num → 0 < den →
      let r := f.roundMag env elem neg num den
      let val := fun k : Nat =>
        if k / 2 ^ f.mbits = 0 then k * 2 ^ (299 - f.bias - f.mbits)
        else (2 ^ f.mbits + k % 2 ^ f.mbits) * 2 ^ (298 + k / 2 ^ f.mbits - f.bias - f.mbits)
      let tiny := num * unit < val (2 ^ f.mbits) * den
      (env.ftz = true → flushes → tiny → r = (signed neg 0, { FFlags.clear with uf := true, nx := true })) ∧
      (env.ftz = false ∨ ¬flushes ∨ ¬tiny → ∃ lo k, (k = lo ∨ k = lo + 1) ∧
        val lo * den ≤ num * unit ∧ num * unit < val (lo + 1) * den ∧
        (k ≤ max → r.1 = signed neg k ∧ r.2.of = false ∧ (r.2.nx = false ↔ val lo * den = num * unit) ∧
          (r.2.uf = true ↔ tiny ∧ r.2.nx = true)) ∧
        (max < k → r.2 = { FFlags.clear with of := true, nx := true } ∧
          r.1 = if env.sat then signed neg max
            else match env.mode with
              | .rne | .rna | .sr => big neg
              | .rtz => signed neg max
              | .rup => if neg then signed neg max else big neg
              | .rdn => if neg then big neg else signed neg max) ∧
        (val lo * den = num * unit → k = lo) ∧
        (val lo * den < num * unit → match env.mode with
          | .rtz => k = lo
          | .rup => (k = lo + 1 ↔ neg = false)
          | .rdn => (k = lo + 1 ↔ neg = true)
          | .rne => (k = lo + 1 ↔ (val lo + val (lo + 1)) * den < 2 * (num * unit) ∨
              ((val lo + val (lo + 1)) * den = 2 * (num * unit) ∧ lo % 2 = 1))
          | .rna => (k = lo + 1 ↔ (val lo + val (lo + 1)) * den ≤ 2 * (num * unit))
          | .sr => (k = lo + 1 ↔
              2 ^ 16 ≤ (num * unit - val lo * den) * 2 ^ 16 / ((val (lo + 1) - val lo) * den) + env.sr elem)))) ∧
    (∀ (env : REnv) (elem : Nat) (neg q : Bool),
      f.round env elem (.nan q) = (nan, FFlags.clear) ∧ f.round env elem (.fin neg 0) = (signed neg 0, FFlags.clear) ∧
      f.round env elem (.inf neg) = if env.sat then (signed neg max, FFlags.clear)
        else (big neg, { FFlags.clear with nv := decide (f = e4m3) })) ∧
    ∀ (ftz : Bool) (x : Nat), f.operand ftz x =
      if ftz = true ∧ flushes ∧ x % 2 ^ (f.bits - 1) < 2 ^ f.mbits then .fin (x.testBit (f.bits - 1)) 0 else f.decode x) ∧
  ∀ (s : State) (c : Ctx) (m : Mods) (fold : Word) (elem : Nat),
    let pc := c.t.pc + BitVec.ofNat 56 (4 * m.count)
    let counter := BitVec.ofNat 32 (pc.toNat / 4) ^^^ BitVec.ofNat 32 (elem * 2 ^ 24) ^^^ fold
    (s.renv c m fold).sr elem = (mix c.tm.rngkey c.linear 0xFFFFFFFF counter.toNat).toNat % 2 ^ 16 ∧
    (s.renv c m fold).sat = m.sat

/-! ## Every lane-class instruction -/

/-- R51, R59, R74, R111: a lane-class instruction ends in one of three ways: it completes, and what it writes
lies among its own destinations; or it delivers a trap; or a source is poisoned.  R16 and check 5 of R74: one
that names a register at or beyond the thread's allocation takes REG_RANGE, with the first such register in
XINFO.  That REG_RANGE comes before any other effect is the model's reading (log entry 29). -/
def Obligations.LaneClassOutcomes : Prop :=
  (∀ (s : State) (c : Ctx) (i : Instr) (m : Mods) (dst : List Blk) (pds : List Pred),
     s.cur? = some c → i.laneDst = some (m, dst, pds) →
     (∃ r : LaneResult, exec i s = .next (s.laneDone c m r) ∧ r.rngw = false ∧
       (∀ e ∈ r.regs, e.1 ∈ regsOf dst) ∧ ∀ e ∈ r.preds, e.1 ∈ pds) ∨
     (∃ cause info, exec i s = .next (s.deliver c.t cause info)) ∨
     ∃ r, exec i s = .next (s.poisonTrap c.t r)) ∧
  (∀ (s : State) (c : Ctx) (i : Instr) (m : Mods) (dst : List Blk) (pds : List Pred) (r : Nat),
     s.cur? = some c → i.laneDst = some (m, dst, pds) → s.on c.t m = true →
     firstBeyond c.t.alloc i.blocks = some r →
     exec i s = .next (s.deliver c.t .regRange (BitVec.ofNat 64 r)))

/-- R59: a lane-class instruction, a memory form or a fence of a thread that is predicated off writes nothing,
or, with ZERO set, zero to every destination register and false to every destination predicate; it reads no
register, accesses no memory and cannot trap. -/
def Obligations.PredicatedOff : Prop :=
  (∀ (s : State) (c : Ctx) (i : Instr) (m : Mods) (dst : List Blk) (pds : List Pred),
     s.cur? = some c → i.laneDst = some (m, dst, pds) → s.on c.t m = false →
     exec i s = .next (s.laneDone c m
       (if m.zero then ⟨(regsOf dst).map fun r => (r, 0), pds.map fun p => (p, false), FFlags.clear, false⟩
        else ⟨[], [], FFlags.clear, false⟩))) ∧
  (∀ (s : State) (c : Ctx) (m : Mods) (v b : Reg) (sp : Space) (w : MemWidth) (g : GranWidth) (sc : Scope)
     (o7 : BitVec 7) (o6 : BitVec 6) (o12 : BitVec 12) (op : AtomOp) (wd : Bool) (asp : AtomSpace) (r : MemOrd),
     s.cur? = some c → s.on c.t m = false →
     ∀ i dst, (i, dst) ∈ [(Instr.ld m v b sp w o7, [w.blk v]), (.ldAcq m v b sp w sc, [w.blk v]),
         (.st m v b sp w o7, []), (.stRel m v b sp w sc, []), (.ldfe m v b g o6, [g.blk v]),
         (.ldfec m v b g o6, [g.blk v]), (.stfull m v b g o6, []), (.ldfifo m v g o6, [g.blk v]),
         (.stfifo m v g o6, []), (.pfL1 m b o12, []), (.pfMsc m b o12, []), (.wb m sc b o12, []),
         (.inv m sc b o12, []), (.wbinv m sc b o12, []), (.atom m v b op wd asp sc r, [wide wd v]),
         (.red m v b op wd asp sc r, []), (.fence m sc, []), (.fenceAcq m sc, []), (.fenceRel m sc, []),
         (.tlfence m sc, [])] →
       exec i s = .next (s.done c m
         (if m.zero then c.t.puts ((regsOf dst).map fun q => (q, (0 : Word))) else c.t)))

/-- R51, R136, R432: what the completion of a lane-class instruction changes.  The result is noted with the tick
at which it is written, four ticks after issue at home and two on an Eddy core; the thread moves past its words;
no register, predicate, flag count, control register, trap frame or region of any thread changes, and nothing
else in the package does.  A stepped thread then takes its step trap.  R52, R61, R129, R432: the end of an
instruction.  The thread stands at its new place, may issue `delay` ticks later, waits for nothing, and has
given up its place if it said so; it issued in this tick, or when it was first held if it had issued then; no
other thread changes, and nothing else in the package does.  A stepped thread then takes its step trap.  R48, R136,
R348: an instruction that takes no transfer goes on with the next word of its clause, in the next cycle, which on
an Eddy core is the next Eddy cycle, two of which make a tick; at the end of the clause it goes back to the start
of a loop that ends there and has passes left, LC0 before LC1, and else to the next header.  That loop-back applies to
the clause that falls through alone is the model's choice (log entry 82), and that a word which executes again after a
wait keeps its issue is its reading (log entry 62). -/
def Obligations.InstructionEnds : Prop :=
  (∀ (s : State) (c : Ctx) (m : Mods) (r : LaneResult), s.cur? = some c →
     ∃ (s' : State) (t : Thread),
       s.laneDone c m r = (if stepped c.tm c.t then s'.deliver t .brk 0x400 else s') ∧
       { s' with threads := s.threads } = s ∧ (∀ id ≠ c.t.id, s'.thread? id = s.thread? id) ∧
       s'.thread? c.t.id = some t ∧
       t.pend = c.t.pend ++ [⟨s.tick + (if c.t.place = .home then 4 else 2), r.regs,
         r.preds.filter fun e => e.1 != 0, r.csr⟩] ∧
       (c.t.pc + BitVec.ofNat 56 (4 * m.words) ≠ c.t.nextHeader →
         t.pc = c.t.pc + BitVec.ofNat 56 (4 * m.words) ∧ t.cb = c.t.cb ∧ t.flow = c.t.flow) ∧
       { c.t with
         pend := t.pend, pc := t.pc, cb := t.cb, flow := t.flow, entered := t.entered
         lastIssue := t.lastIssue, lastHalf := t.lastHalf, ready := t.ready, readyHalf := t.readyHalf
         wait := .run, held := none, yielded := t.yielded, gaveTurn := t.gaveTurn, stepAt := stepped c.tm c.t } = t ∧
       (c.t.place = .home → t.ready = s.tick + 1) ∧
       t.flow.rstk = c.t.flow.rstk ∧ t.flow.depth = c.t.flow.depth) ∧
  (∀ (s : State) (c : Ctx) (m : Mods) (delay : Nat) (t : Thread), s.cur? = some c → t.id = c.t.id →
     ∃ (s' : State) (t' : Thread),
       s.commit c m delay t = (if stepped c.tm c.t then s'.deliver t' .brk 0x400 else s') ∧
       { s' with threads := s.threads } = s ∧ (∀ id ≠ c.t.id, s'.thread? id = s.thread? id) ∧
       s'.thread? c.t.id = some t' ∧
       t' = { t with
         lastIssue := if c.t.held.isSome ∧ c.t.wait.issued then c.t.lastIssue else s.tick
         lastHalf := t'.lastHalf, ready := s.tick + delay, readyHalf := s.secondHalf c.t, wait := .run, held := none
         stepAt := stepped c.tm c.t
         yielded := decide (m.sub = 4), gaveTurn := t.gaveTurn || decide (m.sub = 4) }) ∧
  (∀ (s : State) (c : Ctx) (m : Mods) (t : Thread),
     let next := t.cb + BitVec.ofNat 56 (4 * ((t.hdr.extractLsb' 9 3).toNat + 2))
     let here := t.pc + BitVec.ofNat 56 (4 * (m.count + 1))
     let after := fun l : Loop => if l.count ≠ 0 ∧ l.stop = t.cb then { l with count := l.count - 1 } else l
     let back := fun l : Loop => l.stop = t.cb ∧ l.count ≠ 0 ∧ l.count ≠ 1
     let closes := fun u : Thread => s.settleThread (stepped c.tm c.t) (s.issued c m (s.nextCycle c.t m.words) u)
     let goes := fun (f : Flow) (a : VAddr) => closes { t with flow := f, pc := a &&& ~~~3, cb := a &&& ~~~3, entered := false }
     (c.t.place = .home → ∀ u, closes u = s.commit c m 1 u) ∧
     (c.t.place ≠ .home → c.t.endsLoop (m.count + 1) = false →
       s.nextCycle c.t m.words = if s.secondHalf c.t then (1, false) else (0, true)) ∧
     (here ≠ next → s.done c m t = closes { t with pc := here }) ∧
     (here = next → back t.flow.lc0 →
       s.done c m t = goes { t.flow with lc0 := after t.flow.lc0 } t.flow.lc0.start) ∧
     (here = next → ¬back t.flow.lc0 → back t.flow.lc1 →
       s.done c m t = goes { t.flow with lc0 := after t.flow.lc0, lc1 := after t.flow.lc1 } t.flow.lc1.start) ∧
     (here = next → ¬back t.flow.lc0 → ¬back t.flow.lc1 →
       s.done c m t = goes { t.flow with lc0 := after t.flow.lc0, lc1 := after t.flow.lc1 } next))

/-- R51, R110: LANE_RESULT_WRITE writes the result that is due, registers, predicates and FPCSR flags, and
leaves every other register as it was.  R110, R153: TRANSCENDENTAL_COMPLETE writes the result and the flags of
its operation, lowers its clause's flags, and changes nothing else.  R170, R173: a matrix instruction completes for
all its signers at once: each has its own elements and flags written and its clause's flags lowered; no other
thread changes, and memory stays.  That the results of a matrix operation replace what a thread wrote there meanwhile
is the model's choice (log entry 83). -/
def Obligations.ResultsWritten : Prop :=
  (∀ (s : State) (th : Nat) (t : Thread) (p : Pend) (rest : List Pend), s.thread? th = some t →
     t.pend = p :: rest → p.due ≤ s.tick → (∀ q ∈ rest, s.tick < q.due) →
     (p.regs.map Prod.fst).Nodup → (p.preds.map Prod.fst).Nodup →
     ∃ t' : Thread, exec (.laneResultWrite th) s = .next (s.setThread t') ∧ t'.pend = rest ∧
       (∀ r : Reg, t'.regs[r] = (p.regs.lookup r.val).getD t.regs[r]) ∧
       (∀ q : Pred, q ≠ 0 → t'.preds.getLsbD q.val = (p.preds.lookup q).getD (t.preds.getLsbD q.val)) ∧
       t'.fpcsr = t.fpcsr ||| p.csr ∧
       { t with regs := t'.regs, preds := t'.preds, fpcsr := t'.fpcsr, pend := t'.pend, poison := t'.poison } = t') ∧
  (∀ (s : State) (o : Op) (t : Thread) (d : Nat) (v : Word) (f : BitVec 5), s.op? o.id = some o →
     s.thread? o.th = some t → o.kind = .trans [(d, v)] f →
     ∃ s' t', exec (.transcendentalComplete o.id) s = .next s' ∧ s'.thread? o.th = some t' ∧
       (∀ r : Reg, t'.regs[r] = if r.val = d then v else t.regs[r]) ∧ t'.fpcsr = t.fpcsr ||| f.setWidth 32 ∧
       (∀ k : Fin 12, t'.flags[k] = t.flags[k] - b2n (o.flags.getLsbD k.val)) ∧ t'.pc = t.pc ∧ t'.preds = t.preds ∧
       (∀ id ≠ o.th, s'.thread? id = s.thread? id) ∧ s'.ops = s.ops.filter (fun x => x.id != o.id) ∧ s'.ms = s.ms) ∧
  (∀ (s : State) (o : Op) (l : List Op) (regs : Op → List (Nat × Word)) (f : Op → BitVec 5), s.op? o.id = some o →
     (s.ops.filter fun x => x.issue == o.issue) = l → (l.map Op.th).Nodup →
     (∀ x ∈ l, x.kind = .matrix [(x.th, regs x)] (f x) ∧ ((regs x).map Prod.fst).Nodup ∧ (s.thread? x.th).isSome) →
     ∃ s', exec (.matrixComplete o.id) s = .next s' ∧
       (∀ x ∈ l, ∀ t, s.thread? x.th = some t → ∃ t', s'.thread? x.th = some t' ∧
         (∀ r : Reg, t'.regs[r] = ((regs x).lookup r.val).getD t.regs[r]) ∧ t'.fpcsr = t.fpcsr ||| (f x).setWidth 32 ∧
         (∀ k : Fin 12, t'.flags[k] = t.flags[k] - b2n (x.flags.getLsbD k.val)) ∧ t'.pc = t.pc ∧ t'.preds = t.preds) ∧
       (∀ id, (∀ x ∈ l, x.th ≠ id) → s'.thread? id = s.thread? id) ∧
       s'.ops = s.ops.filter (fun x => l.all fun y => x.id != y.id) ∧ s'.ms = s.ms)

/-- R159, R160: RAND writes the generator's word and RANDF the same value in [0, 1), and both advance the
counter, noting in RNGW that it wrapped; predicated off, they change nothing, or with ZERO write zero to DST
alone.  R112, R151 to R153: with no exception enabled a form of major 0x1A issues as a long-class operation, 24
ticks for most and 40 for SQRT and DIV (ResultsWritten says what its completion writes).  With an exception
enabled it writes its result and flags at once, or traps.  R59: of a thread that is predicated off such a form writes
nothing, or zero under ZERO, and raises no flag.  That a result comes exactly at the end of R153's bound is the model's
choice (log entry 89), and so is the SR operand of a register named twice (log entries 9 and 79). -/
def Obligations.GeneratorAndTranscendentalForms : Prop :=
  (∀ (s : State) (c : Ctx) (m : Mods) (d a b : Reg),
     let ctr := s.reg32 c.t a
     let y := mix c.tm.rngkey c.linear (s.reg32 c.t b).toNat ctr.toNat
     (s.Ready c m [one d] [one a, one b] →
       exec (.rand m d a b) s =
         .next (s.laneDone c m ⟨[(d.val, y), (a.val, ctr + 1)], [], FFlags.clear, ctr == 0xFFFFFFFF⟩) ∧
       exec (.randf m d a b) s =
         .next (s.laneDone c m ⟨[(d.val, BitVec.ofNat 32
             (fp32.round rneEnv 0 (.fin false (y.toNat / 2 ^ 8 * 2 ^ 274))).1), (a.val, ctr + 1)], [],
           FFlags.clear, ctr == 0xFFFFFFFF⟩)) ∧
     (s.cur? = some c → s.on c.t m = false → ∀ i ∈ [Instr.rand m d a b, .randf m d a b],
       exec i s = wrote s c m (if m.zero then [(d.val, 0)] else []))) ∧
  (∀ (s : State) (c : Ctx) (m : Mods) (d a b : Reg),
     let x := s.reg32 c.t a
     let v := s.f32 c.t
     let env := s.renv c m (s.fold c.t [a])
     let raw := s.renv c m 0
     ∀ i reads delay r, (i, reads, delay, r) ∈
       [(Instr.rcp m d a, [one a], 24, rcpOf env (v a)), (.rsq m d a, [one a], 24, rsqOf x (v a)),
         (.sqrt m d a, [one a], 40, sqrtOf env (v a)), (.ex2 m d a, [one a], 24, ex2Of raw x (v a)),
         (.lg2 m d a, [one a], 24, lg2Of raw x (v a)), (.sin m d a, [one a], 24, sinCosOf raw false x (v a)),
         (.cos m d a, [one a], 24, sinCosOf raw true x (v a)), (.tanh m d a, [one a], 24, tanhOf raw x (v a)),
         (.div m d a b, [one a, one b], 40, divOf (s.renv c m (s.fold c.t [a, b])) (v a) (v b))] →
       s.Ready c m [one d] reads →
       let csr := s.csr c.t
       let fl := BitVec.ofNat 5 r.2.code
       (csr.getLsbD 6 = false → csr.getLsbD 7 = false → csr.getLsbD 8 = false →
         c.t.flagRoom (hdrSets c.t.hdr) = true →
         exec i s = issued s c m (Op.mk' s.nextId c.t (.trans [(d.val, r.1)] fl) (s.tick + delay))) ∧
       (csrTraps csr = true → fpTrap csr r.2 = none →
         exec i s = .next (s.done c m ((c.t.put d.val r.1).orCsr (fl.setWidth 32)))) ∧
       ∀ cause, fpTrap csr r.2 = some cause →
         exec i s = .next (s.deliver c.t cause (BitVec.ofNat 64 r.2.code))) ∧
  (∀ (s : State) (c : Ctx) (m : Mods) (d a b : Reg), s.cur? = some c → s.on c.t m = false →
     ∀ i ∈ [Instr.rcp m d a, .rsq m d a, .sqrt m d a, .ex2 m d a, .lg2 m d a, .sin m d a, .cos m d a, .tanh m d a,
         .div m d a b],
       exec i s = .next (s.done c m (if m.zero then c.t.put d.val 0 else c.t)))

/-! ## Control -/

/-- R60, R129, R131: a branch without the EJECT hint, or on an Eddy core (R345), goes to the word's address plus four
times its offset, which a wide immediate extends, when its predicate or its comparison holds, and to the next word
otherwise.  R132, R343: with the hint at home a branch takes the same effect, and the last member of its issue group
decides for the side with fewer threads: none of them is ejected in deterministic mode, when there are more of them
than THRESH of one of their teams, or than free contexts, which SHORT counts; else each of them leaves for a
context.  R128, R129, R133,
R134: calls push the header after their clause, RET pops it, and each goes to its target; a call at depth 8
takes RSTACK_OVER, a RET at depth 0 RET_EMPTY, and a target that is no canonical address ADDR_NONCANON, without
any effect of the transfer.  That a member which traps did not take the branch is the model's reading (log entry 69). -/
def Obligations.BranchAndCallForms : Prop :=
  (∀ (s : State) (c : Ctx) (m : Mods) (p : Pred) (n : Bool) (a b : Reg) (k : BitVec 19) (o : BitVec 9),
     m.sub ≠ 5 ∨ c.t.place ≠ .home →
     let word := c.t.pc + BitVec.ofNat 56 (4 * m.count)
     let goes := fun (taken : Bool) (by' : VAddr) =>
       if taken then s.commit c m 2 (c.t.jump (word + by')) else s.commit c m 1 (c.t.past m.words)
     let x := s.reg32 c.t a
     let y := s.reg32 c.t b
     (s.cur? = some c →
       exec (.bra m p n k) s = .next (goes (s.pred c.t p != n) (BitVec.ofInt 56 (4 * immS m.wide k)))) ∧
     (s.Ready' c [one a, one b] →
       ∀ i holds, (i, holds) ∈ [(Instr.beq m a b o, x == y), (.bne m a b o, x != y), (.blt m a b o, x.slt y),
           (.bge m a b o, y.sle x), (.bltu m a b o, x.ult y), (.bgeu m a b o, y.ule x)] →
         exec i s = .next (goes holds (BitVec.ofInt 56 (4 * immS m.wide o))))) ∧
  (∀ (s : State) (c : Ctx) (m : Mods) (p : Pred) (n : Bool) (a b : Reg) (k : BitVec 19) (o : BitVec 9),
     m.sub = 5 → c.t.place = .home →
     let word := c.t.pc + BitVec.ofNat 56 (4 * m.count)
     let goes := fun (taken : Bool) (by' : VAddr) =>
       let u := if taken then s.commit c m 2 (c.t.jump (word + by')) else s.commit c m 1 (c.t.past m.words)
       ({ u with issuing := if taken then { u.issuing with taken := c.t.id :: u.issuing.taken }
                            else { u.issuing with stayed := c.t.id :: u.issuing.stayed } } : State)
     let few := fun u : State =>
       if u.issuing.taken.length ≤ u.issuing.stayed.length then u.issuing.taken else u.issuing.stayed
     let die := coreDie c.tm.core
     let thresh := fun (u : State) (id : Nat) => (u.ctx? id).map fun x => x.tm.ejt
     let decides := fun (u : State) (i : Instr) =>
       (1 < u.issuing.members.length → exec i s = .next u) ∧
       (u.issuing.members.length ≤ 1 →
         (c.l.det = true ∨ few u = [] ∨
             (∃ id ∈ u.issuing.taken ++ u.issuing.stayed, ∃ e, thresh u id = some e ∧ e < (few u).length) →
           exec i s = .next u) ∧
         (c.l.det = false → few u ≠ [] →
             (∀ id ∈ u.issuing.taken ++ u.issuing.stayed, ∃ e, thresh u id = some e ∧ (few u).length ≤ e) →
           (u.eddyFree (u.vdPart c.l.dev) die < (few u).length →
             exec i s = .next (u.countEddy die fun e => { e with short := e.short + 1 })) ∧
           ((few u).length ≤ u.eddyFree (u.vdPart c.l.dev) die →
             ∃ u', exec i s = .next u' ∧ ∀ id ∈ few u, (u.issuing.trapped.any fun x => x.1 == id) = false →
               ∀ t, u.thread? id = some t → ∃ e x, u'.thread? id = some { t with place := .leaving e x 0 })))
     let x := s.reg32 c.t a
     let y := s.reg32 c.t b
     (s.cur? = some c → decides (goes (s.pred c.t p != n) (BitVec.ofInt 56 (4 * immS m.wide k))) (.bra m p n k)) ∧
     (s.Ready' c [one a, one b] →
       ∀ i holds, (i, holds) ∈ [(Instr.beq m a b o, x == y), (.bne m a b o, x != y), (.blt m a b o, x.slt y),
           (.bge m a b o, y.sle x), (.bltu m a b o, x.ult y), (.bgeu m a b o, y.ule x)] →
         decides (goes holds (BitVec.ofInt 56 (4 * immS m.wide o))) i)) ∧
  (∀ (s : State) (c : Ctx) (m : Mods) (p : Pred) (n : Bool) (a : Reg) (k : BitVec 19), s.cur? = some c →
     let f := c.t.flow
     let target := c.t.pc + BitVec.ofNat 56 (4 * m.count) + BitVec.ofInt 56 (4 * immS m.wide k)
     let x := s.reg64 c.t a
     let link := c.t.cb + BitVec.ofNat 56 (4 * ((c.t.hdr.extractLsb' 9 3).toNat + 2))
     (s.pred c.t p = n → ∀ i ∈ [Instr.call m p n k, .calli m p n a, .jmp m p n a, .ret m p n],
       exec i s = .next (s.commit c m 1 (c.t.past m.words))) ∧
     (s.pred c.t p ≠ n →
       (∀ h : f.depth < 8,
         let pushed : Thread := { c.t with flow := { f with rstk := f.rstk.set f.depth link, depth := f.depth + 1 } }
         exec (.call m p n k) s = .next (s.commit c m 2 (pushed.jump target)) ∧
         (s.Ready' c [pair a] → x.toNat < 2 ^ 56 →
           exec (.calli m p n a) s = .next (s.commit c m 3 (pushed.jump (x.setWidth 56))))) ∧
       (s.Ready' c [pair a] → x.toNat < 2 ^ 56 →
         exec (.jmp m p n a) s = .next (s.commit c m 3 (c.t.jump (x.setWidth 56)))) ∧
       (∀ h : f.depth - 1 < 8, 0 < f.depth →
         exec (.ret m p n) s = .next (s.commit c m 3
           ({ c.t with flow := { f with depth := f.depth - 1 } }.jump f.rstk[f.depth - 1]))) ∧
       (8 ≤ f.depth → exec (.call m p n k) s = .next (s.deliver c.t .rstackOver (target.setWidth 64)) ∧
         (s.Ready' c [pair a] → x.toNat < 2 ^ 56 → exec (.calli m p n a) s =
           .next (s.deliver c.t .rstackOver ((x.setWidth 56 &&& ~~~3#56).setWidth 64)))) ∧
       (s.Ready' c [pair a] → 2 ^ 56 ≤ x.toNat → ∀ i ∈ [Instr.jmp m p n a, .calli m p n a],
         exec i s = .next (s.deliver c.t .addrNoncanon x)) ∧
       (f.depth = 0 → exec (.ret m p n) s = .next (s.deliver c.t .retEmpty 0))))

/-- R135, R137: LOOP opens its level with the next header as its start, the header its offset names as its end and
SA as its count; with a zero count it goes past the end clause, and LBRK does so too and clears its level's count.  A
fatal fault on the read of the end header takes XLATE_FAULT at the word, with no effect.  That a LOOP with count 0 and
an LBRK skip the loop-back of the clause they end is the model's reading (log entry 27), and that a LOOP at an end
clause is a taken transfer is its choice (log entry 82). -/
def Obligations.LoopForms : Prop :=
  ∀ (s : State) (c : Ctx) (m : Mods) (l : Bool) (a : Reg) (o : BitVec 16),
    let set := fun x : Loop =>
      ({ c.t with flow := if l then { c.t.flow with lc1 := x } else { c.t.flow with lc0 := x } } : Thread)
    let lv := if l then c.t.flow.lc1 else c.t.flow.lc0
    let start := c.t.cb + BitVec.ofNat 56 (4 * ((c.t.hdr.extractLsb' 9 3).toNat + 2))
    let endh := c.t.pc + BitVec.ofNat 56 (4 * m.count) + BitVec.ofNat 56 (4 * immU m.wide o)
    let beyond := fun (e : VAddr) (h : Word) => e + BitVec.ofNat 56 (4 * ((h.extractLsb' 9 3).toNat + 2))
    let get := fun e : VAddr => s.fetch c.tm.core c.t.slice c.l.dev (max c.l.born c.t.born) c.t.level e
    (s.Ready' c [one a] → s.reg32 c.t a ≠ 0 →
      exec (.loop m l a o) s = .next (s.commit c m 2 ((set ⟨start, endh, s.reg32 c.t a⟩).jump start))) ∧
    (s.Ready' c [one a] → s.reg32 c.t a = 0 →
      (∀ h, get endh = .ok h → exec (.loop m l a o) s = .next (s.commit c m 2 (c.t.jump (beyond endh h)))) ∧
      ∀ f, get endh = .fault f → ¬(f.reason = 0 ∧ f.rpl = true) →
        exec (.loop m l a o) s = .next (s.deliver c.t .xlateFault (xlateInfo .fetch f endh.toNat))) ∧
    (s.cur? = some c →
      (∀ h, get lv.stop = .ok h →
        exec (.lbrk m l) s = .next (s.commit c m 2 ((set { lv with count := 0 }).jump (beyond lv.stop h)))) ∧
      ∀ f, get lv.stop = .fault f → ¬(f.reason = 0 ∧ f.rpl = true) →
        exec (.lbrk m l) s = .next (s.deliver c.t .xlateFault (xlateInfo .fetch f lv.stop.toNat)))

/-- R139, R350: JOIN completes, and the thread goes on, when no other thread of its group is away on an Eddy core, in
deterministic mode, and once its timeout has passed; else it waits, and a thread that is ejected comes home first.
R140, R432: YIELD completes and gives up the thread's place and its turn; SLEEP completes and holds the thread at the
next header for its cycles, counted from the cycle in which it issues (the model's choice, log entry 88), with the step
trap of a stepped thread after them.  R139, R140, R352: the wait of a JOIN
ends when its timeout has passed, and that of a SLEEP when its cycles have passed or the thread's team stops; before
that, and for a thread that waits for something else, nothing changes.  A JOIN, YIELD or SLEEP whose predicate does
not hold goes on with the next header.  That a word which goes on takes the row 'not taken' of R129 is the model's
reading (log entry 86). -/
def Obligations.WaitingForms : Prop :=
  (∀ (s : State) (c : Ctx) (m : Mods) (p : Pred) (n : Bool) (k : BitVec 19), s.cur? = some c →
     let away := s.threads.any fun x =>
       x.team == c.t.team && x.grp == c.t.grp && x.id != c.t.id && x.place.context.isSome
     let until' := c.t.held.getD s.tick + (if m.sub = 2 then m.arg % 65536 else 4096)
     let past := s.commit c m 1 (c.t.past m.words)
     let cycles := immU m.wide k % 2 ^ 32
     let elsewhere := ∀ e x, c.t.place ≠ .eddy e x
     let waits := fun w : Wait =>
       let u : Thread := { c.t with wait := w, held := some (c.t.held.getD s.tick) }
       if c.t.held.isSome ∧ c.t.wait.issued then u
       else { u with lastIssue := s.tick, lastHalf := s.secondHalf c.t, stepAt := stepped c.tm c.t }
     (s.pred c.t p = n → ∀ i ∈ [Instr.join m p n, .yield m p n, .sleep m p n k], exec i s = .next past) ∧
     (s.pred c.t p ≠ n →
       (elsewhere → away = false ∨ c.l.det = true ∨ until' ≤ s.tick → exec (.join m p n) s = .next past) ∧
       (elsewhere → away = true → c.l.det = false → s.tick < until' →
         exec (.join m p n) s = .next (s.setThread (waits (.join until')))) ∧
       (∀ e x, c.t.place = .eddy e x → exec (.join m p n) s = .next (s.setThread { c.t with place := .recallWanted e x })) ∧
       exec (.yield m p n) s =
         .next (past.modThread c.t.id fun t => { t with yielded := true, gaveTurn := true }) ∧
       (cycles = 0 → exec (.sleep m p n k) s = .next past) ∧
       (cycles ≠ 0 → exec (.sleep m p n k) s = .next (s.setThread
         { s.issued c m (cycles, s.secondHalf c.t) (c.t.past m.words) with
           wait := .sleep (s.tick + cycles) (stepped c.tm c.t) })))) ∧
  (∀ (s : State) (th : Nat) (t : Thread) (d : Nat) (stepping : Bool), s.thread? th = some t →
     let t' := { t with wait := .run }
     let go := s.setThread t'
     let stops := ∃ tm, s.team? t.team = some tm ∧ tm.phase ≠ .running
     (t.wait = .join d → d ≤ s.tick → exec (.joinTimeout th) s = .next go) ∧
     (t.wait = .join d → s.tick < d → exec (.joinTimeout th) s = .next s) ∧
     (t.wait = .sleep d stepping → d ≤ s.tick ∨ stops →
       exec (.sleepExpire th) s = .next (if stepping then go.deliver t' .brk 0x400 else go)) ∧
     (t.wait = .sleep d stepping → s.tick < d → ¬stops → exec (.sleepExpire th) s = .next s) ∧
     ((∀ e, t.wait ≠ .join e) → exec (.joinTimeout th) s = .next s) ∧
     ((∀ e b, t.wait ≠ .sleep e b) → exec (.sleepExpire th) s = .next s))

/-- R28, R141: EXIT waits for the thread's long-class operations; then the thread is gone, and its lane is in the
declared mask of no convergence register that records its group.  The outstanding operations stay. -/
def Obligations.ExitForm : Prop :=
  ∀ (s : State) (c : Ctx) (m : Mods) (p : Pred) (n : Bool), s.cur? = some c →
    (s.pred c.t p = n → exec (.exit m p n) s = .next (s.commit c m 1 (c.t.past m.words))) ∧
    (s.pred c.t p ≠ n → (∃ o ∈ s.ops, o.th = c.t.id) →
      exec (.exit m p n) s = .next (s.setThread
        (let u : Thread := { c.t with wait := .exiting, held := some (c.t.held.getD s.tick) }
         if c.t.held.isSome ∧ c.t.wait.issued then u
         else { u with lastIssue := s.tick, lastHalf := s.secondHalf c.t, stepAt := stepped c.tm c.t }))) ∧
    (s.pred c.t p ≠ n → (∀ o ∈ s.ops, o.th ≠ c.t.id) →
      ∃ s' : State, exec (.exit m p n) s = .next s' ∧ s'.thread? c.t.id = none ∧ s'.ops = s.ops ∧
        (∀ tm, s'.team? c.tm.id = some tm → ∀ k : Fin 16, tm.convs[k].grp.toNat = c.t.grp →
          tm.convs[k].declared.getLsbD c.t.lane.val = false))

/-! ## Memory instructions -/

/-- R43, R44, R188: where an access of n bytes at an address lands: misaligned, or outside its space, it traps with
the first byte outside; a scratch access lands in the scratch of the team it names, and the private space is a window
of global addresses, where an access may cross from one 4 KiB unit to the next, each translated by itself (the model's
reading, log entry 35), and traps when a byte of it has no canonical address; one whose sum has wrapped past 2^64 to a
canonical one goes on (log entry 101). -/
def Obligations.AddressRules : Prop :=
  ∀ (s : State) (c : Ctx) (sp : Space) (a n : Nat) (want : XWant), 0 < n →
    let size := 4096 * c.tm.scr
    let pv := (c.l.pvbase.toNat + c.linear * c.l.pvsize.toNat + a) % 2 ^ 64
    (a % n ≠ 0 → s.access c sp a n want = .trap .misaligned (BitVec.ofNat 64 a)) ∧
    (a % n = 0 →
      (2 ^ 56 < a + n → s.access c .gl a n want = .trap .addrNoncanon (BitVec.ofNat 64 a)) ∧
      (a + n ≤ 2 ^ 56 → ∀ x, s.translate c.tm.core c.t.slice c.l.dev a want = .ok x → a % 4096 + n ≤ 4096 →
        s.access c .gl a n want = .ok (.mem x.key x.uncached) x.ord) ∧
      (size < a + n → s.access c .sc a n want = .trap .scratchBounds (BitVec.ofNat 64 (max a size))) ∧
      (a + n ≤ size → s.access c .sc a n want = .ok (.scr c.tm.id a) false) ∧
      (∀ k < c.tm.nteam, ∀ off, k < 16 → off < 2 ^ 21 → a = 2 ^ 21 * k + off → off + n ≤ size → k = c.tm.teamIdx →
        s.access c .cl a n want = .ok (.scr c.tm.id off) false) ∧
      (∀ k < c.tm.nteam, ∀ off, k < 16 → off < 2 ^ 21 → a = 2 ^ 21 * k + off → off + n ≤ size → k ≠ c.tm.teamIdx →
        s.access c .cl a n want = .ok (.scr (s.clusterTeamId c.tm k) off) false) ∧
      (∀ k off, off < 2 ^ 21 → a = 2 ^ 21 * k + off → (16 ≤ k ∨ c.tm.nteam ≤ k) →
        s.access c .cl a n want = .trap .scratchBounds (BitVec.ofNat 64 a)) ∧
      (∀ k < c.tm.nteam, ∀ off, k < 16 → off < 2 ^ 21 → a = 2 ^ 21 * k + off → size < off + n →
        s.access c .cl a n want = .trap .scratchBounds (BitVec.ofNat 64 (2 ^ 21 * k + max off size))) ∧
      (a + n ≤ c.l.pvsize.toNat → 2 ^ 56 < pv + n →
        s.access c .pv a n want = .trap .addrNoncanon (BitVec.ofNat 64 pv)) ∧
      (c.l.pvsize.toNat < a + n →
        s.access c .pv a n want = .trap .privateBounds (BitVec.ofNat 64 (max a c.l.pvsize.toNat))) ∧
      (a + n ≤ c.l.pvsize.toNat → pv + n ≤ 2 ^ 56 → ∀ x, s.translate c.tm.core c.t.slice c.l.dev pv want = .ok x →
        (pv % 4096 + n ≤ 4096 → s.access c .pv a n want = .ok (.mem x.key x.uncached) x.ord) ∧
        (4096 < pv % 4096 + n →
          let head := 4096 - pv % 4096
          ∀ y, s.translate c.tm.core c.t.slice c.l.dev (pv + head) want = .ok y →
            s.access c .pv a n want = .ok (if y.key = x.key + head then .mem x.key (x.uncached || y.uncached)
              else .split head x.key y.key (x.uncached || y.uncached)) (x.ord || y.ord))))

/-- R188, R194, R195: loads and stores whose address lands issue their operation, with the value of a store taken
from its registers; an address that traps traps, a fatal translation fault takes XLATE_FAULT, and a thread whose
page is not in its core's TLBs waits for the walk.  In deterministic mode a store to an ORD page waits for the
token (R294).  How long an access takes, and which of a
thread's accesses that nothing orders goes first, is left free (log entry 12). -/
def Obligations.LoadAndStoreForms : Prop :=
  ∀ (s : State) (c : Ctx) (m : Mods) (v b : Reg) (sp : Space) (w : MemWidth) (o : BitVec 7) (sc : Scope),
    let at' := fun off : Int => match sp with
      | .gl => (s.reg64 c.t b + BitVec.ofInt 64 off).toNat
      | .sc | .cl | .pv => (s.reg32 c.t b + BitVec.ofInt 32 off).toNat
    let ext := match w with
      | .s8 => Ext.sign8
      | .s16 => .sign16
      | .b8 | .b16 | .b32 | .b64 | .b128 => .zero
    let get := fun kind a => s.access c sp a w.bytes ⟨kind, false, c.t.level⟩
    let value := s.regN c.t v.val ((w.bytes + 3) / 4)
    let off := immS m.wide o
    (s.Ready c m [w.blk v] [sp.blk b] → ∀ i a acq,
      (i, a, acq) ∈ [(Instr.ld m v b sp w o, at' off, none), (.ldAcq m v b sp w sc, at' 0, some sc)] →
      (∀ loc ord, get .read a = .ok loc ord → c.t.flagRoom (hdrSets c.t.hdr) = true →
        issues s c m (.load v.val w.bytes ext loc acq) (exec i s)) ∧
      (∀ cause info, get .read a = .trap cause info → exec i s = .next (s.deliver c.t cause info)) ∧
      (∀ va f, get .read a = .fault va f → ¬(f.reason = 0 ∧ f.rpl = true) →
        exec i s = .next (s.deliver c.t .xlateFault (xlateInfo .read f va))) ∧
      (∀ va, get .read a = .miss va → exec i s = .next (s.hold c.t (.walk va .read false)))) ∧
    (s.Ready c m [] [w.blk v, sp.blk b] → ∀ i a rel,
      (i, a, rel) ∈ [(Instr.st m v b sp w o, at' off, none), (.stRel m v b sp w sc, at' 0, some sc)] →
      (∀ loc ord, get .write a = .ok loc ord → c.t.flagRoom (hdrSets c.t.hdr) = true →
        (c.l.det && ord && c.group != c.l.holder) = false →
        issues s c m (.store w.bytes value loc rel) (exec i s)) ∧
      (∀ loc ord, get .write a = .ok loc ord → (c.l.det && ord && c.group != c.l.holder) = true →
        exec i s = .next (s.hold c.t .token)) ∧
      (∀ cause info, get .write a = .trap cause info → exec i s = .next (s.deliver c.t cause info)) ∧
      (∀ va f, get .write a = .fault va f → ¬(f.reason = 0 ∧ f.rpl = true) →
        exec i s = .next (s.deliver c.t .xlateFault (xlateInfo .write f va))) ∧
      (∀ va, get .write a = .miss va → exec i s = .next (s.hold c.t (.walk va .write false))))

/-- R198 to R201, R228: full-empty and FIFO forms issue their operation; LDFEC and the FIFO forms trap inside an
open region, and a FIFO form traps when its bank is no FIFO of the thread's device.  The team carries the FIFO
mark from its first FIFO form on.  R204, R205: an atomic takes its operands from its registers, two for CAS, and
issues; a reduction does the same without a destination; inside an open region both trap.  The FIFO mark is the
model's reading of how a save ties the team to its core (log entry 36). -/
def Obligations.GranuleAndAtomicForms : Prop :=
  (∀ (s : State) (c : Ctx) (m : Mods) (v b : Reg) (w : GranWidth) (o : BitVec 6),
     let a := (s.reg32 c.t b + BitVec.ofInt 32 (immS m.wide o)).toNat
     let value := s.regN c.t v.val (w.bytes / 4)
     let bank := immU m.wide o
     let room := c.t.flagRoom (hdrSets c.t.hdr) = true
     let fits := a % w.bytes = 0 ∧ a + w.bytes ≤ 4096 * c.tm.scr
     let x := s.bank c.tm.core bank
     let mine := x.mode = .fifo ∧ x.owner = c.l.dev
     let marked := fun s' : State => s'.modTeam c.tm.id fun tm => { tm with fifoMark := some tm.core }
     (s.Ready c m [w.blk v] [one b] → fits → room →
       issues s c m (.ldfe v.val w.bytes c.tm.id a false) (exec (.ldfe m v b w o) s) ∧
       (c.t.inRegion = false → issues s c m (.ldfe v.val w.bytes c.tm.id a true) (exec (.ldfec m v b w o) s))) ∧
     (s.Ready c m [] [w.blk v, one b] → fits → room →
       issues s c m (.stfull w.bytes value c.tm.id a) (exec (.stfull m v b w o) s)) ∧
     (s.Ready c m [w.blk v] [] → mine → room → c.t.inRegion = false →
       ∃ s', issues s c m (.fifoPop v.val w.bytes c.tm.core bank) (.next s') ∧
         exec (.ldfifo m v w o) s = .next (marked s')) ∧
     (s.Ready c m [] [w.blk v] → mine → room → c.t.inRegion = false →
       ∃ s', issues s c m (.fifoPush w.bytes value c.tm.core bank) (.next s') ∧
         exec (.stfifo m v w o) s = .next (marked s')) ∧
     (s.Ready c m [w.blk v] [] → c.t.inRegion = false → ¬mine →
       exec (.ldfifo m v w o) s = .next (s.deliver c.t .fifoBank (BitVec.ofNat 64 bank))) ∧
     (c.t.inRegion = true →
       (s.Ready c m [w.blk v] [one b] → exec (.ldfec m v b w o) s = .next (s.deliver c.t .regionState 0)) ∧
       (s.Ready c m [w.blk v] [] → exec (.ldfifo m v w o) s = .next (s.deliver c.t .regionState 0)) ∧
       (s.Ready c m [] [w.blk v] → exec (.stfifo m v w o) s = .next (s.deliver c.t .regionState 0)))) ∧
  (∀ (s : State) (c : Ctx) (m : Mods) (v b : Reg) (op : AtomOp) (w : Bool) (sp : AtomSpace) (sc : Scope) (r : MemOrd),
     let n := if w then 8 else 4
     let x := s.regN c.t v.val (n / 4)
     let y := if op = .cas then s.regN c.t (v.val + n / 4) (n / 4) else 0
     let space := match sp with
       | .gl => Space.gl
       | .sc => .sc
       | .cl => .cl
     let a := match sp with
       | .gl => (s.reg64 c.t b).toNat
       | .sc | .cl => (s.reg32 c.t b).toNat
     ∀ i dst reg, (i, dst, reg) ∈ [(Instr.atom m v b op w sp sc r, [wide w v], some v.val), (.red m v b op w sp sc r, [], none)] →
       s.Ready c m dst [op.blk w v, sp.blk b] →
       (c.t.inRegion = true → exec i s = .next (s.deliver c.t .regionState 0)) ∧
       (c.t.inRegion = false → ∀ loc ord, s.access c space a n ⟨.write, true, c.t.level⟩ = .ok loc ord →
         (c.l.det && ord && c.group != c.l.holder) = false → c.t.flagRoom (hdrSets c.t.hdr) = true →
         issues s c m (.atom reg op w loc sc r x y) (exec i s)))

/-- R202, R203: a prefetch into the L1 or the memory-side cache never traps nor waits, not even for a walk, and is
dropped when its address is not canonical or its page does not answer or is uncached; WB, INV and WBINV issue on the
line their address names, and trap as a load of one byte. -/
def Obligations.CacheControlForms : Prop :=
  ∀ (s : State) (c : Ctx) (m : Mods) (b : Reg) (o : BitVec 12) (sc : Scope), s.Ready c m [] [pair b] →
    c.t.flagRoom (hdrSets c.t.hdr) = true →
    let a := (s.reg64 c.t b + BitVec.ofInt 64 (immS m.wide o)).toNat
    let want : XWant := ⟨.read, false, c.t.level⟩
    let tr := s.translate c.tm.core c.t.slice c.l.dev a want
    let key := fun x : XOk => if x.uncached then none else some x.key
    (∀ i l1, (i, l1) ∈ [(Instr.pfL1 m b o, true), (.pfMsc m b o, false)] →
      (2 ^ 56 ≤ a ∨ (∃ f, tr = .fault f) → issues s c m (.prefetch none l1) (exec i s)) ∧
      (∀ x, a < 2 ^ 56 → tr = .ok x → issues s c m (.prefetch (key x) l1) (exec i s)) ∧
      (a < 2 ^ 56 → tr = .miss → ∀ s1 r, s.threadWalk c a want = (s1, r) →
        issues s1 c m (.prefetch (match r with
          | .ok x => key x
          | .error _ => none) l1) (exec i s))) ∧
    ∀ i kind, (i, kind) ∈ [(Instr.wb m sc b o, OpKind.wb sc), (.inv m sc b o, .inv sc), (.wbinv m sc b o, .wbinv sc)] →
      (∀ x, a < 2 ^ 56 → tr = .ok x → issues s c m (kind x.key) (exec i s)) ∧
      (2 ^ 56 ≤ a → exec i s = .next (s.deliver c.t .addrNoncanon (BitVec.ofNat 64 a))) ∧
      (a < 2 ^ 56 → tr = .miss → exec i s = .next (s.hold c.t (.walk a .read false)))

/-! ## The completion of memory operations -/

/-- R192, R194, R195: a load that is performed writes the bytes it sees to its registers, sign-extended for the
signed widths, and stores nothing: every byte of scratch reads as before, and a byte of memory changes only to what a
dirty byte of the core's L1 held whose line gave way (R258); a load-acquire at a scope beyond the core then drops the
clean bytes of its device from its L1 (R259).  R190, R397: of a 128-bit load of uncached host memory one half is
performed at a time.  R222, R301: an LDV that is performed writes the bytes of its frame to its registers, and a VPIN
the step of the frame it pinned; neither stores anything.  That a load's registers change together and replace what
was written there meanwhile is the model's choice (log entry 83), as is which half of a 128-bit host load goes first
(log entry 72); that steps never go back is its reading (log entry 73). -/
def Obligations.LoadsComplete : Prop :=
  (∀ (s : State) (c : Ctx) (o : Op) (dst n : Nat) (ext : Ext) (loc : Loc) (acq : Option Scope) (l : List Byte),
     s.memWf = true → s.Performs c o → o.kind = .load dst n ext loc acq → s.sees c loc n l →
     let v : Nat := match ext with
       | .zero => ofBytes l
       | .sign8 => ((BitVec.ofNat 8 (ofBytes l)).signExtend 32).toNat
       | .sign16 => ((BitVec.ofNat 16 (ofBytes l)).signExtend 32).toNat
     ∃ s', exec (.memoryOpComplete o.id) s = .next s' ∧ ended s s' o c.t dst ((n + 3) / 4) v ∧
       (∀ key, s.spills s' c.tm.core key) ∧ s.keepsTeams s' ∧
       ∀ sc, acq = some sc → Scope.wide sc = true →
         ∀ b ∈ s'.ms.l1, b.core = c.tm.core → b.dev = c.l.dev → b.dirty = true) ∧
  (∀ (s : State) (c : Ctx) (o : Op) (dst key : Nat), s.op? o.id = some o → s.ctx? o.th = some c → s.opReady o = true →
     o.planes = [] → o.id < s.nextId → (∀ f ∈ c.t.fails, f.op ≠ s.nextId) → o.kind = .load dst 16 .zero (.mem key true) none → key % 16 = 0 →
     isHost key = true → s.ms.poisoned key 16 = false →
     ∃ (s' : State) (high : Bool) (t' : Thread), exec (.memoryOpComplete o.id) s = .next s' ∧ s'.ms = s.ms ∧
       s'.op? o.id = some { o with
         kind := (if high then .load dst 8 .zero (.mem key true) none
           else .load (dst + 2) 8 .zero (.mem (key + 8) true) none) } ∧
       s'.thread? o.th = some t' ∧
       let k := if high then 8 else 0
       let d := if high then dst + 2 else dst
       let v := ofBytes ((List.range 8).map fun j => s.byteAt (key + k + j))
       ∀ r : Reg, t'.regs[r] =
         if d ≤ r.val ∧ r.val < d + 2 then BitVec.ofNat 32 (v / 2 ^ (32 * (r.val - d))) else c.t.regs[r]) ∧
  (∀ (s : State) (c : Ctx) (o : Op), s.Performs c o →
     let run := exec (.memoryOpComplete o.id) s
     let stays := fun s' : State => ∀ key, s'.byteAt key = s.byteAt key
     (∀ dst n entry frame key, o.kind = .ldv dst n entry frame key → s.ms.poisoned key n = false →
       ∃ s', run = .next s' ∧ stays s' ∧
         ended s s' o c.t dst ((n + 3) / 4) (ofBytes ((List.range n).map fun j => s.byteAt (key + j)))) ∧
     (∀ dst x entry, o.kind = .vpin dst x entry →
       ∃ s', run = .next s' ∧ stays s' ∧ ended s s' o c.t dst 1 x.toNat) ∧
     (∀ entry, o.kind = .vunpin entry → ∃ s', run = .next s' ∧ s'.ms = s.ms ∧ ended s s' o c.t 0 0 0))

/-- R192, R194, R258: a plain store that is performed writes its bytes, least significant first: into the scratch of
the team, or, for an uncached page, into memory, or into the core's L1, where they are dirty.  Every other byte of
scratch reads as before, and of memory too, but for the dirty bytes of a line that gives way in the L1, which is
written back. -/
def Obligations.StoreCompletes : Prop :=
  ∀ (s : State) (c : Ctx) (o : Op) (n v : Nat) (loc : Loc), s.memWf = true → s.Performs c o →
    o.kind = .store n v loc none →
    let byte := fun k : Nat => BitVec.ofNat 8 (v / 2 ^ (8 * k))
    (∀ team off tm, loc = .scr team off → s.team? team = some tm →
      ∃ s' tm', exec (.memoryOpComplete o.id) s = .next s' ∧ ended s s' o c.t 0 0 0 ∧ s'.team? team = some tm' ∧
        (∀ k, Memory.get tm'.scratch k =
          if off ≤ k ∧ k < off + n then byte (k - off) else Memory.get tm.scratch k) ∧
        { tm' with scratch := tm.scratch, scrPoison := tm.scrPoison } = tm ∧
        (∀ id ≠ team, s'.team? id = s.team? id) ∧ s'.ms = s.ms) ∧
    (∀ key, loc = .mem key true → isMgmt key = false → key % 128 + n ≤ 128 →
      ∃ s', exec (.memoryOpComplete o.id) s = .next s' ∧ ended s s' o c.t 0 0 0 ∧
        (∀ k, s'.byteAt k = if key ≤ k ∧ k < key + n then byte (k - key) else s.byteAt k) ∧
        s'.teams = s.teams ∧ s'.ms.l1 = s.ms.l1) ∧
    (∀ key, loc = .mem key false → key % 128 + n ≤ 128 → s.lineClean c key →
      ∃ s', exec (.memoryOpComplete o.id) s = .next s' ∧ ended s s' o c.t 0 0 0 ∧ s.keepsTeams s' ∧
        (∀ k, s.spills s' c.tm.core k) ∧
        (∀ k < n, (s'.ms.l1Find c.tm.core (key + k)).map (fun b => (b.val, b.dirty)) = some (byte k, true)) ∧
        (∀ k, ¬(key ≤ k ∧ k < key + n) → lineOf k = lineOf key → s'.ms.l1Find c.tm.core k = s.ms.l1Find c.tm.core k) ∧
        (∀ k, lineOf k ≠ lineOf key →
          s'.ms.l1Find c.tm.core k = s.ms.l1Find c.tm.core k ∨ s'.ms.l1Find c.tm.core k = none) ∧
        ∀ k core, core ≠ c.tm.core → s'.ms.l1Find core k = s.ms.l1Find core k)

/-- R195, R259, R281: a store-release at a scope beyond the core writes back every dirty byte of its core and
device before the store, and the store itself is performed in memory; a byte of memory that neither of them writes
changes only to what a dirty byte of another device held whose line gave way.  R202, R203, R258, R286: WB, INV and
WBINV at a scope beyond the core act on the bytes that the core's L1 holds of one line: WB writes the dirty ones to
memory and keeps all of them, clean, INV drops the clean ones, and WBINV leaves none; at GRP and TEAM they have no
effect but on the line's recency and class (R197).  A
prefetch into the L1 makes the whole line valid there, and one into the memory-side cache brings the line there when
its device has a way. -/
def Obligations.WriteBacksComplete : Prop :=
  (∀ (s : State) (c : Ctx) (o : Op) (n v key : Nat) (sc : Scope), s.memWf = true → s.l1Wf → s.Performs c o →
     o.kind = .store n v (.mem key false) (some sc) → Scope.wide sc = true → key % 128 + n ≤ 128 →
     s.lineClean c key → s.homeDirty c.tm.core c.l.dev → isRemote key = false →
     let mine := fun b : L1Byte => b.core = c.tm.core ∧ b.dev = c.l.dev ∧ b.dirty = true
     ∃ s', exec (.memoryOpComplete o.id) s = .next s' ∧ ended s s' o c.t 0 0 0 ∧
       (∀ b ∈ s'.ms.l1, ¬mine b) ∧
       (∀ k, key ≤ k → k < key + n → s'.byteAt k = BitVec.ofNat 8 (v / 2 ^ (8 * (k - key)))) ∧
       (∀ b ∈ s.ms.l1, mine b → ¬(key ≤ b.key ∧ b.key < key + n) → s'.byteAt b.key = b.val) ∧
       ∀ k, ¬(key ≤ k ∧ k < key + n) → s.spills s' c.tm.core k) ∧
  (∀ (s : State) (c : Ctx) (o : Op) (sc : Scope) (key : Nat), s.memWf = true → s.l1Wf → s.Performs c o →
     let inLine := fun b : L1Byte => b.core = c.tm.core ∧ lineOf b.key = lineOf key
     let run := exec (.memoryOpComplete o.id) s
     (Scope.wide sc = true →
       (o.kind = .wb sc key ∨ o.kind = .wbinv sc key → isRemote (128 * lineOf key) = false →
         ∃ s', run = .next s' ∧ ended s s' o c.t 0 0 0 ∧ (∀ b ∈ s'.ms.l1, inLine b → b.dirty = false) ∧
           (∀ b ∈ s.ms.l1, inLine b → b.dirty = true → s'.byteAt b.key = b.val) ∧
           (∀ k, (∀ b ∈ s.ms.l1, inLine b → b.dirty = true → b.key ≠ k) → s'.byteAt k = s.byteAt k) ∧
           (∀ b ∈ s.ms.l1, ¬inLine b → b ∈ s'.ms.l1) ∧
           (o.kind = .wb sc key → ∀ b ∈ s.ms.l1, inLine b → { b with dirty := false } ∈ s'.ms.l1) ∧
           (o.kind = .wbinv sc key → ∀ b ∈ s'.ms.l1, ¬inLine b)) ∧
       (o.kind = .inv sc key →
         ∃ s', run = .next s' ∧ ended s s' o c.t 0 0 0 ∧ s'.ms.mem = s.ms.mem ∧
           ∀ b, b ∈ s'.ms.l1 ↔ b ∈ s.ms.l1 ∧ ¬(inLine b ∧ b.dirty = false))) ∧
     (Scope.wide sc = false → o.kind = .wb sc key ∨ o.kind = .inv sc key ∨ o.kind = .wbinv sc key →
       ∃ s', run = .next s' ∧ ended s s' o c.t 0 0 0 ∧ { s'.ms with lines := s.ms.lines } = s.ms) ∧
     (∀ l1, o.kind = .prefetch none l1 → ∃ s', run = .next s' ∧ ended s s' o c.t 0 0 0 ∧ s'.ms = s.ms) ∧
     (o.kind = .prefetch (some key) true →
       ∃ s', run = .next s' ∧ ended s s' o c.t 0 0 0 ∧ (∀ k, s.spills s' c.tm.core k) ∧
         ∀ k, lineOf k = lineOf key → (s'.ms.l1Find c.tm.core k).isSome) ∧
     (o.kind = .prefetch (some key) false →
       ∃ s', run = .next s' ∧ ended s s' o c.t 0 0 0 ∧ s'.ms.mem = s.ms.mem ∧ s'.ms.l1 = s.ms.l1 ∧
         (isRemote (128 * lineOf key) = false → isMgmt (128 * lineOf key) = false →
           (∃ w < 16, bit (s.vdWays c.l.dev) w = true) → s'.ms.mscHolds (lineOf key) = true)))

/-- R198 to R200: a full-empty load takes its bytes from a full granule, and LDFEC leaves it empty; ST.FULL
writes its bytes and leaves the granule full; LD.FIFO takes the oldest entry of its bank and ST.FIFO adds one,
with zeros above its width; memory stays.  R205, R206: an atomic on scratch reads the old value, writes the new
one and gives the old one to its destination; CAS writes only when the old value equals its first operand, and FADD adds in FP32 to nearest
even; every other byte of scratch stays.  R205, R206, R259: an atomic on memory at a scope beyond the core is performed
in memory, with what any L1 held dirty of its location written back first and its line in no L1 after (the model's
choice, log entry 94); one at GRP or TEAM in the core's L1, or in memory where the page is uncached.  Its release,
before a write, and its acquire act at its scope.  Which of the full-empty loads that wait goes first (log entry 33)
and that the lanes of one instruction act together (log entry 87) are the model's reading. -/
def Obligations.GranulesAndAtomicsComplete : Prop :=
  (∀ (s : State) (c : Ctx) (o : Op), s.memWf = true → s.Performs c o →
     let run := exec (.memoryOpComplete o.id) s
     (∀ dst n team off clear tm, o.kind = .ldfe dst n team off clear → s.team? team = some tm →
       tm.scrBad off n = false →
       ∃ s' tm', run = .next s' ∧
         ended s s' o c.t dst ((n + 3) / 4) (ofBytes ((List.range n).map fun k => Memory.get tm.scratch (off + k))) ∧
         s'.team? team = some tm' ∧ off / 16 ∈ tm.full ∧ tm'.scratch = tm.scratch ∧
         (∀ g, g ∈ tm'.full ↔ g ∈ tm.full ∧ ¬(clear = true ∧ g = off / 16)) ∧ s'.ms = s.ms) ∧
     (∀ n v team off tm, o.kind = .stfull n v team off → s.team? team = some tm →
       ∃ s' tm', run = .next s' ∧ ended s s' o c.t 0 0 0 ∧ s'.team? team = some tm' ∧
         (∀ k, Memory.get tm'.scratch k =
           if off ≤ k ∧ k < off + n then BitVec.ofNat 8 (v / 2 ^ (8 * (k - off))) else Memory.get tm.scratch k) ∧
         (∀ g, g ∈ tm'.full ↔ g ∈ tm.full ∨ g = off / 16) ∧ s'.ms = s.ms) ∧
     (∀ dst n core bank, o.kind = .fifoPop dst n core bank →
       ∃ s' e rest, run = .next s' ∧ (s.bank core bank).fifo = e :: rest ∧
         ended s s' o c.t dst ((n + 3) / 4) (e % 2 ^ (8 * n)) ∧
         s'.bank core bank = { s.bank core bank with fifo := rest } ∧
         (∀ k j, (k, j) ≠ (core, bank) → s'.bank k j = s.bank k j) ∧ s'.ms.mem = s.ms.mem) ∧
     (∀ n v core bank, o.kind = .fifoPush n v core bank →
       ∃ s', run = .next s' ∧ ended s s' o c.t 0 0 0 ∧
         s'.bank core bank = { s.bank core bank with fifo := (s.bank core bank).fifo ++ [v % 2 ^ (8 * n)] } ∧
         (∀ k j, (k, j) ≠ (core, bank) → s'.bank k j = s.bank k j) ∧ s'.ms.mem = s.ms.mem)) ∧
  (∀ (s : State) (c : Ctx) (o : Op) (dst : Option Nat) (op : AtomOp) (w : Bool) (team off : Nat) (tm : Team)
     (sc : Scope) (ord : MemOrd) (a b : Nat), s.memWf = true → s.l1Wf → s.Performs c o →
     o.kind = .atom dst op w (.scr team off) sc ord a b → s.team? team = some tm →
     let n := if w then 8 else 4
     tm.scrBad off n = false →
     let old := ofBytes ((List.range n).map fun k => Memory.get tm.scratch (off + k))
     let new := Claim.atomic (8 * n) op old a b
     ∃ s' tm', exec (.memoryOpComplete o.id) s = .next s' ∧ s'.team? team = some tm' ∧
       (∀ k, Memory.get tm'.scratch k =
         if off ≤ k ∧ k < off + n then BitVec.ofNat 8 (new / 2 ^ (8 * (k - off))) else Memory.get tm.scratch k) ∧
       (∀ d, dst = some d → ended s s' o c.t d (n / 4) old) ∧ (dst = none → ended s s' o c.t 0 0 0) ∧
       s.synced s' c sc ord (op = .cas → BitVec.ofNat (8 * n) old = BitVec.ofNat (8 * n) a) (fun _ => False) ∧
       (ord = .rlx ∨ ord = .acq → s'.ms.mem = s.ms.mem)) ∧
  (∀ (s : State) (c : Ctx) (o : Op) (dst : Option Nat) (op : AtomOp) (w u : Bool) (key : Nat) (sc : Scope) (ord : MemOrd)
     (a b : Nat), s.memWf = true → s.l1Wf → s.Performs c o → o.kind = .atom dst op w (.mem key u) sc ord a b →
     let n := if w then 8 else 4
     key % 128 + n ≤ 128 → isMgmt key = false → s.ms.poisoned key n = false →
     (∀ x ∈ s.ms.l1, lineOf x.key = lineOf key → x.bad = false) →
     let run := exec (.memoryOpComplete o.id) s
     let ends := fun (s' : State) (old : Nat) =>
       (∀ d, dst = some d → ended s s' o c.t d (n / 4) old) ∧ (dst = none → ended s s' o c.t 0 0 0)
     let there := fun k : Nat => key ≤ k ∧ k < key + n
     let byte := fun (v k : Nat) => BitVec.ofNat 8 (v / 2 ^ (8 * (k - key)))
     let inMemory := fun (s' : State) (new : Nat) => ∀ k, there k → s'.byteAt k = byte new k
     (Scope.wide sc = true →
       ∃ (s' : State) (l : List Byte), run = .next s' ∧ l.length = n ∧
         (∀ k (h : k < l.length), (∃ x ∈ s.ms.l1, x.key = key + k ∧ x.dirty = true ∧ l[k] = x.val) ∨
           ((∀ x ∈ s.ms.l1, x.key = key + k → x.dirty = false) ∧ l[k] = s.byteAt (key + k))) ∧
         let old := ofBytes l
         ends s' old ∧ inMemory s' (Claim.atomic (8 * n) op old a b) ∧
           (∀ x ∈ s'.ms.l1, lineOf x.key ≠ lineOf key) ∧
           s.synced s' c sc ord (op = .cas → BitVec.ofNat (8 * n) old = BitVec.ofNat (8 * n) a)
             (fun x => lineOf x.key = lineOf key) ∧
           ∀ k, ¬there k → s'.byteAt k = s.byteAt k ∨
             ∃ x ∈ s.ms.l1, x.key = k ∧ x.dirty = true ∧ s'.byteAt k = x.val) ∧
     (Scope.wide sc = false → ∀ l, s.sees c (.mem key u) n l →
       let old := ofBytes l
       let new := Claim.atomic (8 * n) op old a b
       ∃ s', run = .next s' ∧ ends s' old ∧ (u = true → inMemory s' new) ∧
         (u = false → ∀ k, there k → ∃ x, s'.ms.l1Find c.tm.core k = some x ∧ x.val = byte new k ∧
           (op ≠ .cas → x.dirty = true)) ∧
         ∀ k, (u = true → ¬there k) → s.spills s' c.tm.core k))

/-! ## Fences and barriers -/

/-- R207, R208, R259: a fence waits for the thread's earlier accesses (an acquire fence for its reads) and then
releases, acquires, or both at its scope; TLFENCE waits for the thread's earlier stores and atomics alone, releases
and drops the device's tile-layout records within the scope.  A release waits, too, while a plane that moves or a
quota holds its write-backs at the source (R392, R402).  That TLFENCE drops all records of its device is the model's
reading (log entry 34). -/
def Obligations.FenceForms : Prop :=
  ∀ (s : State) (c : Ctx) (m : Mods) (sc : Scope), s.memWf = true → s.l1Wf → s.Ready c m [] [] →
    let rel := released c.tm.core c.l.dev
    let home := s.homeDirty c.tm.core c.l.dev
    let wait := if Scope.wide sc then OpClass.wide else .accesses
    let acq := acquired c.tm.core c.l.dev sc
    let ends := fun (i : Instr) (ms : MemSys) => exec i s = .next ((s.setMs ms).done c m c.t)
    let none' := fun p : OpKind → Bool => ∀ o ∈ s.ops, o.th = c.t.id → p o.kind = false
    let dropped := fun r : LayoutRec => r.dev = c.l.dev ∧ (match sc with
      | .grp | .team => r.core = some c.tm.core ∨ (r.core = none ∧ r.die = coreDie c.tm.core)
      | .clu => r.die = coreDie c.tm.core
      | .dev | .pod | .sys => True)
    (none' OpKind.isAccess → home →
      (∃ m1 m2, rel sc s.ms m1 ∧ acq m1 m2 ∧ ends (.fence m sc) m2) ∧
      (∃ m1, rel sc s.ms m1 ∧ ends (.fenceRel m sc) m1)) ∧
    (none' OpKind.writes → home →
      (∃ m1 m2, rel .dev s.ms m1 ∧ { m2 with layout := m1.layout } = m1 ∧
        (∀ r, r ∈ m2.layout ↔ r ∈ s.ms.layout ∧ ¬dropped r) ∧ ends (.tlfence m sc) m2)) ∧
    (none' OpKind.isRead → ∃ m1, acq s.ms m1 ∧ ends (.fenceAcq m sc) m1) ∧
    (¬none' OpKind.isAccess ∨ (Scope.wide sc = true ∧ s.backHeld c.tm.core c.l.dev = true) →
      ∀ i ∈ [Instr.fence m sc, .fenceRel m sc], exec i s = .next (s.hold c.t (.ops wait))) ∧
    (¬none' OpKind.writes ∨ (Scope.wide sc = true ∧ s.backHeld c.tm.core c.l.dev = true) →
      exec (.tlfence m sc) s = .next (s.hold c.t (.ops (.stores (Scope.wide sc))))) ∧
    (¬none' OpKind.isRead → exec (.fenceAcq m sc) s = .next (s.hold c.t (.ops .reads)))

/-- R27, R210, R228: BAR.INIT gives a barrier its count when that is not 0 and no phase is in progress, and does
nothing when the barrier has that count already; outside those cases, on a barrier that the team does not have,
and in an open region it traps.  R210, R211: an arrival that is not the last counts up; the last one flips the
phase and frees the threads that wait for the old one.  BAR.WAIT goes on when the thread's recorded phase is
complete and waits otherwise; BAR.SYNC arrives and then waits, so that the last thread goes on at once.  All
three trap on a barrier that is not initialised or that the team does not have, and in an open region; an arrival comes
after the thread's earlier accesses and after those of the lower lanes of its issue group (R25).  R350: a thread on an
Eddy core comes home before BAR.WAIT or BAR.SYNC, and arrives from there with BAR.ARR.  R55: a thread that a save has
brought back takes its header again before it goes on. -/
def Obligations.BarrierForms : Prop :=
  (∀ (s : State) (c : Ctx) (m : Mods) (n : Fin 16) (a : Reg) (k : BitVec 11),
     let b := c.tm.bars[n]
     let busy := b.arrived ≠ 0 ∨ ∃ t ∈ s.threads, t.team = c.tm.id ∧ ∃ w, t.wait = .barrier n w
     ∀ i e, ((i = Instr.barInitImm m n k ∧ e = BitVec.ofNat 12 (immU m.wide k) ∧ s.cur? = some c) ∨
         (i = .barInitReg m n a ∧ e = (s.reg32 c.t a).setWidth 12 ∧ s.Ready' c [one a])) →
       let bad := exec i s = .next (s.deliver c.t .barState (BitVec.ofNat 64 n.val))
       (c.t.inRegion = true → exec i s = .next (s.deliver c.t .regionState 0)) ∧
       (c.t.inRegion = false →
         (c.tm.nbar ≤ n.val → bad) ∧
         (n.val < c.tm.nbar →
           (e = 0 → bad) ∧
           (e ≠ 0 → b.init = true → b.expect = e → exec i s = .next (s.done c m c.t)) ∧
           (e ≠ 0 → b.init = true → b.expect ≠ e → busy → bad) ∧
           (e ≠ 0 → b.init = false ∨ (b.expect ≠ e ∧ ¬busy) →
             exec i s = .next ((s.setTeam { c.tm with
               bars := c.tm.bars.set n { b with expect := e, arrived := 0, init := true } }).done c m c.t))))) ∧
  (∀ (s : State) (c : Ctx) (m : Mods) (n : Fin 16), s.cur? = some c →
     ∀ i ∈ [Instr.barArr m n, .barWait m n, .barSync m n],
       (c.t.inRegion = true → exec i s = .next (s.deliver c.t .regionState 0)) ∧
       (c.t.inRegion = false → c.tm.nbar ≤ n.val →
         exec i s = .next (s.deliver c.t .barState (BitVec.ofNat 64 n.val))) ∧
       (c.t.inRegion = false → n.val < c.tm.nbar → c.tm.bars[n].init = true → i ≠ .barArr m n →
         ∀ e x, c.t.place = .eddy e x → exec i s = .next (s.setThread { c.t with place := .recallWanted e x }))) ∧
  (∀ (s : State) (c : Ctx) (m : Mods) (n : Fin 16), s.cur? = some c → c.t.inRegion = false → n.val < c.tm.nbar →
     let elsewhere := ∀ e x, c.t.place ≠ .eddy e x
     let b := c.tm.bars[n]
     let arrive := fun a : Arrival => ({ c.t with arr := c.t.arr.set n a } : Thread)
     let free : Arrival := ⟨false, false, false⟩
     let waits := fun (s : State) (t : Thread) =>
       s.setThread { s.issued c m (1, false) t with wait := .barrier n (m.count + 1) }
     (b.init = false → ∀ i ∈ [Instr.barArr m n, .barWait m n, .barSync m n],
       exec i s = .next (s.deliver c.t .barState (BitVec.ofNat 64 n.val))) ∧
     (b.init = true → elsewhere →
       (c.t.arr[n].pending = true → c.t.arr[n].done = true → exec (.barWait m n) s = .next (s.done c m (arrive free))) ∧
       (c.t.arr[n].pending = false ∨ c.t.arr[n].done = false → exec (.barWait m n) s = .next (waits s c.t))) ∧
     (b.init = true → (∃ o ∈ s.ops, o.th = c.t.id ∧ o.kind.isAccess = true) ∨ s.lowerHeld c.t = true →
       exec (.barArr m n) s = .next (s.hold c.t (.ops .arrival)) ∧
         (elsewhere → exec (.barSync m n) s = .next (s.hold c.t (.ops .arrival)))) ∧
     (b.init = true → (∀ o ∈ s.ops, o.th = c.t.id → o.kind.isAccess = false) → s.lowerHeld c.t = false →
       let t1 := arrive ⟨true, b.phase, false⟩
       (b.arrived + 1 ≠ b.expect →
         let s1 := (s.setThread t1).setTeam { c.tm with bars := c.tm.bars.set n { b with arrived := b.arrived + 1 } }
         exec (.barArr m n) s = .next (s1.done c m t1) ∧ (elsewhere → exec (.barSync m n) s = .next (waits s1 t1))) ∧
       (b.arrived + 1 = b.expect → c.t.wait = .run → (∀ t ∈ s.threads, t.team = c.tm.id → stepped c.tm t = false) →
         ∀ i t2, (i, t2) ∈ [(Instr.barArr m n, arrive ⟨true, b.phase, true⟩), (.barSync m n, arrive free)] →
           i = .barArr m n ∨ elsewhere → ∃ s2 : State, exec i s = .next (s2.done c m t2) ∧ s2.ms = s.ms ∧ s2.ops = s.ops ∧
             s2.team? c.tm.id = some { c.tm with bars := c.tm.bars.set n { b with arrived := 0, phase := !b.phase } } ∧
             (∀ t w, s.thread? t.id = some t → t.id ≠ c.t.id → t.team = c.tm.id → t.wait = .barrier n w →
               t.arr[n].pending = false ∨ t.arr[n].phase = b.phase →
               (t.entered = true → s2.wentOn w t t) ∧
               (t.entered = false → ∃ t', s2.thread? t.id = some t' ∧ t'.wait = .past w ∧ t'.pc = t.pc)) ∧
             ∀ id, (∀ t ∈ s.threads, t.id = id → t.team ≠ c.tm.id) → s2.thread? id = s.thread? id)))

/-! ## Convergence registers and group operations -/

/-- R213, R228: CVDECL declares the lanes of its mask that have a live thread in the group, and frees the
register; it traps on a register that holds signatures.  R161, R214: a thread that signs while other declared
lanes have not signed waits; a thread that is no declared member, that signs a held register, or that meets the
register at another PC traps with no effect.  CVSYNC and ELECT sign after the thread's earlier accesses, and
outside a region.  That operands are checked before the thread signs is the model's reading (log entry 29). -/
def Obligations.SigningForms : Prop :=
  (∀ (s : State) (c : Ctx) (m : Mods) (n : Fin 16) (a : Reg) (k : BitVec 11) (i : Instr) (mask : Word),
     ((i = Instr.cvdeclImm m n k ∧ mask = BitVec.ofNat 32 (immU m.wide k) ∧ s.cur? = some c) ∨
       (i = .cvdeclReg m n a ∧ mask = s.reg32 c.t a ∧ s.Ready' c [one a])) →
     (c.t.inRegion = true → exec i s = .next (s.deliver c.t .regionState 0)) ∧
     (c.t.inRegion = false →
       (c.tm.convs[n].state = 2 → exec i s = .next (s.deliver c.t .convBusy (BitVec.ofNat 64 n.val))) ∧
       (c.tm.convs[n].state ≠ 2 → ∃ cv : Conv,
         exec i s = .next ((s.setTeam { c.tm with convs := c.tm.convs.set n cv }).done c m c.t) ∧
         cv.state = 1 ∧ cv.signed = 0 ∧ cv.pc = 0 ∧ cv.grp = BitVec.ofNat 6 c.t.grp ∧
         ∀ j : Fin 32, cv.declared.getLsbD j.val = true ↔ mask.getLsbD j.val = true ∧
           ∃ t ∈ s.threads, t.team = c.t.team ∧ t.grp = c.t.grp ∧ t.lane = j))) ∧
  (∀ (s : State) (c : Ctx) (m : Mods) (n : Fin 16) (d a : Reg) (p k : Pred) (ps : PredSel) (x : XMode) (b : Bool)
     (l : Fin 32) (o : GroupOp) (D P : Fin 16) (A B H : Fin 32) (mf : MmaFmt) (pf : Fp8Fmt),
     let checks := fun (i : Instr) (op : SignOp) (dst reads : List Blk) =>
       (s.CanSign c m n dst reads → ¬c.completes n → exec i s = .next (s.signedBy c m n op)) ∧
       (s.cur? = some c → (∀ e x, c.t.place ≠ .eddy e x) →
         (s.on c.t m = true → firstBeyond c.t.alloc (dst ++ reads) = none ∧ c.t.poisoned reads = none) →
         let cv := c.tm.convs[n]
         (cv.state = 0 ∨ cv.grp.toNat ≠ c.t.grp ∨ cv.declared.getLsbD c.t.lane.val = false →
           exec i s = .next (s.deliver c.t .convMember (BitVec.ofNat 64 n.val))) ∧
         (cv.state ≠ 0 → cv.grp.toNat = c.t.grp → cv.declared.getLsbD c.t.lane.val = true →
           (cv.state = 2 → cv.declared &&& ~~~cv.signed = 0 →
             exec i s = .next (s.deliver c.t .convBusy (BitVec.ofNat 64 n.val))) ∧
           (cv.state = 2 → cv.declared &&& ~~~cv.signed ≠ 0 → cv.pc ≠ c.t.pc →
             exec i s = .next (s.deliver c.t .convMismatch (cv.pc.setWidth 64)))))
     (∀ i op dst reads, (i, op, dst, reads) ∈
       [(Instr.xlane m d a x b l n, SignOp.xlane d a x b l, [one d], one a :: (if b then [] else [⟨l.val, 1, 1⟩])),
         (.agreeAll m ps p n, .agreeP .all ps p, [], []), (.agreeSome m ps p n, .agreeP .some ps p, [], []),
         (.agreeSame m ps p n, .agreeP .same ps p, [], []), (.agreeMask m d ps n, .agreeMask d ps, [one d], []),
         (.peers m d a n, .peers d a, [one d], [one a]), (.peersAll m d a p n, .peersAll d a p, [one d], [one a]),
         (.agreeCount m d ps n, .agreeCount d ps, [one d], []),
         (.gred m d a p o b n, .reduce .reduce d a p o b, [one d], [one a]),
         (.gscan m d a p o b n, .reduce .scan d a p o b, [one d], [one a]),
         (.gscanx m d a p o b n, .reduce .scanx d a p o b, [one d], [one a]),
         (.mma m D A B H mf n b, .mma D A B H mf b, [frag8 D],
           (if b then [] else [frag8 D]) ++ [frag A 4, frag B 4, frag H 4]),
         (.mmaPart m D A B H pf b n, .mmaPart D A B H pf b, [frag8 D], [frag A 4, frag B (if b then 8 else 4), frag H 4]),
         (.mmaC4 m D A B H b n, .mmaC4 D A B H b, [frag8 D], [frag A 2, frag B (if b then 4 else 2), frag H 4]),
         (.scacc m D P A B n, .scacc D P A B, [frag8 D], [frag8 D, frag8 P, frag A 4, frag B 4]),
         (.accmov m D P n, .accmov D P, [frag8 D], [frag8 P]), (.acczero m D n, .acczero D, [frag8 D], []),
         (.accadd m D P n, .accadd D P, [frag8 D], [frag8 D, frag8 P])] → checks i op dst reads) ∧
     (c.t.inRegion = false → (∀ q ∈ s.ops, q.th = c.t.id → q.kind.isAccess = false) → m.pre = none →
       checks (.cvsync m n) .cvsync [] [] ∧ checks (.elect m n k) (.elect k) [] []) ∧
     (s.cur? = some c → c.t.inRegion = true → ∀ i ∈ [Instr.cvsync m n, .elect m n k],
       exec i s = .next (s.deliver c.t .regionState 0)))

/-- R161, R162, R166, R214: the last signature of a group operation completes it for every signer: the register is
free for the next instruction, each predicated-on signer holds what the operation gives it (GroupResults) with the
flags of every step, one that is predicated off holds zeros under ZERO and what it held otherwise, and all go on past
the word. -/
def Obligations.GroupOperationCompletes : Prop :=
  ∀ (s : State) (c : Ctx) (m : Mods) (n : Fin 16) (d a : Reg) (p : Pred) (ps : PredSel) (x : XMode) (b : Bool)
    (k : Fin 32) (o : GroupOp) (l : List Signer),
    ∀ i op dst reads, (i, op, dst, reads) ∈
      [(Instr.xlane m d a x b k n, SignOp.xlane d a x b k, [one d], one a :: (if b then [] else [⟨k.val, 1, 1⟩])),
        (.agreeAll m ps p n, .agreeP .all ps p, [], []), (.agreeSome m ps p n, .agreeP .some ps p, [], []),
        (.agreeSame m ps p n, .agreeP .same ps p, [], []), (.agreeMask m d ps n, .agreeMask d ps, [one d], []),
        (.peers m d a n, .peers d a, [one d], [one a]), (.peersAll m d a p n, .peersAll d a p, [one d], [one a]),
        (.agreeCount m d ps n, .agreeCount d ps, [one d], []),
        (.gred m d a p o b n, .reduce .reduce d a p o b, [one d], [one a]),
        (.gscan m d a p o b n, .reduce .scan d a p o b, [one d], [one a]),
        (.gscanx m d a p o b n, .reduce .scanx d a p o b, [one d], [one a])] →
      s.CanSign c m n dst reads → c.completes n →
      let s1 := s.signedBy c m n op
      s1.signersAre c m n op l →
      let on := l.filter fun g => g.2.on
      let fl := on.foldl (fun f g => f.join (s1.gift on g).flags) FFlags.clear
      (∀ g ∈ l, fpTrap (s1.csr g.1) fl = none) →
      ∃ s', exec i s = .next s' ∧ s'.ms = s.ms ∧
        (∃ tm', s'.team? c.tm.id = some tm' ∧ tm'.convs[n] =
          { c.tm.convs[n] with state := 1, signed := 0, pc := 0 }) ∧
        ∀ g ∈ l, s'.wentOn (m.count + 1) g.1
          (let gift := s1.gift on g
           let zero := match m.pre with
             | none => false
             | some q => q.zero
           if g.2.on then
             (gift.preds.foldl (fun t e => t.putPred e.1 e.2)
               ((g.1.puts gift.regs).orCsr (BitVec.ofNat 32 fl.code)))
           else if zero then
             gift.preds.foldl (fun t e => t.putPred e.1 false) (g.1.puts (gift.regs.map fun e => (e.1, 0)))
           else g.1)

/-- R163 to R165: what a group operation gives a receiver g, from the values of the contributors l: the word of a lane
for XLANE, which its immediate or a register names, the agreement of the input predicates, the lanes of equal values, or
the reduction or scan in lane order.  R166: in FP32 each step rounds as the lowest contributor tells, SR as RNE, and the
flags of every step count. -/
def Obligations.GroupResults : Prop :=
  ∀ (s : State) (l : List Signer) (g : Signer) (d a : Reg) (p : Pred) (ps : PredSel) (x : XMode) (k : Fin 32)
    (o : GroupOp),
    let val := fun h : Signer => s.reg32 h.1 a
    let input := fun h : Signer => s.pred h.1 ps.p != ps.neg
    let lanes := fun q : Signer → Bool => fun v : Word =>
      ∀ j : Fin 32, v.getLsbD j.val = l.any fun h => h.1.lane == j && q h
    let lane := g.1.lane.val
    (∀ imm, g.2.op = .xlane d a x imm k →
      let v := if imm then k.val else (s.reg32 g.1 ⟨k.val, by omega⟩).toNat
      let src := match x with
        | .pick => v
        | .rotup => (lane + 32 - v % 32) % 32
        | .rotdn => (lane + v) % 32
        | .mirror => (lane ^^^ v) % 32
      s.gift l g = Gift.reg d (((l.find? fun h => h.1.lane.val == src).map val).getD (val g))) ∧
    (g.2.op = .agreeP .all ps p → s.gift l g = Gift.pred p (l.all input)) ∧
    (g.2.op = .agreeP .some ps p → s.gift l g = Gift.pred p (l.any input)) ∧
    (g.2.op = .agreeP .same ps p → s.gift l g = Gift.pred p (l.all input || l.all fun h => !input h)) ∧
    (g.2.op = .agreeMask d ps → ∃ v, s.gift l g = Gift.reg d v ∧ lanes input v) ∧
    (g.2.op = .agreeCount d ps → s.gift l g = Gift.reg d (BitVec.ofNat 32 (l.countP input))) ∧
    (g.2.op = .peers d a → ∃ v, s.gift l g = Gift.reg d v ∧ lanes (fun h => val h == val g) v) ∧
    (g.2.op = .peersAll d a p → ∃ v, s.gift l g = ⟨[(d.val, v)], [(p, l.all fun h => val h == val g)], FFlags.clear⟩ ∧
      lanes (fun _ => l.all fun h => val h == val g) v) ∧
    (∀ fn f, g.2.op = .reduce fn d a p o false →
      f = (match o with
        | .add => (· + ·)
        | .mins => Claim.mins
        | .minu => Claim.minu
        | .maxs => Claim.maxs
        | .maxu => Claim.maxu
        | .and => (· &&& ·)
        | .or => (· ||| ·)
        | .xor => (· ^^^ ·)) →
      let used := l.filter fun h => match fn with
        | .reduce => true
        | .scan => decide (h.1.lane ≤ g.1.lane)
        | .scanx => decide (h.1.lane < g.1.lane)
      s.gift l g = ⟨[(d.val, (used.map val).foldl f (groupIdentity o false))], [(p, used.isEmpty)], FFlags.clear⟩ ∧
        ∀ v : Word, f (groupIdentity o false) v = v) ∧
    (∀ fn first rest, l = first :: rest → g.2.op = .reduce fn d a p o true → o ∈ [GroupOp.add, .mins, .maxs] →
      let mode := roundMode ⟨none, first.2.pre, none⟩ (s.csr first.1)
      let ftz := csrFtz (s.csr first.1)
      let env : REnv := ⟨if mode = .sr then .rne else mode, ftz, false, fun _ => 0⟩
      let step := fun x y : Word => match o with
        | .add => asWord (fp32.add env 0 (fp32.operand ftz x.toNat) (fp32.operand ftz y.toNat))
        | .mins | .minu => asWord (fp32.minMax ftz false false x.toNat y.toNat)
        | .maxs | .maxu => asWord (fp32.minMax ftz true false x.toNat y.toNat)
        | .and | .or | .xor => (x, FFlags.clear)
      let identity : Word := match o with
        | .add => 0x80000000
        | .mins => 0x7F800000
        | .minu | .maxs | .maxu | .and | .or | .xor => 0xFF800000
      let used := l.filter fun h => match fn with
        | .reduce => true
        | .scan => decide (h.1.lane ≤ g.1.lane)
        | .scanx => decide (h.1.lane < g.1.lane)
      let r := (used.map val).foldl (fun acc y => ((step acc.1 y).1, acc.2.join (step acc.1 y).2)) (identity, FFlags.clear)
      s.gift l g = ⟨[(d.val, r.1)], [(p, used.isEmpty)], r.2⟩)

/-- R215, R216: CVSYNC frees the register and lets every signer go on; the lowest signing lane of an ELECT goes on
with its predicate true while the others sleep, and RELEASE by that leader frees the register and lets the sleepers
go on with the predicate false.  RELEASE by any other thread traps. -/
def Obligations.ConvergenceForms : Prop :=
  ∀ (s : State) (c : Ctx) (m : Mods) (n : Fin 16) (k : Pred),
    c.t.inRegion = false → (∀ q ∈ s.ops, q.th = c.t.id → q.kind.isAccess = false) → m.pre = none →
    let freed := fun s' : State => ∃ tm', s'.team? c.tm.id = some tm' ∧
      tm'.convs[n] = { c.tm.convs[n] with state := 1, signed := 0, pc := 0 }
    (s.CanSign c m n [] [] → c.completes n →
      (∀ l, (s.signedBy c m n .cvsync).signersAre c m n .cvsync l →
        ∃ s', exec (.cvsync m n) s = .next s' ∧ freed s' ∧ s'.ms = s.ms ∧ ∀ g ∈ l, s'.wentOn (m.count + 1) g.1 g.1) ∧
      (∀ g l, (s.signedBy c m n (.elect k)).signersAre c m n (.elect k) (g :: l) →
        ∃ s', exec (.elect m n k) s = .next s' ∧ s'.ms = s.ms ∧
          s'.wentOn (m.count + 1) g.1 (g.1.putPred k true) ∧
          ∀ h ∈ l, s'.thread? h.1.id = some { h.1 with wait := .asleep n k (m.count + 1) })) ∧
    (s.cur? = some c →
      let cv := c.tm.convs[n]
      let leader := cv.state = 2 ∧ cv.declared &&& ~~~cv.signed = 0 ∧ c.t.grp = cv.grp.toNat ∧
        cv.signed.getLsbD c.t.lane.val = true ∧ ∀ j < c.t.lane.val, cv.signed.getLsbD j = false
      ((∀ sg, c.t.wait ≠ .sign n sg) → (∀ q w, c.t.wait ≠ .asleep n q w) → leader →
        ∀ l, s.sleepers c.tm.id n = l → (l.map fun e => e.1.id).Nodup →
        (∀ e ∈ l, s.thread? e.1.id = some e.1 ∧ stepped c.tm e.1 = false ∧ e.1.entered = true) →
        ∃ s1 : State, exec (.release m n) s = .next (s1.done c m c.t) ∧ freed s1 ∧ s1.ms = s.ms ∧
          ∀ e ∈ l, s1.wentOn e.2.2 e.1 (e.1.putPred e.2.1 false)) ∧
      (¬leader → exec (.release m n) s = .next (s.deliver c.t .convMember (BitVec.ofNat 64 n.val))))

/-! ## Matrix instructions -/

/-- R169, R171, R174, R175, R425: a complete set of a matrix instruction whose header passes its check issues
once its port accepts it: the port is taken for its interval, the register is free for the next instruction, one
operation per signer is outstanding until its latency has passed, and every signer goes on with its clause's
flags raised. A header that fails its check traps every signer.  R176, R186: the accumulate-port forms, element
by element: ACCZERO gives zero, ACCMOV copies, ACCADD adds with one rounding to nearest even, and SCACC adds the
exact product of the partial and the two scales with one rounding.  That the header is checked after the lanes have
signed, so that the signatures stay, is the model's reading (log entry 28). -/
def Obligations.MatrixAndAccumulateForms : Prop :=
  (∀ (s : State) (c : Ctx) (m : Mods) (n : Fin 16) (op : SignOp) (g : Signer) (l : List Signer),
     s.ctx? g.1.id = some c → op.isMatrix = true → s.signersAre c m n op (g :: l) →
     c.tm.convs[n].state = 2 → c.tm.convs[n].declared &&& ~~~c.tm.convs[n].signed = 0 →
     (∀ h ∈ g :: l, h.1.flagRoom (hdrSets h.1.hdr) = true) →
     let t := matrixTiming op
     let w0 := s.headerWords (g :: l) op 0
     let why : Option Nat := if (headerOf op).isSome then
         (if w0 / 4 ≠ 0 then some 0 else if w0 = 3 ∧ c.l.det = true then some 1
          else if bit (field c.l.packet 36 1) w0 then none else some 2)
       else none
     let open' := !t.1 || s.productOpen (s.rampRequest c.tm.core)
     let due := max (s.portDue c.tm.core g.1.slice t.1 0) (s.tick + t.2.2)
     s.portNext c.tm.core g.1.slice t.1 ≤ s.tick →
     (why = none → open' = true →
       ∃ s', exec (.matrixIssue c.tm.id n.val) s = .next s' ∧ s'.ms = s.ms ∧
         s'.portNext c.tm.core g.1.slice t.1 = s.tick + t.2.1 ∧ s'.portDue c.tm.core g.1.slice t.1 0 = due ∧
         (∃ tm', s'.team? c.tm.id = some tm' ∧ tm'.convs[n] = { c.tm.convs[n] with state := 1, signed := 0, pc := 0 }) ∧
         (∀ h ∈ g :: l, s'.wentOn (m.count + 1) h.1 (h.1.raise (hdrSets h.1.hdr))) ∧
         ∃ ops, s'.ops = s.ops ++ ops ∧ ops.length = (g :: l).length ∧
           ∀ o ∈ ops, o.due = due ∧ o.issue = s.nextId ∧ ∃ h ∈ g :: l, o.th = h.1.id ∧ o.flags = hdrSets h.1.hdr ∧
             ∃ f, o.kind = .matrix [(h.1.id, (((s.matrixResult (g :: l) op (s.headerWords (g :: l) op)).2.filter
               fun e => 2 * e.i + e.j / 8 == h.1.lane.val).map fun e =>
                 ((s.matrixResult (g :: l) op (s.headerWords (g :: l) op)).1 + e.j % 8, e.v)))] f) ∧
     (∀ y, why = some y →
       let freed := fun tm : Team =>
         let cv : Conv := { tm.convs[n] with signed := 0, pc := 0, state := 1 }
         { tm with convs := tm.convs.set n cv }
       exec (.matrixIssue c.tm.id n.val) s = .next ((s.modTeam c.tm.id freed).asGroup
         ((g :: l).map fun h => h.1.id) fun s u => s.deliver u .mmaHeader (BitVec.ofNat 64 y)))) ∧
  (∀ (s : State) (l : List Signer) (D P : Fin 16) (A B : Fin 32) (hdr : Nat → Nat),
     let lane := fun e : TileOut => 2 * e.i + e.j / 8
     let word := fun (r : Nat) (e : TileOut) => (s.laneReg? l (lane e) r).getD 0
     let elem := fun (k : Fin 16) (e : TileOut) => fp32.decode (word (8 * k.val + e.j % 8) e).toNat
     let scale := fun (k : Fin 32) (x : Nat) (e : TileOut) =>
       let y := ((word (4 * k.val + x / 4) e).extractLsb' (8 * (x % 4)) 8).toNat
       if 0x7F ≤ y then FVal.nan false else e4m3.decode y
     let out := fun op => (s.matrixResult l op hdr).2
     (∀ e ∈ out (.acczero D), e.v = 0 ∧ e.flags = FFlags.clear) ∧
     (∀ e ∈ out (.accmov D P), e.v = word (8 * P.val + e.j % 8) e ∧ e.flags = FFlags.clear) ∧
     (∀ e ∈ out (.accadd D P), (e.v, e.flags) = asWord (fp32.add rneEnv 0 (elem D e) (elem P e))) ∧
     (∀ e ∈ out (.scacc D P A B),
       let d := elem D e
       let p := elem P e
       let sa := scale A e.i e
       let sb := scale B e.j e
       let sc := sa.mul sb
       e.v = (asWord (fp32.sum rneEnv 0 [d, p] [d, p.mul sc] (zeroTimesInf p sc))).1 ∧
         (sa.isNan || sb.isNan || d.isSnan || p.isSnan || zeroTimesInf p sc → e.flags.nv = true)) ∧
     ∀ op ∈ [SignOp.acczero D, .accmov D P, .accadd D P, .scacc D P A B],
       (s.matrixResult l op hdr).1 = 8 * D.val ∧
       ∀ g ∈ l, ∀ r < 8, ∃ e ∈ out op, lane e = g.1.lane.val ∧ e.j % 8 = r ∧ e.i < 16 ∧ e.j < 16)

/-- R177 to R184: what MMA and MMA.PART compute: the products of a row of A and a column of B, exact and in ascending k
of the kept values, are summed with the prior element or without one in the shape that the header names: one by one
(SS0), as a tree (SS1), or by exact fours (SS2), each addition rounded to nearest even; SS3 gives what the exact sum,
moved by no more than its bound, rounds to, and that sum itself where it is a NaN or an infinity (which value within the
bound is the model's free choice, log entry 8).  A product 0 × ∞ and a signalling NaN raise NV.  R185: MMA.C4 is exact
under every summation shape and raises no flag: every element is the sum of its products. -/
def Obligations.C4ProductsAreExact : Prop :=
  (∀ (s : State) (l : List Signer) (D : Fin 16) (A B H : Fin 32) (sp : Bool) (hdr : Nat → Nat),
    ∀ e ∈ (s.matrixResult l (.mmaC4 D A B H sp) hdr).2,
      e.flags = FFlags.clear ∧
      (fp32.decode e.v.toNat).key =
        ((s.terms l (.c4 (hdr 1) (hdr 2)) (4 * A.val) (4 * B.val) sp (hdr 3) e.i e.j).1.map FVal.key).sum) ∧
  (∀ (s : State) (l : List Signer) (D : Fin 16) (A B H : Fin 32) (z sp : Bool) (mf : MmaFmt) (pf : Fp8Fmt)
     (hdr : Nat → Nat),
     let word := fun lane r : Nat => (s.laneReg? l lane r).getD 0
     let el := fun w lane base e : Nat => ((word lane (base + e * w / 32)).extractLsb' (e * w % 32) w).toNat
     let R := fun t : List FVal => fp32.decode (fp32.sum rneEnv 0 [] t false).1
     let chain := fun (c : Option FVal) (t : List FVal) => match c, t with
       | some v, t => t.foldl (fun x y => R [x, y]) v
       | none, x :: t => t.foldl (fun x y => R [x, y]) (R [x])
       | none, [] => FVal.fin false 0
     let at' := fun (t : List FVal) (k : Nat) => t.getD k (FVal.fin false 0)
     let level := fun t : List FVal => (List.range (t.length / 2)).map fun k => R [at' t (2 * k), at' t (2 * k + 1)]
     let fours := fun t : List FVal => (List.range (t.length / 4)).map fun k =>
       sumOf false [at' t (4 * k), at' t (4 * k + 1), at' t (4 * k + 2), at' t (4 * k + 3)]
     let holds := fun (e : TileOut) (c : Option FVal) (n : Nat) (a b : Nat → FVal) =>
       let p := (List.range n).map fun k => (a k).mul (b k)
       let all := c.toList ++ p
       (hdr 0 % 4 = 0 → e.v = encode32 (chain c p)) ∧
       (hdr 0 % 4 = 1 → e.v = encode32 (R (c.toList ++ Nat.iterate level (Nat.log2 n) p))) ∧
       (hdr 0 % 4 = 2 → e.v = encode32 (chain c (fours p))) ∧
       (hdr 0 % 4 = 3 → match sumOf false all with
         | .fin _ _ => ∃ (sign : Bool) (x : Int), (x ≠ 0 → sign = decide (x < 0)) ∧
             (x - (all.map FVal.key).sum).natAbs * 2 ^ 24 ≤ (n + 1) * (all.map fun v => v.key.natAbs).sum ∧
             e.v = encode32 (R [.fin sign x.natAbs])
         | .inf _ | .nan _ => e.v = encode32 (sumOf false all)) ∧
       ((∃ k < n, zeroTimesInf (a k) (b k) = true ∨ (a k).isSnan = true ∨ (b k).isSnan = true) ∨
           c.any FVal.isSnan = true → e.flags.nv = true)
     (∀ e ∈ (s.matrixResult l (.mma D A B H mf z) hdr).2,
       let c := if z then none else some (fp32.decode (word (2 * e.i + e.j / 8) (8 * D.val + e.j % 8)).toNat)
       let go := fun (f : Format) (w n : Nat) => holds e c (2 * n)
         (fun k => f.decode (el w (2 * e.i + k / n) (4 * A.val) (k % n)))
         (fun k => f.decode (el w (2 * e.j + k / n) (4 * B.val) (k % n)))
       match mf with
       | .bf16 => go bf16 16 8
       | .f16 => go fp16 16 8
       | .e4m3 => go e4m3 8 16
       | .e5m2 => go e5m2 8 16) ∧
     (∀ e ∈ (s.matrixResult l (.mmaPart D A B H pf sp) hdr).2,
       let f := match pf with
         | .e4m3 => e4m3
         | .e5m2 => e5m2
       let k := fun q : Nat => if sp then keptK (hdr 3) e.i q else q
       let n := if sp then 32 else 16
       holds e none 32 (fun q => f.decode (el 8 (2 * e.i + q / 16) (4 * A.val) (q % 16)))
         (fun q => f.decode (el 8 (2 * e.j + k q / n) (4 * B.val) (k q % n)))))

/-! ## Versioned pages and step announcement -/

/-- R220 to R223: the frame that a versioned load takes.  LDV.MIN completes with the resident frame of the largest step
that is at least its operand and at least the step that it took last for that operand, LDV.AT with the frame of
exactly its step; without one LDV.AT takes VERSION_ABSENT, and LDV.MIN waits until the page's timeout, or traps when
its team pins a frame of the page.  A misaligned address, one that is not canonical, and one that is no versioned
page trap.  VPIN completes by pinning the frame that LDV.MIN would take, or by counting one more pin on the frame
that its team pins, and gives its step; VUNPIN completes by counting one pin less and drops the last; a team holds at
most 64 pins, and a pin at most 65,535 counts.  That the step taken for an operand never goes back is the model's
reading of R222 (log entry 73). -/
def Obligations.VersionedLoadForms : Prop :=
  (∀ (s : State) (c : Ctx) (m : Mods) (d b r : Reg) (w : VerWidth), s.cur? = some c →
     firstBeyond c.t.alloc [w.blk d, pair b, one r] = none → c.t.poisoned [pair b, one r] = none →
     let a := s.reg64 c.t b
     let st := s.reg32 c.t r
     let room := c.t.flagRoom (hdrSets c.t.hdr) = true
     (a.toNat % w.bytes ≠ 0 → ∀ i ∈ [Instr.ldvMin m d b r w, .ldvAt m d b r w],
       exec i s = .next (s.deliver c.t .misaligned a)) ∧
     (a.toNat % w.bytes = 0 → s.waitEntry c.t = none → 2 ^ 56 ≤ a.toNat →
       ∀ i ∈ [Instr.ldvMin m d b r w, .ldvAt m d b r w], exec i s = .next (s.deliver c.t .addrNoncanon a)) ∧
     (a.toNat % w.bytes = 0 → s.waitEntry c.t = none → a.toNat < 2 ^ 56 →
       ∀ x, s.translate c.tm.core c.t.slice c.l.dev a.toNat ⟨.versioned, true, c.t.level⟩ = .ok x → x.ver = false →
       ∀ i ∈ [Instr.ldvMin m d b r w, .ldvAt m d b r w], exec i s = .next (s.deliver c.t .versionPage a)) ∧
     (a.toNat % w.bytes = 0 → ∀ e off key, s.meetsPage c a.toNat true e off key →
       let frame := fun (k : Nat) (x : Word) => e.frames[k]? = some (.valid, x)
       let least := c.t.floor e.idx st
       let kind := fun k => OpKind.ldv d.val w.bytes e.idx k (e.fpa + k * 2 ^ e.size + off)
       let fresh := if e.vtimeout = 0xFFFFFFFF then none else some (s.tick + e.vtimeout)
       let until' := match c.t.wait with
         | .version k _ _ u _ _ => if k = e.idx then u else fresh
         | _ => fresh
       let waits := ∃ a l u p g, c.t.wait = .version e.idx a l u p g
       let pinned := ∃ p, s.ver.pins.find? (fun q => q.of none c.tm.id e.idx) = some p ∧ p.count ≠ 0
       (∀ k, frame k st → (∀ j, frame j st → j = k) → room → issues s c m (kind k) (exec (.ldvAt m d b r w) s)) ∧
       ((∀ k, ¬frame k st) → exec (.ldvAt m d b r w) s = .next (s.deliver c.t .versionAbsent a)) ∧
       (∀ k x, c.t.given e st = some (k, x) → room →
         issues s { c with t := c.t.chose e.idx st x } m (kind k) (exec (.ldvMin m d b r w) s)) ∧
       (∀ k x, frame k x → least.toNat ≤ x.toNat → (∀ j y, frame j y → j = k ∨ y.toNat < x.toNat) →
         c.t.given e st = none → room →
         issues s { c with t := c.t.chose e.idx st x } m (kind k) (exec (.ldvMin m d b r w) s)) ∧
       ((∀ k x, frame k x → x.toNat < least.toNat) → c.t.given e st = none → room →
         (pinned → ¬waits → exec (.ldvMin m d b r w) s = .next (s.deliver c.t .versionPin a)) ∧
         (¬pinned ∨ waits → (∀ u, until' = some u → s.tick < u) →
           exec (.ldvMin m d b r w) s = .next (s.setThread { c.t with
             wait := .version e.idx a.toNat st until' false none, held := some (c.t.held.getD s.tick)
             demoted := c.t.demoted || (c.tm.defer && !c.l.det) })) ∧
         (¬pinned ∨ waits → ∀ u, until' = some u → u ≤ s.tick →
           exec (.ldvMin m d b r w) s = .next (s.deliver c.t .versionTimeout a))))) ∧
  (∀ (s : State) (c : Ctx) (m : Mods) (d b r : Reg) (e : VEntry) (off key : Nat), s.cur? = some c →
     c.t.flagRoom (hdrSets c.t.hdr) = true →
     let a := s.reg64 c.t b
     let st := s.reg32 c.t r
     let mine := fun q : Pin => q.of none c.tm.id e.idx
     let pins := fun l : List Pin => ({ s with ver := { s.ver with pins := l } } : State)
     let frame := fun (k : Nat) (x : Word) => e.frames[k]? = some (.valid, x)
     let least := c.t.floor e.idx st
     (firstBeyond c.t.alloc [one d, pair b, one r] = none → c.t.poisoned [pair b, one r] = none →
       s.meetsPage c a.toNat true e off key →
       (∀ p, s.ver.pins.find? mine = some p → p.count ≠ 0 →
         (p.step.toNat < st.toNat → exec (.vpin m d b r) s = .next (s.deliver c.t .versionPin a)) ∧
         (st.toNat ≤ p.step.toNat → p.count = 65535 → exec (.vpin m d b r) s = .next (s.deliver c.t .pinLimit a)) ∧
         (st.toNat ≤ p.step.toNat → p.count ≠ 65535 → ∃ l : List Pin,
           issues (pins l) c m (.vpin d.val p.step e.idx) (exec (.vpin m d b r) s) ∧
           l = s.ver.pins.map fun q => if mine q then { p with count := p.count + 1 } else q)) ∧
       ((∀ p ∈ s.ver.pins, ¬mine p) →
         let held := s.ver.pins.countP fun p => p.src.isNone && p.team == c.tm.id && p.count != 0
         (64 ≤ held → exec (.vpin m d b r) s = .next (s.deliver c.t .pinLimit a)) ∧
         (held < 64 → ∀ k x, c.t.given e st = some (k, x) ∨ c.t.given e st = none ∧ frame k x ∧ least.toNat ≤ x.toNat ∧
             (∀ j y, frame j y → j = k ∨ y.toNat < x.toNat) →
           issues (pins (⟨none, c.tm.id, e.idx, k, x, 1⟩ :: s.ver.pins)) { c with t := c.t.chose e.idx st x } m
             (.vpin d.val x e.idx) (exec (.vpin m d b r) s)) ∧
         (held < 64 → (∀ k x, frame k x → x.toNat < least.toNat) → c.t.wait = .run → e.vtimeout = 0xFFFFFFFF →
           exec (.vpin m d b r) s = .next (s.hold c.t (.version e.idx a.toNat st none true none))))) ∧
     (firstBeyond c.t.alloc [pair b] = none → c.t.poisoned [pair b] = none →
       s.meetsPage c a.toNat false e off key →
       ((∀ p, s.ver.pins.find? mine = some p → p.count = 0) → exec (.vunpin m b) s = .next (s.deliver c.t .versionPin a)) ∧
       (∀ p, s.ver.pins.find? mine = some p →
         (p.count = 1 → isRemote e.idx = false → issues (pins (s.ver.pins.filter fun q => !mine q)) c m (.vunpin e.idx)
           (exec (.vunpin m b) s)) ∧
         (p.count = 1 → isRemote e.idx = true →
           issues (pins (s.ver.pins.map fun q => if mine q then { p with count := 0 } else q)) c m (.vunpin e.idx)
             (exec (.vunpin m b) s)) ∧
         (2 ≤ p.count → issues (pins (s.ver.pins.map fun q => if mine q then { p with count := p.count - 1 } else q)) c m
           (.vunpin e.idx) (exec (.vunpin m b) s)))))

/-- R224, R225, R228, R309: STEP.ADV announces a step once the worker is within its lead of every counted peer and the
thread's earlier accesses are performed, after the lower lanes of its issue group (R25): the worker's step rises to it
with that of its own entry, which is counted again unless it has left (R307), and every package that holds a peer is
told, or its message waits for the quota (R306, R402).  An earlier step has no effect, a step too far ahead waits, and a
launch that is no worker traps.  R308: a thread whose wait has met its condition goes on with the announcement. -/
def Obligations.StepAdvance : Prop :=
  ∀ (s : State) (c : Ctx) (m : Mods) (a : Reg), s.Ready' c [one a] →
    let st := s.reg32 c.t a
    let go := exec (.stepAdv m a) s
    (c.t.inRegion = true → go = .next (s.deliver c.t .regionState 0)) ∧
    (c.t.inRegion = false →
      (c.l.worker = none → go = .next (s.deliver c.t .notWorker 0)) ∧
      ∀ w, c.l.worker = some w →
        let near := ∀ e ∈ s.ver.ptable, e.job = w.job → e.state = .counted → e.widx ≠ w.idx →
          st.toNat ≤ e.step.toNat + w.lead
        let allowed := c.t.wait = .ops .announce
        (¬allowed → st.toNat ≤ w.step.toNat → go = .next (s.done c m c.t)) ∧
        (¬allowed → w.step.toNat < st.toNat → ¬near → go = .next (s.hold c.t (.step st))) ∧
        (w.step.toNat < st.toNat → near ∨ allowed →
          (∃ o ∈ s.ops, o.th = c.t.id ∧ o.kind.isAccess = true) ∨ s.lowerHeld c.t = true →
          go = .next (s.hold c.t (.ops .announce))) ∧
        (w.step.toNat < st.toNat → near ∨ allowed → (∀ o ∈ s.ops, o.th = c.t.id → o.kind.isAccess = false) →
          s.lowerHeld c.t = false → s.homeDirty c.tm.core c.l.dev →
          ∃ s1 : State, go = .next (s1.done c m c.t) ∧ s1.teams = s.teams ∧ s1.ops = s.ops ∧
            (∀ id t, s.thread? id = some t → (∀ x, t.wait ≠ .step x) → s1.thread? id = some t) ∧
            s1.launch? c.l.id = some { c.l with worker := some { w with step := st } } ∧
            (∀ e, s.pentry? w.job w.idx = some e → e.step.toNat ≤ st.toNat →
              (e.state ≠ .left →
                { e with step := st, heard := BitVec.ofNat 32 (s.tick / 1024), state := .counted } ∈ s1.ver.ptable) ∧
              (e.state = .left → s1.ver.ptable = s.ver.ptable)) ∧
            ∀ p ∈ s.peerPackages w.job,
              (s.msgHeld c.l.dev p.1 = false → .progress p.1 p.2 w.job w.idx st ∈ s1.outbox) ∧
              (s.msgHeld c.l.dev p.1 = true → (c.l.dev, p.1, .progress p.1 p.2 w.job w.idx st) ∈ s1.heldMsgs)))

/-! ## Regions and the Mortar token -/

/-- R226 to R228: RGN.B opens a region and records what a restart needs: its own address, the masked registers, the
predicates, the loops and the return stack; RGN.E waits for the operations issued since and closes it.  RGN.B in an
open region, but for the restart of that region, and RGN.E outside one trap.  That a failure of the region's
operations waits while a handler suspends it is the model's reading (log entry 37). -/
def Obligations.RegionForms : Prop :=
  ∀ (s : State) (c : Ctx) (m : Mods) (a : Reg) (mk : BitVec 16),
    (s.Ready' c (maskRegs a mk) →
      let opened := fun n : Nat => ∃ cp : Checkpoint,
        exec (.rgnB m a mk) s = .next (s.done c m { c.t with
          region := some ⟨cp, n, false, s.nextId, c.t.activeU, c.t.activeS⟩ }) ∧
        cp.rgn = c.t.pc ∧ cp.cb = c.t.cb ∧ cp.flow = c.t.flow ∧
        (∀ q : Pred, q ≠ 0 → cp.preds.getLsbD q.val = s.pred c.t q) ∧
        ∀ r v, (r, v) ∈ cp.regs ↔ ∃ k < 16, mk.getLsbD k = true ∧ r = a.val + k ∧ v = c.t.rd s.tick s.freeCount r
      (c.t.region = none → opened 0) ∧
      (∀ g, c.t.region = some g → g.restarting = true → c.t.inRegion = true → opened g.retries) ∧
      (∀ g, c.t.region = some g → g.restarting = false ∨ c.t.inRegion = false →
        exec (.rgnB m a mk) s = .next (s.deliver c.t .regionState 0))) ∧
    (s.cur? = some c →
      (c.t.region = none → exec (.rgnE m) s = .next (s.deliver c.t .regionState 0)) ∧
      ∀ g, c.t.region = some g →
        ((∀ o ∈ s.ops, o.th = c.t.id → o.id < g.firstOp) →
          exec (.rgnE m) s = .next (s.done c m { c.t with region := none })) ∧
        ((∃ o ∈ s.ops, o.th = c.t.id ∧ g.firstOp ≤ o.id) →
          exec (.rgnE m) s = .next (s.hold c.t (.ops (.since g.firstOp)))))

/-- R230, R231: outside deterministic mode TKWAIT and TKPASS do nothing.  In it, TKWAIT waits until the thread's
group holds the token and then acquires at DEV scope; TKPASS by the holder releases once the thread's accesses
are performed, marks the thread as passed, and lets the token move; TKPASS by another group traps.  The token
stays while a live thread of the holding group has not passed, one has an operation outstanding, or a write-back of its
release is held (R392, R402), and else moves to the live group of the next higher index, or the lowest, whose marks it
clears.  That a launch all of whose groups are skipped moves no token is the model's (log entry 99). -/
def Obligations.TokenForms : Prop :=
  (∀ (s : State) (c : Ctx) (m : Mods), s.cur? = some c → c.t.inRegion = false →
     (c.l.det = false → ∀ i ∈ [Instr.tkwait m, .tkpass m], exec i s = .next (s.done c m c.t)) ∧
     (c.l.det = true → c.linear / 32 ≠ c.l.holder →
       exec (.tkwait m) s = .next (s.hold c.t .token) ∧ exec (.tkpass m) s = .next (s.deliver c.t .tokenState 0)) ∧
     (c.l.det = true → c.linear / 32 = c.l.holder → s.memWf = true → s.l1Wf →
       (∃ m1, acquired c.tm.core c.l.dev .dev s.ms m1 ∧ exec (.tkwait m) s = .next ((s.setMs m1).done c m c.t)) ∧
       ((∀ o ∈ s.ops, o.th = c.t.id → o.kind.isAccess = false) → s.homeDirty c.tm.core c.l.dev →
         ∃ m1, released c.tm.core c.l.dev .dev s.ms m1 ∧
           exec (.tkpass m) s =
             .next (((s.setMs m1).done c m { c.t with passed := true }).tokenSettle c.l.id
               ((((s.setMs m1).done c m { c.t with passed := true }).liveThreads c.l.id).length + 1))))) ∧
  (∀ (s : State) (l : Launch) (k : Nat), s.launch? l.id = some l → l.holder ∉ l.skipped →
     let live := s.liveThreads l.id
     let group := fun p : Team × Thread => p.1.linear p.2.grp p.2.lane.val / 32
     let busy := ∃ t ∈ s.threads, (∃ o ∈ s.ops, o.th = t.id) ∧
       ∃ tm, s.team? t.team = some tm ∧ tm.launch = l.id ∧ group (tm, t) = l.holder
     let held := ∃ core ∈ s.groupCores l.id l.holder, s.backHeld core l.dev = true
     (busy ∨ held ∨ (∃ p ∈ live, group p = l.holder ∧ p.2.passed = false) → s.tokenSettle l.id k = s) ∧
     (¬busy → ¬held → (∀ p ∈ live, group p = l.holder → p.2.passed = true) → ∀ g, g ∈ live.map group → g ∉ l.skipped → g ≠ l.holder →
       (l.holder < g ∧ (∀ h ∈ live.map group, l.holder < h → g ≤ h) ∨
         (∀ h ∈ live.map group, h ≤ l.holder) ∧ ∀ h ∈ live.map group, g ≤ h) →
       (s.tokenSettle l.id (k + 2)).launch? l.id = some { l with holder := g, moves := l.moves + 1 } ∧
       (s.tokenSettle l.id (k + 2)).ops = s.ops ∧
       ∀ t ∈ s.threads, ∀ tm, s.team? t.team = some tm → tm.launch = l.id → group (tm, t) = g →
         { t with passed := false } ∈ (s.tokenSettle l.id (k + 2)).threads))

/-! ## Special registers -/

/-- R32, R34, R242, R246, R431: MFS writes the value of a special register to one register, or to a pair for a
64-bit one; a number that is not assigned takes SREG_UNDEF.  R245, R428: ENRD writes the energy of its launch,
or that of its virtual device, to a pair.  That TICK reads the same on every die is the model's choice (log entry
100). -/
def Obligations.SpecialRegisterReads : Prop :=
  (∀ (s : State) (c : Ctx) (m : Mods) (r : Reg) (k : BitVec 10), s.cur? = some c →
     let t := c.t
     let tm := c.tm
     let num := immU m.wide k
     let f := match t.level with
       | .u => t.frameU
       | .s | .f => t.frameS
     let reads := fun (w v : Nat) => firstBeyond t.alloc [if w = 64 then pair r else one r] = none →
       exec (.mfs m r k) s = .next (s.done c m (t.puts (toRegs r.val (w / 32) v)))
     (∀ e ∈ [(0x000, 32, t.lane.val), (0x001, 32, t.slice), (0x002, 32, t.slot), (0x003, 32, t.grp), (0x004, 32, tm.teamIdx),
         (0x005, 32, tm.cluIdx), (0x006, 32, tm.core), (0x007, 32, tm.core / 128), (0x008, 32, tm.ngrp), (0x009, 32, tm.nteam),
         (0x00A, 32, tm.nclu), (0x00B, 32, 16 * t.level.code + 2 * b2n c.l.det + b2n tm.defer), (0x00C, 32, tm.ejt),
         (0x010, 64, s.tick), (0x012, 32, (s.csr t).toNat), (0x013, 64, tm.trapvec.toNat), (0x014, 64, tm.rngkey.toNat),
         (0x019, 32, 4096 * tm.scr), (0x01A, 64, c.l.pvbase.toNat), (0x01B, 32, c.l.pvsize.toNat),
         (0x030, 64, t.flow.lc0.start.toNat), (0x031, 64, t.flow.lc0.stop.toNat), (0x032, 32, t.flow.lc0.count.toNat),
         (0x034, 64, t.flow.lc1.start.toNat), (0x035, 64, t.flow.lc1.stop.toNat), (0x036, 32, t.flow.lc1.count.toNat),
         (0x038, 32, t.flow.depth), (0x050, 64, f.xpc.toNat), (0x051, 32, f.xcause.toNat), (0x052, 64, f.xinfo.toNat),
         (0x053, 32, f.xmask.toNat), (0x054, 32, f.xpred.toNat), (0x055, 32, f.xflags.toNat), (0x056, 64, f.xcb.toNat),
         (0x110, 32, b2n tm.pmfrz), (0x180, 64, tm.stepmask.toNat)], num = e.1 → reads e.2.1 e.2.2) ∧
     (∀ w, c.l.worker = some w → num = 0x011 → reads 32 w.step.toNat) ∧
     (∀ j : Fin 8,
       (num = 0x020 + j.val → reads 32 tm.cps[j].toNat) ∧ (num = 0x040 + j.val → reads 64 t.flow.rstk[j].toNat) ∧
       (num = 0x100 + j.val → reads 64 tm.pmcnt[j].toNat) ∧ (num = 0x108 + j.val → reads 32 tm.pmsel[j].toNat)) ∧
     (∀ j : Fin 16,
       (num = 0x080 + j.val → reads 32 (b2n tm.bars[j].init * 2 ^ 31 + b2n tm.bars[j].phase * 2 ^ 24 +
         tm.bars[j].arrived.toNat * 2 ^ 12 + tm.bars[j].expect.toNat)) ∧
       (num = 0x0A0 + j.val → reads 32 tm.convs[j].declared.toNat) ∧
       (num = 0x0B0 + j.val → reads 32 tm.convs[j].signed.toNat) ∧
       (num = 0x0C0 + j.val → reads 32 (tm.convs[j].state.toNat * 256 + tm.convs[j].grp.toNat)) ∧
       (num = 0x0D0 + j.val → reads 64 tm.convs[j].pc.toNat)) ∧
     (sregWidth num = none → exec (.mfs m r k) s = .next (s.deliver t .sregUndef (BitVec.ofNat 64 (num % 1024))))) ∧
  (∀ (s : State) (c : Ctx) (m : Mods) (r : Reg) (k : BitVec 10), s.cur? = some c →
     firstBeyond c.t.alloc [pair r] = none →
     let pick := fun l : List (Nat × DWord) => (l.lookup c.l.dev).getD 0
     let v : DWord := if immU m.wide k = 0 then c.l.energy
       else ((s.launches.filter fun l => l.dev == c.l.dev).map fun l => l.energy).sum + pick s.power.ended +
         pick s.power.lullEnergy
     exec (.enrd m r k) s = .next (s.done c m (c.t.puts [(r.val, lo32 v), (r.val + 1, hi32 v)])))

/-- R33, R35, R37, R242, R247: MTS writes a special register: fields outside its width are dropped, an address
with a bit above 55 set and a reserved value change nothing, and the reserved fields of a register keep zero.  A
read-only register is not changed.  The thread, its team and its launch change in nothing else.  R33, R40, R242:
a thread at level U that writes a special register of level S takes PRIV, with the number and the word in XINFO,
and changes nothing; so does one that issues CARVE (R240).  That a write of XCAUSE with a reserved FROM keeps it, and
one of a barrier with INIT and EXPECT 0 leaves both, is the model's reading (log entries 31 and 32). -/
def Obligations.SpecialRegisterWrites : Prop :=
  (∀ (s : State) (c : Ctx) (m : Mods) (r : Reg) (k : BitVec 10) (num w : Nat),
     s.Ready' c [sregBlk num r] → immU m.wide k = num → sregWidth num = some w →
     c.t.level ≠ .u ∨ num ≤ 0x00C ∨ num ∈ [0x010, 0x011, 0x012, 0x013, 0x014, 0x019, 0x053, 0x055] ∨
       (0x020 ≤ num ∧ num ≤ 0x027) →
     c.t.inRegion = false →
     let t := c.t
     let tm := c.tm
     let fl := t.flow
     let v := s.regN t r.val (w / 32)
     let ok := v < 2 ^ 56
     let code := BitVec.ofNat 56 (v / 4 * 4)
     let frame := fun f : Frame => match t.level with
       | .u => { t with frameU := f }
       | .s | .f => { t with frameS := f }
     let f := match t.level with
       | .u => t.frameU
       | .s | .f => t.frameS
     let writes := fun (t' : Thread) (tm' : Team) (l' : Launch) =>
       exec (.mts m r k) s = .next ((((s.setLaunch l').setTeam tm').setThread t').done c m t')
     let same := writes t tm c.l
     let thread := fun t' => writes t' tm c.l
     let team := fun tm' => writes t tm' c.l
     let flow := fun g : Flow => thread { t with flow := g }
     (num = 0x00B → team { tm with defer := bit v 0 }) ∧
     (num = 0x00C → if v % 16 ≤ 8 then team { tm with ejt := v % 16 } else same) ∧
     (num = 0x012 →
       let rm := if bits v 12 10 < 6 then bits v 12 10 else bits t.fpcsr.toNat 12 10
       thread { t with fpcsr := BitVec.ofNat 32 (bits v 13 13 * 2 ^ 13 + rm * 2 ^ 10 + bits v 9 6 * 2 ^ 6 + v % 32) }) ∧
     (num = 0x013 → if ok then team { tm with trapvec := code.setWidth 64 } else same) ∧
     (num = 0x014 → team { tm with rngkey := BitVec.ofNat 64 v }) ∧
     (num = 0x01A → if ok then writes t tm { c.l with pvbase := BitVec.ofNat 64 v } else same) ∧
     (num = 0x01B → if v % 16 = 0 then writes t tm { c.l with pvsize := BitVec.ofNat 32 v } else same) ∧
     (num = 0x030 → if ok then flow { fl with lc0 := { fl.lc0 with start := code } } else same) ∧
     (num = 0x031 → if ok then flow { fl with lc0 := { fl.lc0 with stop := code } } else same) ∧
     (num = 0x032 → flow { fl with lc0 := { fl.lc0 with count := BitVec.ofNat 32 v } }) ∧
     (num = 0x034 → if ok then flow { fl with lc1 := { fl.lc1 with start := code } } else same) ∧
     (num = 0x035 → if ok then flow { fl with lc1 := { fl.lc1 with stop := code } } else same) ∧
     (num = 0x036 → flow { fl with lc1 := { fl.lc1 with count := BitVec.ofNat 32 v } }) ∧
     (num = 0x038 → if v ≤ 8 then flow { fl with depth := v } else same) ∧
     (num = 0x050 → if ok then thread (frame { f with xpc := code.setWidth 64 }) else same) ∧
     (num = 0x051 →
       let from' := if bits v 9 8 < 2 then bits v 9 8 else bits f.xcause.toNat 9 8
       thread (frame { f with xcause := BitVec.ofNat 32 (from' * 256 + v % 256) })) ∧
     (num = 0x052 → thread (frame { f with xinfo := BitVec.ofNat 64 v })) ∧
     (num = 0x054 → thread (frame { f with xpred := BitVec.ofNat 32 (bits v 7 1 * 2 + 1) })) ∧
     (num = 0x056 → if ok then thread (frame { f with xcb := code.setWidth 64 }) else same) ∧
     (num = 0x110 → team { tm with pmfrz := bit v 0 }) ∧
     (num = 0x180 → team { tm with stepmask := BitVec.ofNat 64 v }) ∧
     (∀ j : Fin 8,
       (num = 0x020 + j.val → team { tm with cps := tm.cps.set j (BitVec.ofNat 32 (v % 2 ^ 24)) }) ∧
       (num = 0x040 + j.val → if ok then flow { fl with rstk := fl.rstk.set j code } else same) ∧
       (num = 0x100 + j.val → team { tm with pmcnt := tm.pmcnt.set j (BitVec.ofNat 64 v) }) ∧
       (num = 0x108 + j.val →
         let event := if v % 256 < 0x0F then v % 256 else tm.pmsel[j].toNat % 256
         team { tm with pmsel := tm.pmsel.set j (BitVec.ofNat 32 (bits v 8 8 * 256 + event)) })) ∧
     (∀ j : Fin 16,
       let cv := tm.convs[j]
       let conv := fun x : Conv => team { tm with convs := tm.convs.set j x }
       (num = 0x0A0 + j.val → conv { cv with declared := BitVec.ofNat 32 v }) ∧
       (num = 0x0B0 + j.val → conv { cv with signed := BitVec.ofNat 32 v }) ∧
       (num = 0x0C0 + j.val →
         let st := if bits v 9 8 = 3 then cv.state else BitVec.ofNat 2 (bits v 9 8)
         conv { cv with state := st, grp := BitVec.ofNat 6 (v % 64) }) ∧
       (num = 0x0D0 + j.val → conv { cv with pc := BitVec.ofNat 56 v }) ∧
       (num = 0x080 + j.val →
         let b := tm.bars[j]
         let keep := bit v 31 = true ∧ v % 4096 = 0
         let e := if keep then b.expect else BitVec.ofNat 12 v
         let arrived := if bits v 23 12 < e.toNat then BitVec.ofNat 12 (bits v 23 12) else b.arrived
         let init := if keep then b.init else bit v 31
         team { tm with bars := tm.bars.set j { init := init, phase := bit v 24, arrived := arrived, expect := e } })) ∧
     (num ≤ 0x00A ∨ num ∈ [0x010, 0x011, 0x019, 0x053, 0x055] → same)) ∧
  (∀ (s : State) (c : Ctx) (m : Mods) (r d a b : Reg) (k : BitVec 10), s.cur? = some c → c.t.level = .u →
     let num := immU m.wide k
     (sregWidth num ≠ none → num ∈ [0x01A, 0x01B, 0x030, 0x031, 0x032, 0x034, 0x035, 0x036, 0x038, 0x050, 0x051, 0x052, 0x054,
         0x056, 0x110, 0x180] ∨ (0x040 ≤ num ∧ num ≤ 0x047) ∨ (0x080 ≤ num ∧ num ≤ 0x0DF) ∨ (0x100 ≤ num ∧ num ≤ 0x10F) →
       exec (.mts m r k) s = .next (s.deliver c.t .priv
         (BitVec.ofNat 64 (num * 2 ^ 32 + (0xEC008000 + r.val * 2 ^ 19 + num * 2 ^ 5))))) ∧
     exec (.carve m d a b) s = .next (s.deliver c.t .priv
       (BitVec.ofNat 64 (0xE8000008 + d.val * 2 ^ 19 + a.val * 2 ^ 12 + b.val * 2 ^ 5))))

/-! ## Traps -/

/-- R376 to R380: a trap goes to the user handler when its cause allows it, the thread runs at U with no user handler
active, and TRAPVEC is not zero; else to level S, unless a level-S handler is active or the device has no vector, and
then the team freezes.  The frame of the handler's level takes the PC, the cause with the level it came from, XINFO,
the lanes of the issue group that trapped alike, which the frames of those threads take too, the predicates, the flags
that are set, and the clause; the thread goes to the vector with its handler-active bit set, and keeps its registers, predicates, flags, loops, return stack and
control registers. -/
def Obligations.TrapEntry : Prop :=
  ∀ (s : State) (c : Ctx) (cause : Cause) (info : DWord), s.ctx? c.t.id = some c →
    let t := c.t
    let s' := s.deliver t cause info
    let frame := fun f : Frame =>
      f.xpc = t.pc.setWidth 64 ∧ f.orig = t.pc.setWidth 64 ∧ f.xcb = t.cb.setWidth 64 ∧ f.xinfo = info ∧
      f.xcause = BitVec.ofNat 32 (256 * t.level.code + cause.code) ∧
      (∀ k < 32, f.xmask.getLsbD k = true ↔ k = t.lane.val ∨
        ∃ x ∈ s.threads, x.lane.val = k ∧ x.id ≠ t.id ∧ ∃ lvl, x.trapAt = some (t.issue, cause.code, lvl)) ∧
      (∀ x lvl, x.id ≠ t.id → s.thread? x.id = some x → x.trapAt = some (t.issue, cause.code, lvl) →
        ∃ x', s'.thread? x.id = some x' ∧ (x'.frameAt lvl).xmask = f.xmask) ∧
      (∀ k < 32, f.xpred.getLsbD k = if h : k < 8 then s.pred t ⟨k, h⟩ else false) ∧
      ∀ k < 32, f.xflags.getLsbD k = if h : k < 12 then decide (t.flags[k] ≠ 0) else false
    let keeps := fun t' : Thread =>
      t'.regs = t.regs ∧ t'.preds = t.preds ∧ t'.flags = t.flags ∧ t'.flow = t.flow ∧ t'.fpcsr = t.fpcsr ∧
      t'.pend = t.pend ∧ t'.region = t.region ∧ t'.arr = t.arr
    let goes := fun (t' : Thread) (a : VAddr) =>
      t'.pc = a &&& ~~~3 ∧ t'.cb = a &&& ~~~3 ∧ t'.entered = false ∧ t'.wait = .run
    let user := cause.user = true ∧ t.level = .u ∧ c.tm.trapvec ≠ 0 ∧ t.activeU = false
    (user → ∃ t', s'.thread? t.id = some t' ∧ frame t'.frameU ∧ t'.frameS = t.frameS ∧ t'.activeU = true ∧
      t'.activeS = t.activeS ∧ t'.level = .u ∧ goes t' (c.tm.trapvec.setWidth 56) ∧ keeps t' ∧ s'.ms = s.ms) ∧
    (¬user → t.activeS = false → s.svec c.l.dev ≠ 0 →
      ∃ t', s'.thread? t.id = some t' ∧ frame t'.frameS ∧ t'.frameU = t.frameU ∧ t'.activeS = true ∧
        t'.activeU = t.activeU ∧ t'.level = .s ∧ goes t' (s.svec c.l.dev) ∧ keeps t' ∧
        (c.l.det = false → s'.ms = s.ms)) ∧
    (¬user → t.activeS = true ∨ s.svec c.l.dev = 0 →
      let why := if t.activeS then 0 else 1
      (∃ t', s'.thread? t.id = some t' ∧ t'.freeze = some (cause.code, why) ∧ t'.level = t.level ∧ t'.pc = t.pc ∧
        t'.frameS = t.frameS ∧ t'.frameU = t.frameU ∧ keeps t') ∧
      (c.tm.phase = .running ∨ c.tm.phase = .preempting → (s'.team? c.tm.id).map (fun tm => tm.phase) = some (.freezing why t.id)) ∧ s'.ms = s.ms)

/-- R57, R63, R75, R76, R243: TRAP and BRK trap with their immediate in XINFO, and words that are no instruction
with the kind of failure, its position and the word.  R55, R244, R381: TRET clears the handler-active bit of its
level, restores the level that the frame came from and the predicates, and goes to XPC: inside the clause the
trap saved when XPC is as the trap left it, and else to a header; TRET_SKIP goes past the instruction at XPC in
the first case, unless a region that failed is to restart (R384).  Both trap when no handler is active.  Which word is
reported, of a chain with two that fail, is the model's choice (log entries 78 and 103). -/
def Obligations.TrapInstructions : Prop :=
  (∀ (s : State) (c : Ctx) (m : Mods) (k : BitVec 10) (r : Reject), s.cur? = some c →
     exec (.trap m k) s = .next (s.deliver c.t .userTrap (BitVec.ofNat 64 (immU m.wide k))) ∧
     exec (.brk m k) s = .next (s.deliver c.t .brk (BitVec.ofNat 64 (immU m.wide k))) ∧
     exec (.illegalInsn r) s = .next (s.deliver c.t (if r.clause then .illegalClause else .illegalInsn)
       (BitVec.ofNat 64 (r.kind.toNat * 2 ^ 35 + r.pos.toNat * 2 ^ 32 + r.word.toNat)))) ∧
  (∀ (s : State) (c : Ctx) (m : Mods), s.cur? = some c →
     let t := c.t
     let user := t.level = .u
     let active := if user then t.activeU else t.activeS
     let f := if user then t.frameU else t.frameS
     let back : Thread → Prop := fun t' =>
       t'.level = Level.ofCode (bits f.xcause.toNat 9 8) ∧
       t'.activeU = (if user then false else t.activeU) ∧ t'.activeS = (if user then t.activeS else false) ∧
       (∀ q : Pred, q ≠ 0 → t'.preds.getLsbD q.val = f.xpred.getLsbD q.val) ∧
       t'.regs = t.regs ∧ t'.flags = t.flags ∧ t'.fpcsr = t.fpcsr ∧ t'.frameU = t.frameU ∧ t'.frameS = t.frameS ∧
       t'.region = t.region ∧ t'.entered = false
     let header := if f.xpc = f.orig then f.xcb.setWidth 56 else f.xpc.setWidth 56
     let at' : Thread → Prop := fun t' => t'.pc = f.xpc.setWidth 56 ∧ t'.cb = header ∧ t'.flow = t.flow ∧ back t'
     (active = false → ∀ i ∈ [Instr.tret m, .tretSkip m], exec i s = .next (s.deliver t .tretState 0)) ∧
     (active = true →
       (∃ t', exec (.tret m) s = .next (s.commit c m 1 t') ∧ at' t') ∧
       let restarts := (s.returned t).regionFails ≠ [] ∧ (s.returned t).suspended = false
       (f.xpc ≠ f.orig ∨ f.xpc = f.xcb ∨ restarts → ∃ t', exec (.tretSkip m) s = .next (s.commit c m 1 t') ∧ at' t') ∧
       (f.xpc = f.orig → f.xpc ≠ f.xcb → ¬restarts → ∀ h n,
         let lvl := Level.ofCode (bits f.xcause.toNat 9 8)
         s.fetch c.tm.core t.slice c.l.dev (max c.l.born t.born) lvl header = .ok h → hdrBad h = false →
         inClause (f.xpc.setWidth 56) header h = true → s.chainWords c lvl (f.xpc.setWidth 56) 3 = .ok n →
         ∃ t' u, exec (.tretSkip m) s = .next (s.commit c m 1 t') ∧ back t' ∧ at' u ∧
           let v := ({ u with hdr := h } : Thread).past n
           t'.pc = v.pc ∧ t'.cb = v.cb ∧ t'.flow = v.flow)))

/-! ## Engine commands -/

/-- R216, R228, R232 to R234, R355: TCOPY by a leader, with a barrier that its team has initialised, starts the
copy that its four registers describe: at once where the core has room and no earlier copy waits, and else when
there is room, with its flags raised until then.  It traps in the order of R234, and the read of a tensor's record
waits while the fabric holds it (R392, R402).  R228, R235, R237, R239, R240,
R329: QPUT, SPAWN, BINREL and CARVE issue their command with its operands, SPAWN with one more group in its
launch's counter; BIN adds to its bin at once and gives the old value.  That BIN counts at issue (log entry 39) and
where a record lies in its table (log entry 19) are the model's reading, and that a record which cannot be read traps
with TILE_RECORD is its choice (log entry 106). -/
def Obligations.TileCopyAndCommandForms : Prop :=
  (∀ (s : State) (c : Ctx) (m : Mods) (d : Reg) (r : Fin 16), s.Ready' c [quad d] →
     let go := exec (.tcopy m d r) s
     let w := s.regN c.t d.val 4
     let led := ∃ n, isLeader c.tm c.t n = true
     let bar := r.val < c.tm.nbar ∧ c.tm.bars[r].init = true
     let room := (s.eng.tcopies.all fun k => k.core != c.tm.core || k.accepted) &&
       decide ((s.eng.tcopies.countP fun k => k.core == c.tm.core && k.accepted) < 64)
     let trap := fun (cause : Cause) (info : Nat) => go = .next (s.deliver c.t cause (BitVec.ofNat 64 info))
     let starts := fun (s : State) (k : TileCopy) => c.t.flagRoom (hdrSets c.t.hdr) = true →
       let adds := fun (k : TileCopy) (ops : List Op) =>
         { s with nextId := s.nextId + 1, ops := s.ops ++ ops, eng := { s.eng with tcopies := s.eng.tcopies ++ [k] } }
       (room = true →
         go = .next (((adds { k with accepted := true } []).done c m c.t).countPm c.tm.id 0x0E 1)) ∧
       (room = false → ∃ o : Op, o.id = s.nextId ∧ o.th = c.t.id ∧ o.kind = .tcopy k.id ∧ o.flags = hdrSets c.t.hdr ∧
         go = .next (((adds k [o]).setThread { s.issued c m (1, false) (c.t.raise (hdrSets c.t.hdr)) with
           wait := .accept k.id (m.count + 1) }).countPm c.tm.id 0x0E 1))
     (c.t.inRegion = true → trap .regionState 0) ∧
     (c.t.inRegion = false →
       (¬led → trap .notLeader 0) ∧ (led → ¬bar → trap .barState r.val) ∧
       (led → bar → bits w 62 56 ≠ 0 ∨ bits w 95 85 ≠ 0 → trap .engineDesc 0) ∧
       (led → bar → bits w 62 56 = 0 → bits w 95 85 = 0 →
         let soff := bits w 84 64
         let units := bits w 115 96
         let gaddr := bits w 55 0
         (bits w 127 116 = 0 →
           (gaddr % 16 ≠ 0 → trap .misaligned gaddr) ∧
           (gaddr % 16 = 0 → soff % 16 ≠ 0 → trap .misaligned soff) ∧
           (gaddr % 16 = 0 → soff % 16 = 0 → 4096 * c.tm.scr < soff + 16 * units →
             trap .scratchBounds (max soff (4096 * c.tm.scr))) ∧
           (gaddr % 16 = 0 → soff % 16 = 0 → soff + 16 * units ≤ 4096 * c.tm.scr → ∃ k : TileCopy, starts s k ∧
             k.id = s.nextId ∧ k.th = c.t.id ∧ k.team = c.tm.id ∧ k.core = c.tm.core ∧ k.dev = c.l.dev ∧ k.br = r.val ∧
             k.out = bit w 63 ∧ k.soff = soff ∧ k.tid = 0 ∧ k.gaddr = gaddr ∧ k.units = units ∧ k.accepted = false)) ∧
         ∀ s1 k, tileDesc c s.nextId r.val w = some k →
           let recordHeld := k.tid ≠ 0 ∧ k.soff % 128 = 0 ∧ s.layoutHeld c.tm.core c.l.dev k.tid = true
           (recordHeld → go = .next (s.hold c.t (.ops .wide))) ∧
           (¬recordHeld →
             (∀ cause info, s.tileCheck k (4096 * c.tm.scr) = (s1, .error (cause, info)) →
               go = .next (s1.deliver c.t cause (BitVec.ofNat 64 info))) ∧
             ∀ k', s.tileCheck k (4096 * c.tm.scr) = (s1, .ok k') → s1.nextId = s.nextId → s1.eng = s.eng →
               s1.tick = s.tick → k'.core = c.tm.core → k'.accepted = false → starts s1 k'))) ∧
  (∀ (s : State) (c : Ctx) (m : Mods) (d a b : Reg), c.t.flagRoom (hdrSets c.t.hdr) = true → c.t.inRegion = false →
     let dd := (s.reg64 c.t d).toNat
     let da := (s.reg64 c.t a).toNat
     let counted := fun (r : Host.Outcome State Fault Refusal) (s0 : State) (kind : OpKind) =>
       ∃ s', issues s0 c m kind (.next s') ∧ r = .next (s'.countPm c.tm.id 0x0E 1)
     (s.Ready' c [pair d, sixteen a] →
       (dd % 64 ≠ 0 → exec (.qput m d a) s = .next (s.deliver c.t .misaligned (s.reg64 c.t d))) ∧
       (dd % 64 = 0 → ∀ loc ord, s.resolve c .gl dd 64 ⟨.write, false, c.t.level⟩ = .ok loc ord →
         counted (exec (.qput m d a) s) s (.qput dd (toBytes 64 (s.regN c.t a.val 16)) none))) ∧
     (s.Ready' c [pair d, pair a] →
       counted (exec (.spawn m d a) s) (s.setLaunch { c.l with counter := c.l.counter + 1 }) (.spawn dd da s.nextId)) ∧
     (s.Ready' c [pair a] → counted (exec (.binrel m a) s) s (.binrel da)) ∧
     (s.cur? = some c → firstBeyond c.t.alloc [one d, one a, one b] = none → c.t.poisoned [one a, one b] = none →
       let n := (s.reg32 c.t a).toNat
       (c.t.level ≠ .u → ∃ s' : State, issues s c m (.carve d.val c.tm.core n (s.reg32 c.t b).toNat) (.next s') ∧
         exec (.carve m d a b) s = .next (s'.carveStart c.tm.core)) ∧
       (255 < n → exec (.bin m d a b) s = .next (s.deliver c.t .binRange (BitVec.ofNat 64 n))) ∧
       (∀ h : n < 256, issues (s.setTeam { c.tm with bins := c.tm.bins.set n (c.tm.bins[n] + s.reg32 c.t b) }) c m
         (.bin d.val c.tm.bins[n]) (exec (.bin m d a b) s)))))

/-- R228, R232, R288, R367, R368: COLL reads its descriptor from memory, the core's dirty bytes of it included, once the
thread's accesses and write-backs are performed; one that passes the checks is accepted while fewer than eight
contributions of its collective are staged, and stages the thread's step.  It traps in the order of R368.  The read
of a descriptor in another package's memory waits while the fabric holds it, and one that fails traps with
REMOTE_FAIL (R382, R391, R392, R402).  That it waits for every earlier access and for held write-backs is the model's
reading (log entry 38). -/
def Obligations.CollectiveForm : Prop :=
  ∀ (s : State) (c : Ctx) (m : Mods) (d a : Reg) (r : Fin 16), s.Ready' c [pair d, one a] →
    let go := exec (.coll m d a r) s
    let addr := (s.reg64 c.t d).toNat
    let clear := (∀ o ∈ s.ops, o.th = c.t.id → o.kind.isAccess = false) ∧ s.backHeld c.tm.core c.l.dev = false
    let late := BitVec.ofNat 64 (2 ^ 63 + c.t.pc.toNat)
    (c.t.inRegion = true → go = .next (s.deliver c.t .regionState 0)) ∧
    (c.t.inRegion = false →
      (c.l.worker = none → go = .next (s.deliver c.t .notWorker 0)) ∧
      ∀ w, c.l.worker = some w →
        (c.tm.nbar ≤ r.val ∨ c.tm.bars[r].init = false →
          go = .next (s.deliver c.t .barState (BitVec.ofNat 64 r.val))) ∧
        (r.val < c.tm.nbar → c.tm.bars[r].init = true →
          (addr % 64 ≠ 0 → go = .next (s.deliver c.t .misaligned (s.reg64 c.t d))) ∧
          (addr % 64 = 0 → 2 ^ 56 ≤ addr → go = .next (s.deliver c.t .addrNoncanon (s.reg64 c.t d))) ∧
          (addr % 64 = 0 → ∀ key un ord, s.resolve c .gl addr 64 ⟨.read, false, c.t.level⟩ = .ok (.mem key un) ord →
            let s0 := s.engineSync c.tm.core key 64
            (¬clear → go = .next (s.hold c.t (.ops .wide))) ∧
            (clear → s0.engineHeld c.l.dev key = true → go = .next (s0.hold c.t (.ops .wide))) ∧
            (clear → s0.engineHeld c.l.dev key = false → s0.requestFails key = true →
              go = .next ((s0.countFails 1).deliver c.t .remoteFail late)) ∧
            (clear → s0.engineHeld c.l.dev key = false → s0.requestFails key = false → s0.ms.poisoned key 64 = true →
              go = .next (s0.deliver c.t .memError late)) ∧
            (clear → isRemote key = false → s0.ms.poisoned key 64 = false →
              let l := (List.range 64).map fun k => s0.byteAt (key + k)
              let q := parseDesc l c.l.dev c.l.id addr w.idx 0 c.t.level
              let page := s0.translate c.tm.core c.t.slice c.l.dev q.rpage ⟨.versioned, false, c.t.level⟩
              let size := match page with
                | .ok x => some x.size
                | .fault _ | .miss => none
              (s0.descBad l q w.job size = true → go = .next (s0.deliver c.t .engineDesc (s.reg64 c.t d))) ∧
              (s0.descBad l q w.job size = false → page ≠ .miss ∨ q.e ≤ 16384 →
                (q.buf % 16 ≠ 0 → go = .next (s0.deliver c.t .misaligned (BitVec.ofNat 64 q.buf))) ∧
                (q.buf % 16 = 0 → q.mrbase % 64 ≠ 0 →
                  go = .next (s0.deliver c.t .misaligned (BitVec.ofNat 64 q.mrbase)))) ∧
              (page = .miss → s0.descBad l q w.job none = false →
                16384 < q.e ∨ (q.buf % 16 = 0 ∧ q.mrbase % 64 = 0) →
                go = .next (s0.hold c.t (.walk q.rpage .versioned false))) ∧
              ∀ x e, page = .ok x →
                (s0.descBad l q w.job (some x.size) = false → q.buf % 16 = 0 → q.mrbase % 64 = 0 →
                  q.rpage % 2 ^ x.size ≠ 0 → go = .next (s0.deliver c.t .misaligned (BitVec.ofNat 64 q.rpage))) ∧
                (s0.descBad l q w.job (some x.size) = false → q.buf % 16 = 0 → q.mrbase % 64 = 0 →
                  q.rpage % 2 ^ x.size = 0 →
                  (x.ver = false ∨ s0.ventryAt x.key x.size = none →
                    go = .next (s0.deliver c.t .versionPage (BitVec.ofNat 64 q.rpage))) ∧
                  (x.ver = true → s0.ventryAt x.key x.size = some e → c.t.flagRoom (hdrSets c.t.hdr) = true →
                    let room := decide ((s0.staged w.job q.cid).length < 8)
                    ∃ (s1 : State) (g : Stage), go = .next s1 ∧ g ∈ s1.coll.stages ∧
                      g.desc = { q with entry := e.idx } ∧ g.step = (s.reg32 c.t a).toNat ∧ g.th = c.t.id ∧
                      g.team = c.tm.id ∧ g.br = r.val ∧ g.accepted = room ∧ g.read = false ∧
                      (room = true → s1.ops = s.ops ∧
                        ∃ s2 : State, s2.threads = s.threads ∧ s1 = (s2.done c m c.t).countPm c.tm.id 0x0E 1) ∧
                      (room = false → ∃ s2 s3 : State, s2.threads = s.threads ∧ issues s2 c m (.coll g.id) (.next s3) ∧
                        s1 = s3.countPm c.tm.id 0x0E 1)))))))

/-! ## Steps of the package: threads and teams -/

/-- R346, R347, R350 to R352: EJECT_HANDOVER lets a thread that has drained ask for the port, lower lanes of its decision
first, and issue on its Eddy context once its transfer is over; RECALL sends one that has drained home, also when its
team stops, and RECALL_COMPLETE lets it stand there with its age at 0.  A transfer ends no earlier than those that
asked for the port before it allow.  R19, R48, R50, R55, R76: CLAUSE_START takes the header once every flag that its
WAIT names is clear and the clause's issue takes no count above 63, waits until then, so that a thread which has waited for
its flags issues in the next cycle, and traps a thread at a header that fails its check; a thread that a save has brought back after its instruction was done then goes on past it, with
its step trap (R432).  R189, R269, R270: PAGE_WALK holds the leaf that answers in the core's TLBs
and lets the thread execute its instruction again; a fatal fault traps.  R270, R271: at a replayable one the thread parks, and
the first that parks in a 64 KiB region of a device posts a fault record with the region and the kind of the access.  R221: VERSION_TIMEOUT traps a thread for
whose wait no frame qualifies in time.  That a clause is held while its long-class words would take a count above 63
(log entry 68), that an Eddy context hands over as log entry 59 says, and that a recall counts when it is complete
(log entry 55) are the model's reading. -/
def Obligations.PlaceAndClauseEvents : Prop :=
  (∀ (s : State) (th : Nat) (t : Thread) (tm : Team), s.thread? th = some t → s.team? t.team = some tm →
    (∀ o ∈ s.ops, o.th = th → tm.phase ≠ .running ∧ o.kind.withdrawable = true) →
    let inPort := fun ready : Nat => s.tick + t.alloc / 4 + 56 ≤ ready ∧
      ∀ u ∈ s.threads, ∀ m, s.team? u.team = some m → m.core = tm.core → u.place.portUntil + t.alloc / 4 + 56 ≤ ready
    (∀ c x, t.place = .leaving c x 0 →
      (∀ u ∈ s.threads, u.issue = t.issue → u.lane < t.lane → u.place.unasked = false) →
      ∃ ready, inPort ready ∧ exec (.ejectHandover th) s = .next (s.setThread { t with place := .leaving c x ready })) ∧
    (∀ c x ready, t.place = .leaving c x ready → 0 < ready → ready ≤ s.tick →
      exec (.ejectHandover th) s = .next (s.setThread { t with place := .eddy c x })) ∧
    (∀ c x, t.place = .recallWanted c x ∨ (t.place = .eddy c x ∧ tm.phase ≠ .running ∧ s.chained th = false) →
      ∃ ready, inPort ready ∧ exec (.recall th) s = .next (s.setThread { t with place := .returning c x ready })) ∧
    ∀ c x ready, t.place = .returning c x ready → ready ≤ s.tick →
      ∃ s' : State, exec (.recallComplete th) s = .next s' ∧ s'.ms = s.ms ∧ s'.ops = s.ops ∧
        s'.thread? th = some { t with place := .home, age := 0, ready := s.tick + 1, readyHalf := false } ∧
        (∀ id ≠ th, s'.thread? id = s.thread? id) ∧
        ∀ d : Fin 4, s'.eddy[d].recalls = s.eddy[d].recalls + (if coreDie tm.core = d.val then 1 else 0)) ∧
  (∀ (s : State) (th : Nat) (c : Ctx), s.ctx? th = some c → c.t.entered = false →
    c.t.wait = .run ∨ (∃ n, c.t.wait = .past n) →
    let get := s.fetch c.tm.core c.t.slice c.l.dev (max c.l.born c.t.born) c.t.level c.t.cb
    let clear := fun h : Word => s.clauseRoom c h = true ∧ ∀ k : Fin 12, h.getLsbD (20 + k.val) = true → c.t.flags[k] = 0
    let run := exec (.clauseStart th) s
    (∀ h, get = .ok h → hdrBad h = false → inClause c.t.pc c.t.cb h = true →
      let waited := 2 ^ 20 ≤ h.toNat ∧ 2 * c.t.ready + (if c.t.readyHalf then 1 else 0) ≤ 2 * s.tick
      let enters : Thread :=
        { c.t with
          hdr := h, entered := true, pc := if c.t.pc = c.t.cb then c.t.cb + 4 else c.t.pc, wait := .run
          ready := if waited then (if c.t.place = .home then s.tick + 1 else s.tick) else c.t.ready
          readyHalf := if waited then decide (c.t.place ≠ .home) else c.t.readyHalf }
      (clear h → ∃ s1 : State, { s1 with ms := s.ms } = s ∧ { s1.ms with code := s.ms.code, msc := s.ms.msc } = s.ms ∧
        (c.t.wait = .run → run = .next (s1.setThread enters)) ∧
        ∀ n, c.t.wait = .past n →
          run = .next (if c.t.stepAt then (s1.setThread (enters.past n)).deliver (enters.past n) .brk 0x400
            else s1.setThread (enters.past n))) ∧
      (¬clear h → run = .next s)) ∧
    (get = .held → run = .next s) ∧
    (∀ h, get = .ok h → hdrBad h = true ∨ inClause c.t.pc c.t.cb h = false → s.peers c = [c.t] →
      let i : Issue := { members := [th], trapped := [], taken := [], stayed := [] }
      let s1 := ({ s.newIssue [th] with issuing := i } : State).deliver
        { c.t with issue := s.nextId, pc := c.t.cb } .illegalClause (h.setWidth 64)
      run = .next { s1 with issuing := s.issuing }) ∧
    (get = .miss → s.peers c = [c.t] → run = .next ((s.newIssue [th]).setThread
      { c.t with issue := s.nextId, wait := .walk c.t.cb.toNat .fetch false }))) ∧
  (∀ (s : State) (th : Nat) (c : Ctx) (va : Nat) (kind : XKind) (special : Bool), s.ctx? th = some c →
    c.t.wait = .walk va kind special →
    let answer := s.walkRoot (some (coreDie c.tm.core)) c.l.dev va
    let want : XWant := ⟨kind, special, c.t.level⟩
    let fatal := fun f : XFault => ¬(f.reason = 0 ∧ f.rpl = true) →
      ∃ s1 : State, s1.threads = s.threads ∧ s1.ms.mem = s.ms.mem ∧
        exec (.pageWalk th) s = .next (s1.deliver c.t .xlateFault (xlateInfo kind f va))
    let region := (c.l.dev, va / 65536)
    let code := match kind with
      | .read => 0
      | .write => 1
      | .fetch => 2
      | .versioned => 3
    let parks := fun f : XFault => f.reason = 0 → f.rpl = true →
      ∃ s1 : State, s1.threads = s.threads ∧ s1.teams.map Team.core = s.teams.map Team.core ∧ s1.ms.mem = s.ms.mem ∧ s1.front = s.front ∧
        let s2 := if kind = .fetch then s1.setThread { c.t with wait := .replay va } else s1.hold c.t (.replay va)
        exec (.pageWalk th) s = .next
          (if region ∈ s.front.parked then s2
           else ({ s2 with front := { s2.front with parked := region :: s.front.parked } } : State).post c.l.dev false 0x01 0
             (s2.threadSource c.t) (toBytes 8 (va / 65536 * 65536) ++ toBytes 8 code))
    (∀ w, answer = .ok w →
      (∀ x, s.checkLeaf c.l.dev va want w.leaf w.level w.lo = .ok x →
        ∃ s' : State, exec (.pageWalk th) s = .next s' ∧ s'.thread? th = some { c.t with wait := .run } ∧
          (∀ id ≠ th, s'.thread? id = s.thread? id) ∧ s'.ms.mem = s.ms.mem ∧
          s'.translate c.tm.core c.t.slice c.l.dev va want = .ok x) ∧
      ∀ f, s.checkLeaf c.l.dev va want w.leaf w.level w.lo = .error f → fatal f) ∧
    ∀ f, answer = .error f → fatal f ∧ parks f) ∧
  ∀ (s : State) (th k a d : Nat) (t : Thread) (st : Word) (p : Bool) (e : VEntry), s.thread? th = some t →
    t.wait = .version k a st (some d) p none → d ≤ s.tick → s.ventry? k = some e →
    (∀ (j : Nat) (x : Word), e.frames[j]? = some (.valid, x) → x.toNat < (t.floor e.idx st).toNat) →
    exec (.versionTimeout th) s = .next (s.deliver t .versionTimeout (BitVec.ofNat 64 a))

/-- R382: ACCESS_FAILURE delivers the failure of the lowest word address to a thread that stands at a boundary, or
whose wait at EXIT is over.  R229,
R383, R384: REGION_RESTART, once a failed region's operations have completed, restores its checkpoint and sets the
thread to RGN.B with one more retry, and at the eighth failure closes the region and traps.  R338: PREEMPTION chooses
running teams of the partition, of lower priority than the cluster that waits.  R339, R340, R379: TEAM_SAVE and
TEAM_FREEZE take a drained team off its core and hold it as it stood, frozen or not, its threads with their registers;
R386: TEAM_RESTORE brings a saved team back on the core that takes it, once no CARVE is under way there (R255).  That
a saved team keeps its FIFO mark (log entry 36), in what order saved teams and placements go (log entries 46 and 74)
and that a failure waits while a handler suspends the region (log entry 37) are the model's reading. -/
def Obligations.TeamEvents : Prop :=
  (∀ (s : State) (th : Nat) (t : Thread) (f : Failure), s.thread? th = some t → t.region = none →
    t.wait = .run ∨ (t.wait = .exiting ∧ ∀ o ∈ s.ops, o.th ≠ th) → f ∈ t.fails → (∀ g ∈ t.fails, g = f ∨ f.word.toNat < g.word.toNat) → f.bank = none →
    exec (.accessFailure th) s = .next (s.deliver { t with fails := [] } (if f.remote then .remoteFail else .memError)
      (BitVec.ofNat 64 (2 ^ 63 + f.word.toNat)))) ∧
  (∀ (s : State) (th : Nat) (t : Thread) (r : Region), s.thread? th = some t → t.region = some r →
    t.activeU = false → t.activeS = false → t.pend = [] → (∀ o ∈ s.ops, o.th ≠ th) → (r.cp.regs.map Prod.fst).Nodup →
    (∃ f ∈ t.fails, r.firstOp ≤ f.op ∧ f.handler = false) →
    let restored : Thread → Prop := fun t' =>
      t'.pc = r.cp.rgn ∧ t'.cb = r.cp.cb ∧ t'.flow = r.cp.flow ∧ t'.preds = r.cp.preds ∧ t'.entered = false ∧
      t'.wait = .run ∧ (∀ q : Reg, t'.regs[q] = (r.cp.regs.lookup q.val).getD t.regs[q]) ∧ t'.flags = t.flags ∧
      t'.fpcsr = t.fpcsr ∧ t'.level = t.level ∧ ∀ g, g ∈ t'.fails ↔ g ∈ t.fails ∧ ¬(r.firstOp ≤ g.op ∧ g.handler = false)
    (r.retries < 7 → ∃ s' t', exec (.regionRestart th) s = .next s' ∧ s'.thread? th = some t' ∧ restored t' ∧
      t'.region = some { r with retries := r.retries + 1, restarting := true } ∧ s'.ms = s.ms ∧ s'.ops = s.ops ∧
      ∀ id ≠ th, s'.thread? id = s.thread? id) ∧
    (7 ≤ r.retries → ∃ (s1 : State) (t' : Thread) (cause : Cause) (info : DWord), { s1 with tags := s.tags } = s ∧
      exec (.regionRestart th) s = .next (s1.deliver t' cause info) ∧ restored t' ∧ t'.region = none)) ∧
  (∀ (s : State) (p : Placement) (l : Launch) (ids : List Nat), s.preempted p.id = some ids →
    s.front.placements.find? (fun x => x.id == p.id) = some p → s.launch? p.launch = some l →
    exec (.preemption p.id) s = .next { s with teams := s.teams.map fun m =>
      if m.id ∈ ids then { m with phase := .preempting } else m } ∧
    ∀ id ∈ ids, ∃ m ∈ s.teams, m.id = id ∧ m.phase = .running ∧ s.teamPart m = s.vdPart l.dev ∧ s.teamPrio m < l.prio) ∧
  (∀ (s : State) (tm : Team) (l : Launch) (frozen : Bool) (i : Instr), s.team? tm.id = some tm →
    s.launch? tm.launch = some l → s.leavesNow tm = true →
    (i = .teamSave tm.id ∧ tm.phase = .preempting ∧ frozen = false) ∨
      (i = .teamFreeze tm.id ∧ (∃ reason th, tm.phase = .freezing reason th) ∧ frozen = true) →
    ∃ (s' : State) (v : SavedTeam), exec i s = .next s' ∧ s'.team? tm.id = none ∧ (∀ t ∈ s'.threads, t.team ≠ tm.id) ∧
      v ∈ s'.saved ∧ v.dev = l.dev ∧ v.frozen = frozen ∧
      { v.team with phase := tm.phase, fifoMark := tm.fifoMark, convs := tm.convs } = tm ∧
      ((∀ t ∈ s.threads, t.team = tm.id → t.region = none) → v.team.convs = tm.convs) ∧
      (frozen = true → ∀ p ∈ s'.ver.pins, p.src = none → p.team ≠ tm.id) ∧
      ∀ t ∈ s.threads, t.team = tm.id → t.pend = [] → t.region = none →
        ∃ u ∈ v.threads, u.id = t.id ∧ u.regs = t.regs ∧ u.preds = t.preds ∧ u.flags = t.flags ∧ u.flow = t.flow ∧
          u.pc = t.pc ∧ u.cb = t.cb ∧ u.fpcsr = t.fpcsr ∧ u.level = t.level ∧ u.frameU = t.frameU ∧
          u.frameS = t.frameS ∧ u.arr = t.arr) ∧
  ∀ (s : State) (v : SavedTeam) (core : Nat) (units : List (Nat × Nat)),
    s.saved.find? (fun x => x.team.id == v.team.id) = some v → s.restorable v = true →
    s.restoreNow v = some (core, units) → s.saveBad v = false → s.team? v.team.id = none →
    ((s.threads ++ v.threads).map fun t => t.id).Nodup →
    ∃ (s' : State) (m : Team), exec (.teamRestore v.team.id) s = .next s' ∧ s'.team? v.team.id = some m ∧
      m.core = core ∧ m.units = units ∧
      { m with core := v.team.core, units := v.team.units, order := v.team.order, pmcnt := v.team.pmcnt } = v.team ∧
      (∀ x ∈ s'.saved, ¬(x.team.id = v.team.id ∧ x.dev = v.dev)) ∧
      ∀ t ∈ v.threads, ∃ u, s'.thread? t.id = some u ∧ u.regs = t.regs ∧ u.preds = t.preds ∧ u.flow = t.flow ∧
        u.pc = t.pc ∧ u.cb = t.cb ∧ u.fpcsr = t.fpcsr ∧ u.level = t.level ∧
        ((∀ k a w d p g, t.wait ≠ .version k a w d p g) → u.wait = t.wait)

/-! ## Steps of the package: versions, workers, queues -/

/-- R298: VCREATE makes an entry whose frame 0 is VALID with the start step, once the device's dirty bytes of this
package's memory are written back; VDESTROY closes one and waits, and VDESTROY_COMPLETE ends its pins and frees it.  R300: INSTALL_FRAME_TAKE marks
the lowest EMPTY frame FILLING, else the frame of lowest step that nothing holds, and drops a step that a resident one
has overtaken, and waits while every frame is held; INSTALL_COMPLETE writes every byte of the frame and makes it VALID,
and the threads and peers that wait for a frame of the page test it again (R302); the next installation of the page
waits from then on, and INSTALL_STALL says once that one has stalled.  R271, R272: XLINV drops the device's translations and walker-cache entries of its range and waits for
the accesses that used them, those whose translation has left the TLBs before among them, and XLINV_COMPLETE lets the
parked threads of the range walk again and retires the packet.  Retiring is Obligations.QueueEvents' matter.  That
VCREATE gives the lowest free index and writes back every dirty byte of its device is the model's reading (log entries 2
and 47), as is how long a frame takes to fill (log entry 90) and that a step which a thread has been given stays the
least that it takes (log entry 73). -/
def Obligations.VersionEvents : Prop :=
  (∀ (s : State) (q : Queue) (l : List Byte), s.Serves q l 0x10 →
    let out := fun (s : State) detail st => exec (.vcreate q.id) s =
      .next ((s.noteTurn q).finish q (pktDone l) detail st)
    let fine := flagsBad l = false ∧ zeroBytes l 4 8 = true ∧ zeroBytes l 17 20 = true ∧ zeroBytes l 28 56 = true ∧
      (field l 16 1 = 2 ∨ field l 16 1 = 4)
    let n := field l 16 1
    (¬fine → out s 0 2) ∧ (fine → s.verLeaf q.dev (field l 8 8) = none → out s 0 9) ∧
    ∀ fpa size, fine → s.verLeaf q.dev (field l 8 8) = some (fpa, size) →
      (s.framesOk q.dev fpa size n = false → out s 0 11) ∧
      (s.framesOk q.dev fpa size n = true → s.ventryAt fpa size ≠ none → out s 0 10) ∧
      (s.framesOk q.dev fpa size n = true → s.ventryAt fpa size = none →
        ∀ idx < 65536, (∀ e ∈ s.ver.dir, e.idx ≠ idx) → (∀ k < idx, ∃ e ∈ s.ver.dir, e.idx = k) →
          ∃ s1 : State, exec (.vcreate q.id) s = .next (s1.finish q (pktDone l) idx 0) ∧
            s1.ver.dir = s.ver.dir ++ [⟨idx, q.dev, decide (size = 21), fpa, field l 24 4,
              (.valid, BitVec.ofNat 32 (field l 20 4)) :: List.replicate (n - 1) (.empty, 0), 0, none⟩] ∧
            (∀ b ∈ s1.ms.l1, b.dev = q.dev → isRemote b.key = false → b.dirty = false) ∧ s1.threads = s.threads ∧ s1.teams = s.teams)) ∧
  (∀ (s : State) (q : Queue) (l : List Byte) (fpa size : Nat) (e : VEntry), s.Serves q l 0x11 → s.queue? q.id = some q →
    flagsBad l = false → zeroBytes l 4 8 = true → zeroBytes l 16 56 = true →
    s.verLeaf q.dev (field l 8 8) = some (fpa, size) → s.ventryAt fpa size = some e → s.ventry? e.idx = some e →
    isRemote e.idx = false →
    ∃ s' : State, exec (.vdestroy q.id) s = .next s' ∧
      s'.queue? q.id = some { q with wait := .destroying e.idx (pktDone l) } ∧
      s'.ventry? e.idx = some { e with closing := some q.id } ∧
      (∀ i, i ∈ s'.ver.installs ↔ i ∈ s.ver.installs ∧ (i.entry ≠ e.idx ∨ i.frame ≠ none)) ∧ s'.ms = s.ms) ∧
  (∀ (s : State) (e : VEntry), s.ventry? e.idx = some e → e.closing ≠ none → s.pageBusy e.idx = false →
    (∀ t ∈ s.threads, ∀ a st d p g, t.wait ≠ .version e.idx a st d p g) →
    ∃ s1 : State, exec (.vdestroyComplete e.idx) s =
        .next ((s.destroyers e.idx).foldl (fun s w => s.finish w.1 w.2 0 0) s1) ∧ s1.ms = s.ms ∧
      (∀ x, x ∈ s1.ver.dir ↔ x ∈ s.ver.dir ∧ x.idx ≠ e.idx) ∧
      (∀ t ∈ s1.threads, ∀ x ∈ t.chosen, x.1 ≠ e.idx) ∧ (∀ w ∈ s.ver.waits, w.entry = e.idx → .remoteNoPage w.src ∈ s1.outbox) ∧
      (∀ w, w ∈ s1.ver.waits ↔ w ∈ s.ver.waits ∧ w.entry ≠ e.idx) ∧ ∀ p, p ∈ s1.ver.pins ↔ p ∈ s.ver.pins ∧ p.entry ≠ e.idx) ∧
  (∀ (s : State) (i : Install) (e : VEntry), s.memWf = true → s.install? i.id = some i → s.ventry? i.entry = some e →
    isRemote i.entry = false → (s.ver.installs.map fun x => x.id).Nodup →
    let first := fun s : State => s.ver.installs.find? fun x => x.entry == i.entry
    let installs := fun (s' : State) (l : List Install) =>
      let what := fun x : Install => (x.id, x.entry, x.step, x.data, x.frame, x.stalled)
      s'.ver.installs.map what = l.map what ∧ ∀ x, first s' = some x → x.frame = none → x.since = s.tick
    let entry := fun (s' : State) (x : VEntry) => s'.ventry? i.entry = some x
    let rest := s.ver.installs.filter fun x => x.id != i.id
    (i.frame = none → first s = some i →
      ((∃ (k : Nat) (x : Word), e.frames[k]? = some (.valid, x) ∧ i.step ≤ x.toNat) →
        ∃ s', exec (.installFrameTake i.id) s = .next s' ∧ installs s' rest ∧
          entry s' { e with drops := min 0xFFFF (e.drops + 1) } ∧ s'.ms = s.ms) ∧
      ((∀ (j : Nat) (x : Word), e.frames[j]? = some (.valid, x) → x.toNat < i.step ∧ s.frameHeld e.idx j = true) →
        (∀ (j : Nat) (x : Word), e.frames[j]? ≠ some (FState.empty, x)) → exec (.installFrameTake i.id) s = .next s) ∧
      ∀ k, (∀ (j : Nat) (x : Word), e.frames[j]? = some (.valid, x) → x.toNat < i.step) →
        ((∃ x, e.frames[k]? = some (.empty, x)) ∧ (∀ j < k, ∀ x : Word, e.frames[j]? ≠ some (FState.empty, x))) ∨
          ((∀ (j : Nat) (x : Word), e.frames[j]? ≠ some (FState.empty, x)) ∧ s.frameHeld e.idx k = false ∧
            ∃ x : Word, e.frames[k]? = some (.valid, x) ∧ ∀ (j : Nat) (y : Word), e.frames[j]? = some (.valid, y) →
              s.frameHeld e.idx j = false → j = k ∨ x.toNat < y.toNat) →
        ∃ s', exec (.installFrameTake i.id) s = .next s' ∧ entry s' { e with frames := e.frames.set k (.filling, 0) } ∧
          { i with frame := some k, ready := s.tick + s.delay } ∈ s'.ver.installs ∧ s'.ms = s.ms) ∧
    (∀ k, i.frame = some k →
      ∃ s', exec (.installComplete i.id) s = .next s' ∧ installs s' rest ∧
        let x : VEntry := { e with frames := e.frames.set k (.valid, BitVec.ofNat 32 i.step) }
        entry s' x ∧
        (∀ (t : Thread) (va : Nat) (least : Word) (d : Option Nat) (pin : Bool), s.thread? t.id = some t →
          t.wait = .version e.idx va least d pin none → (∃ m, s.team? t.team = some m ∧ m.phase = .running) →
          s'.thread? t.id = some { t with wait := .version e.idx va least d pin (x.frameFor t least) }) ∧
        (∀ w ∈ s.ver.waits, w.entry = e.idx →
          (x.qualifying w.least = none → w ∈ s'.ver.waits) ∧
          ∀ f team least, w.req = .vpin team least → least = w.least → x.qualifying least = some f → s.ver.waits.length < 65536 →
            (∀ p ∈ s.ver.pins, p.of (some w.src) team e.idx = false) →
            .remoteData w.src 4 f.2.toNat ∈ s'.outbox ∧ ∃ p ∈ s'.ver.pins, p.of (some w.src) team e.idx = true ∧ p.frame = f.1) ∧
        ∀ a, s'.byteAt a =
          let off := a - (e.fpa + k * 2 ^ e.size)
          if e.fpa + k * 2 ^ e.size ≤ a ∧ off < 2 ^ e.size then
            BitVec.ofNat 8 ((i.data[off / 4]?.getD 0).toNat / 2 ^ (8 * (off % 4)))
          else s.byteAt a) ∧
    (i.frame = none → first s = some i → i.stalled = false → i.since + e.vtimeout < s.tick →
      ∃ s1 : State, exec (.installStall i.id) s = .next (s1.post e.dev true 0x05 0 0x0804
          (toBytes 4 e.idx ++ toBytes 4 i.step ++ [BitVec.ofNat 8 (s.pinned e)])) ∧
        { i with stalled := true } ∈ s1.ver.installs ∧ s1.ms = s.ms)) ∧
  (∀ (s : State) (q : Queue) (l : List Byte), s.Serves q l 0x13 → s.queue? q.id = some q → q.dev ≠ 1024 →
    flagsBad l = false → zeroBytes l 4 8 = true → zeroBytes l 26 56 = true → field l 24 2 = q.dev →
    let start := field l 8 8
    let len := field l 16 8
    start % 65536 = 0 → len % 65536 = 0 →
    ∃ s' i, exec (.xlinv q.id) s = .next s' ∧ i ∈ s'.front.invals ∧ i.dev = q.dev ∧ i.first = start ∧ i.last = start + len ∧
      s'.queue? q.id = some { q with wait := .invalidating i.id (pktDone l) } ∧
      (∀ e, e ∈ s'.ms.tlb ↔ e ∈ s.ms.tlb ∧ ¬(e.dev = q.dev ∧ e.va < start + len ∧ start < e.va + 2 ^ e.size)) ∧
      (∀ e, e ∈ s'.ms.walker ↔ e ∈ s.ms.walker ∧ e.within q.dev start len = false) ∧
      (∀ o ∈ s.ops, ∀ e ∈ s.ms.tlb, e.dev = q.dev → e.va < start + len → start < e.va + 2 ^ e.size →
        s.usedEntry e o = true → o.id ∈ i.waits) ∧
      (∀ o ∈ s.ops, s.usedDropped q.dev s'.ms.tlb o = true → o.id ∈ i.waits) ∧
      { s'.ms with tlb := s.ms.tlb, walker := s.ms.walker } = s.ms ∧ s'.threads = s.threads) ∧
  ∀ (s : State) (i : Inval) (q : Queue) (done : Nat), s.front.invals.find? (fun x => x.id == i.id) = some i →
    (∀ k ∈ i.waits, ∀ o ∈ s.ops, o.id ≠ k) → q.wait = .invalidating i.id done →
    (∀ x ∈ s.front.queues, x = q ∨ ∀ d, x.wait ≠ .invalidating i.id d) → q ∈ s.front.queues →
    ∃ s1 : State, exec (.xlinvComplete i.id) s = .next (s1.finish q done 0 0) ∧ s1.ms = s.ms ∧
      (∀ x ∈ s1.front.invals, x.id ≠ i.id) ∧
      ∀ t c va, s.thread? t.id = some t → s.ctx? t.id = some c → t.wait = .replay va →
        s1.thread? t.id = some (if c.l.dev = i.dev ∧ i.first ≤ va ∧ va < i.last then { t with wait := .run } else t)

/-- R304, R305, R323: WORKER binds its worker to its job at the start step and adds its launch, at level U, which is
tried for placement at once; it waits while the fabric holds the read of its tables (R392).  That the record of a
refused worker goes to the packet's DONE, and which bytes of a peer entry are ignored, are log entries 44 and 107.  R307, R308, R311: a progress message raises the step of its worker's entry and its HEARD
and counts it again, with a record when it was silent; a leave message makes the entry LEFT for good; PEER_SILENT makes
a counted peer silent that has not been heard of for longer than SILENCE; with each, every thread that waits in STEP.ADV
tests its condition again.  R306: HEARTBEAT sends a bound worker's step
to every package on which the job has a worker, or holds it at the source while the quota does (R402). -/
def Obligations.WorkerEvents : Prop :=
  (∀ (s : State) (q : Queue) (l : List Byte) (table : List (List Byte)) (d : List Byte), s.Serves q l 0x12 →
    let job := field l 16 2
    let idx := field l 18 2
    let n := field l 20 2
    let peers := peersBut idx (table.map s.peerOf)
    let held := s.vheld q.dev (field l 32 8) (16 * n) .read .s = true ∨ s.vheld q.dev (field l 8 8) 64 .read .s = true
    flagsBad l = false → zeroBytes l 4 8 = true → zeroBytes l 23 24 = true → zeroBytes l 40 56 = true →
    0 < n → n ≤ 8192 → idx < n → 1024 ≤ field l 28 4 → field l 28 4 ≤ 2 ^ 27 →
    (held → exec (.worker q.id) s = .next (s.noteTurn q)) ∧
    (¬held → s.readPeers q.dev (field l 32 8) n = .ok table →
    (∀ k x, table[k]? = some x → k = idx ∨ s.peerBad x = false) → s.vread q.dev (field l 8 8) 64 .s = .ok d →
    let st := s.workerStatus q.dev job idx n (field l 22 1) (field l 24 4) (field l 28 4) peers d
    (st ≠ 0 → exec (.worker q.id) s = .next ((s.noteTurn q).finish q (pktDone l) 0 st)) ∧
    (st = 0 →
      ∃ (s1 : State) (k : Launch), exec (.worker q.id) s = .next (s1.tryPlace (s.nextId + 2)) ∧
        s1.launches = s.launches ++ [k] ∧ k.dev = q.dev ∧ k.level = .u ∧ k.packet = d ∧ k.started = false ∧
        k.worker = some ⟨job, idx, BitVec.ofNat 32 (field l 24 4), field l 22 1, s.tick⟩ ∧
        (∃ j ∈ s1.ver.jobs, j.job = job) ∧ ∀ e ∈ s1.ver.ptable, e.job = job → e.widx = idx → e.isLocal = true))) ∧
  (∀ (s : State) (e : PEntry) (stp : Nat), s.pentry? e.job e.widx = some e →
    let heard := BitVec.ofNat 32 (s.tick / 1024)
    let told := fun f : PEntry → PEntry =>
      ({ s with ver := { s.ver with
          ptable := s.ver.ptable.map fun x => if x.job = e.job ∧ x.widx = e.widx then f x else x } } : State)
    let with' := fun f : PEntry → PEntry => ({ told f with threads := s.threads.map ((told f).retested e.job) } : State)
    let st := BitVec.ofNat 32 (max e.step.toNat (stp % 2 ^ 32))
    let s1 : State := with' fun x => { x with step := st, heard := heard, state := .counted }
    let s2 : State := with' fun x => { x with state := .left }
    (e.state = .counted → exec (.progressMessage e.job e.widx stp) s = .next s1) ∧
    (e.state = .silent → exec (.progressMessage e.job e.widx stp) s = .next (s1.postPeer 0x03 e.job e.widx st heard)) ∧
    (e.state = .left → exec (.progressMessage e.job e.widx stp) s = .next s ∧ exec (.leaveMessage e.job e.widx) s = .next s) ∧
    (e.state ≠ .left → exec (.leaveMessage e.job e.widx) s = .next (s2.postPeer 0x04 e.job e.widx e.step e.heard)) ∧
    (s.ver.ptable.find? (fun x => x.idx == e.idx) = some e → e.state = .counted → e.isLocal = false →
      s.silence e.job < (heard - e.heard).toNat →
      exec (.peerSilent e.idx) s =
        .next ((with' fun x => { x with state := .silent }).postPeer 0x02 e.job e.widx e.step e.heard)) ∧
    ∀ (f : PEntry → PEntry) (t : Thread),
      ((∀ st, t.wait ≠ .step st) → (told f).retested e.job t = t) ∧
      ∀ (c : Ctx) (w : Worker) (st : Word), t.wait = .step st → s.ctx? t.id = some c → c.l.worker = some w → w.job = e.job →
        let allowed := ∀ x ∈ (told f).ver.ptable, x.job = w.job → x.state = .counted → x.widx ≠ w.idx →
          st.toNat ≤ x.step.toNat + w.lead
        (allowed → (told f).retested e.job t = { t with wait := .ops .announce }) ∧
        (¬allowed → (told f).retested e.job t = t)) ∧
  ∀ (s : State) (l : Launch) (w : Worker), s.launch? l.id = some l → l.worker = some w →
    let due := w.beat + s.silence w.job * 128 ≤ s.tick
    let beat := s.setLaunch { l with worker := some { w with beat := s.tick } }
    let msg := fun p : Nat × DWord => Msg.progress p.1 p.2 w.job w.idx w.step
    let far := s.peerPackages w.job
    (¬due → exec (.heartbeat l.id) s = .next s) ∧
    (due → (∀ p ∈ far, s.msgHeld l.dev p.1 = false) →
      exec (.heartbeat l.id) s = .next { beat with outbox := (far.map msg).reverse ++ s.outbox }) ∧
    (due → (∀ p ∈ far, s.msgHeld l.dev p.1 = true) →
      exec (.heartbeat l.id) s = .next { beat with heldMsgs := s.heldMsgs ++ far.map fun p => (l.dev, p.1, msg p) }) ∧
    ∀ j k a, s.ver.jobs.find? (fun j => j.job == w.job) = some j → j.peers[k]? = some (some a) →
      (∃ e ∈ s.ver.ptable, e.job = w.job ∧ e.widx = k ∧ e.isLocal = false) →
      (a.1, if s.regField 0x70000000 41 32 < a.1 then a.2 else 0) ∈ far


/-- R318, R322: a packet retires by advancing its queue, whose next slot is then read, and its record stands at DONE.
R317, R406, R412: a kick takes an accepted value as KMAX, has a slot at which the queue stopped read again, and wakes a device
in Lull that has AUTOWAKE.  R318: QUEUE_REREAD stops a queue at a slot not written for it and reads it again after
12,500 ticks, and counts a read of the slot that the fabric fails.  R316, R361, R323, R324: a TYPE that the queue does not accept, a NOP with a byte set, a COPY or a QCREATE
with a bad field retire with their status; a good COPY is handed to the engine, and QCREATE registers its queue, after
a read that waits while the fabric holds it (R392).  Which free number a queue gets, the lowest, and the highest for a
privileged queue, is the model's choice (log entry 97), as are the stop at a slot that cannot be read (log entry 43)
and which queue a round serves first (log entry 93). -/
def Obligations.QueueEvents : Prop :=
  (∀ (s : State) (q : Queue) (done detail st : Nat), s.queue? q.id = some q →
    let s' := s.finish q done detail st
    (∃ q', s'.queue? q.id = some q' ∧ q'.rdidx = q.rdidx + 1 ∧ q'.wait = .idle ∧ q'.base = q.base ∧ q'.num = q.num) ∧
    s'.threads = s.threads ∧ s'.tick = s.tick ∧
    (s.memWf = true → q.dev = 1024 → done ≠ 0 → physMem done 16 = true →
      s'.pocRead done 16 = toBytes 8 s.tick ++ toBytes 2 st ++ toBytes 2 0 ++ toBytes 4 detail)) ∧
  (∀ (s : State) (q : Queue) (value : Nat), s.queueOf q.dev q.num = some q →
    let v : Word := BitVec.ofNat 32 value
    let good := 1 ≤ (v - q.kmax).toNat ∧ (v - q.kmax).toNat < 2 ^ 31
    let s1 := s.setQueue { q with
      kmax := if good then v else q.kmax
      wait := match q.wait with
        | .stopped _ => .idle
        | w => w }
    let wakes := good ∧ q.dev < 1024 ∧ (s.reg (vdOff q.dev 0x08)).getLsbD 0 = true ∧ s.vdState q.dev = 3
    (¬wakes → exec (.kick q.dev q.num value) s = .next s1) ∧
    (wakes → exec (.kick q.dev q.num value) s = .next (s1.wakeRequest q.dev))) ∧
  (∀ (s : State) (q : Queue), s.queue? q.id = some q →
    (∀ t, q.wait = .stopped t →
      (t + 12500 ≤ s.tick → exec (.queueReread q.id) s = .next (s.setQueue { q with wait := .idle })) ∧
      (s.tick < t + 12500 → exec (.queueReread q.id) s = .next s)) ∧
    (q.wait = .idle → s.head q = .stop →
      let stops := fun s1 : State => s1.setQueue { q with wait := .stopped s.tick }
      (∀ x, s.slotRead q = .ok x → exec (.queueReread q.id) s = .next (stops s)) ∧
      ∀ e, s.slotRead q = .error e → exec (.queueReread q.id) s = .next (stops (s.countFault e)))) ∧
  (∀ (s : State) (q : Queue) (l : List Byte), s.frontPick = some q → s.head q = .ready l false →
    typeAllowed q (field l 0 1) = false →
    exec (.badTypePacket q.id) s = .next ((s.noteTurn q).finish q (pktDone l) 0 1)) ∧
  (∀ (s : State) (q : Queue) (l : List Byte),
    let out := fun detail st => (s.noteTurn q).finish q (pktDone l) detail st
    (s.Serves q l 0x02 →
      let fine := flagsBad l = false ∧ zeroBytes l 4 56 = true
      (fine → exec (.nop q.id) s = .next (out 0 0)) ∧ (¬fine → exec (.nop q.id) s = .next (out 0 2))) ∧
    (s.Serves q l 0x03 →
      let src := field l 8 8
      let dst := field l 16 8
      let len := field l 24 4
      let bobj := field l 32 8
      let fine := flagsBad l = false ∧ zeroBytes l 4 8 = true ∧ zeroBytes l 28 32 = true ∧ zeroBytes l 40 56 = true ∧
        src % 16 = 0 ∧ dst % 16 = 0 ∧ len % 16 = 0 ∧ bobj % 16 = 0 ∧ (dst + len ≤ src ∨ src + len ≤ dst)
      (¬fine → exec (.copy q.id) s = .next (out 0 2)) ∧
      (fine → ∃ s1 : State, exec (.copy q.id) s = .next (s1.retire q.id) ∧ s1.ms = s.ms ∧ s1.eng.tcopies = s.eng.tcopies ∧
        s1.eng.qcopies = s.eng.qcopies ++ [⟨s.nextId, q.id, q.dev, src, dst, len, bobj, pktDone l⟩])) ∧
    (s.Serves q l 0x14 → q.dev ≠ 1024 →
      let cb := field l 8 8
      let fine := flagsBad l = false ∧ zeroBytes l 4 8 = true ∧ field l 16 1 < 8 ∧ zeroBytes l 17 18 = true ∧
        zeroBytes l 20 56 = true ∧ cb % 64 = 0 ∧ field l 18 2 = 0
      (¬fine → exec (.qcreate q.id) s = .next (out 0 2)) ∧
      (fine → s.vdExists q.dev = true → s.vheld q.dev cb 64 .read .s = true →
        exec (.qcreate q.id) s = .next (s.noteTurn q)) ∧
      ∀ block n, fine → s.vdExists q.dev = true → s.vheld q.dev cb 64 .read .s = false → s.vread q.dev cb 64 .s = .ok block → blockBad block = false →
        s.front.queues.length < 4096 → s.freeNum q.dev false = some n →
        ∃ s1 : State, exec (.qcreate q.id) s = .next (s1.finish q (pktDone l) n 0) ∧
          s1.front.queues = s.front.queues ++ [⟨s.nextId, q.dev, n, cb, field block 16 8, field block 24 8, field l 16 1,
            false, BitVec.ofNat 32 (field block 8 8), field block 8 8, .idle⟩])) ∧
  (∀ (s : State) (dev n : Nat) (priv : Bool), s.freeNum dev priv = some n → n < 64 ∧ s.queueOf dev n = none ∧
    ∀ k < 64, (if priv then n < k else k < n) → s.queueOf dev k ≠ none)

/-- R320, R321, R326: a LAUNCH that fails a check retires with its status; one that passes adds its launch, at the level
of its queue and the lesser priority, whose seed waits at the head of the queue and is tried for placement at once.
R331, R14, R27: PLACEMENT places a team of one core, its barriers and convergence registers free, and every one of its
threads at the entry header with ARG in g0 and g1, its other registers zero and its flags clear, once no CARVE is under
way on its core (R255).  R328, R329:
SPAWN_DESCRIPTOR refuses with its status, counted, or adds the groups' range and lets them wait for placement.  R290,
R329: LAUNCH_COMPLETE writes the launch's dirty bytes back, and the launch is gone.  Both wait while the fabric holds
what they read or write (R392, R402), and SPAWN_DESCRIPTOR for lower lanes of its instruction (R25, R218).  That the
scratch of a new team and its other fields are zero is the model's choice (log entries 2 and 5), and that the descriptor
is read after every earlier access of its thread (log entry 38), that a saved team goes before a placement (log entry
46), and that the end of a launch writes back the dirty bytes of the cores that it used (log entry 47) are its
reading. -/
def Obligations.LaunchEvents : Prop :=
  (∀ (s : State) (q : Queue) (l : List Byte), s.Serves q l 0x01 →
    let st := s.launchStatus q.dev l
    (st ≠ 0 → exec (.launch q.id) s = .next ((s.noteTurn q).finish q (pktDone l) 0 st)) ∧
    (st = 0 → ∃ (s1 : State) (k : Launch) (p : Placement), exec (.launch q.id) s = .next (s1.tryPlace p.id) ∧
      s1.launches = s.launches ++ [k] ∧ k.dev = q.dev ∧ k.queue = q.id ∧ k.level = (if q.priv then .s else .u) ∧
      k.det = bit (field l 1 1) 0 ∧ k.prio = min (field l 4 1 % 8) q.prio ∧ k.packet = l ∧ k.worker = none ∧
      k.pvbase = BitVec.ofNat 64 (field l 40 8) ∧ k.pvsize = BitVec.ofNat 32 (field l 32 4) ∧ k.started = false ∧
      s1.front.placements = s.front.placements ++ [p] ∧ p.launch = k.id ∧ p.queue = some q.id ∧ p.desc = l ∧
      p.arg = BitVec.ofNat 64 (field l 16 8) ∧ p.nclu = 1 ∧ p.nteam = 1 ∧ p.ngrp = 1 ∧ s1.threads = s.threads)) ∧
  (∀ (s : State) (p : Placement) (l : Launch) (core : Nat) (slots units : List (Nat × Nat)),
    s.front.placements.find? (fun x => x.id == p.id) = some p → s.launch? p.launch = some l → s.served l.dev = true →
    s.restoreFirst l = false → s.placementFit l p = some [(core, slots, units)] → s.carving core = false →
    ∃ s' tm, exec (.placement p.id) s = .next s' ∧ tm ∈ s'.teams ∧ tm.launch = l.id ∧ tm.core = core ∧ tm.slots = slots ∧
      tm.units = units ∧ tm.scratch = [] ∧ tm.full = [] ∧ tm.trapvec = 0 ∧
      (∀ n : Fin 16, tm.bars[n] = ⟨false, false, 0, 0⟩ ∧ tm.convs[n].state = 0) ∧
      ∀ (g : Nat) (at' : Nat × Nat) (lane : Fin 32), slots[g]? = some at' →
        ∃ t ∈ s'.threads, t.team = tm.id ∧ t.grp = g ∧ t.lane = lane ∧ t.slice = at'.1 ∧ t.slot = at'.2 ∧
          t.alloc = (field p.desc 5 1 % 16 + 1) * 8 ∧
          (∀ r : Reg, t.regs[r] = if r.val = 0 then lo32 p.arg else if r.val = 1 then hi32 p.arg else 0) ∧
          t.preds = 1 ∧ (∀ k : Fin 12, t.flags[k] = 0) ∧ t.pc = BitVec.ofNat 56 (field p.desc 8 8) ∧ t.cb = t.pc ∧
          t.entered = false ∧ t.level = l.level ∧ t.fpcsr = 0 ∧ t.flow.depth = 0 ∧ t.wait = .run) ∧
  (∀ (s : State) (o : Op) (c : Ctx) (desc arg tree : Nat), s.op? o.id = some o → s.ctx? o.th = some c →
    o.kind = .spawn desc arg tree →
    (s.forkWaits o = true ∨ s.laneAhead o = true → exec (.spawnDescriptor o.id) s = .next s) ∧
    (s.forkWaits o = false → s.laneAhead o = false → desc = 0 ∨ s.vheld c.l.dev desc 64 .read c.l.level = false →
    let s0 := ((s.releaseAt c .dev).endOp o).syncRange c.tm.core c.l.dev desc (if desc = 0 then 0 else 64) c.l.level
    let run := exec (.spawnDescriptor o.id) s
    let refused := fun (st : Nat) => ∃ s' : State, run = .next s' ∧ s'.op? o.id = none ∧
      s'.launch? c.l.id = some { c.l with
        counter := c.l.counter - 1, refused := c.l.refused + 1, first := if c.l.first = 0 then st else c.l.first }
    (s0.spawnRead c.l desc = none → refused 9) ∧
    ∀ d tbase, s0.spawnRead c.l desc = some (d, tbase) →
      (s0.spawnStatus c.l d tbase ≠ 0 → refused (s0.spawnStatus c.l d tbase)) ∧
      (s0.spawnStatus c.l d tbase = 0 → ∃ (s1 : State) (p : Placement), run = .next (s1.tryPlace p.id) ∧
        s1.op? o.id = none ∧ s1.front.placements = s.front.placements ++ [p] ∧ p.launch = c.l.id ∧ p.queue = none ∧
        p.desc = d ∧ p.arg = BitVec.ofNat 64 arg ∧ p.tbase = tbase ∧
        s1.launch? c.l.id = some { c.l with
          ranges := addRange c.l.ranges
            (tbase, tbase + 32 * (pktGroups d * (pktCols d * pktRows d) * pktNclu d))
          trees := c.l.trees ++ [⟨tree, pktNclu d⟩] }))) ∧
  ∀ (s : State) (l : Launch), s.memWf = true → s.l1Wf → s.launch? l.id = some l → l.started = true → l.counter = 0 →
    ((∃ k ∈ l.cores, s.backHeld k l.dev = true) → exec (.launchComplete l.id) s = .next s) ∧
    ((∀ k ∈ l.cores, s.backHeld k l.dev = false) → ∃ s1 : State, exec (.launchComplete l.id) s = .next
        ((if pktDone l.packet = 0 then s1 else s1.qwrite l.dev (pktDone l.packet) (l.record s.tick)).endLaunch l) ∧
      (∀ b ∈ s1.ms.l1, b.dev = l.dev → b.core ∈ l.cores → b.dirty = false) ∧
      (∀ b ∈ s.ms.l1, b.dev = l.dev → b.core ∈ l.cores → b.dirty = true → isRemote b.key = false →
        (∀ x ∈ s.ms.l1, x.dev = l.dev → x.core ∈ l.cores → x.dirty = true → x.key = b.key → x = b) → s1.byteAt b.key = b.val) ∧
      s1.threads = s.threads ∧
      ∀ s2 : State, (s2.endLaunch l).launch? l.id = none)

/-! ## Steps of the package: engines and collectives -/

/-- R355: TCOPY_ACCEPT gives the first copy of its core that waits a place, lowers its flags, and lets its thread go on.
R288, R289, R358: TCOPY_COMPLETE ends a copy with its arrival; one 16-byte unit that a linear copy reads from plain
memory stands in scratch, and its granule is full.  R362: QUEUE_COPY_COMPLETE of a copy of the physical function moves
every byte.  R239: BIN_COMPLETE gives DST the prior count.  R366: BINREL_RELEASE clears the bins that its entries name.
R235: QPUT_SLOT_WRITE claims an index by a fetch-and-add and then, when the ring has room, ends.  R240, R253, R254:
CARVE_COMPLETE gives DST its status; a bank whose mode it changes is empty, no line stands in it, and it belongs to
the device in FIFO mode; the next CARVE of the core begins; firmware switches a bank on a device's behalf, with status 6
for a core outside its partition (R250).  Each waits for what it must follow, and while the fabric holds a request of it
(R392, R402).  The model's reading are that a command waits for every earlier access of its thread (log entry 38), that
BIN counts at issue (log entry 39), the order of CARVE's checks (log entry 40) and when firmware's CARVE is served (log
entry 109). -/
def Obligations.EngineEvents : Prop :=
  (∀ (s : State) (k : TileCopy) (o : Op) (c : Ctx) (w : Nat), s.tcopy? o.id = some k → s.op? o.id = some o →
    o.th = k.th → s.ctx? k.th = some c → c.t.wait = .accept o.id w → stepped c.tm c.t = false → c.t.entered = true → k.accepted = false →
    (∀ x ∈ s.eng.tcopies, x.core = k.core → x.accepted = true ∨ x = k ∨ k.id < x.id) →
    (s.eng.tcopies.map fun x => x.id).Pairwise (· < ·) →
    s.eng.tcopies.countP (fun x => x.core == k.core && x.accepted) < 64 →
    ∃ s', exec (.tcopyAccept o.id) s = .next s' ∧ s'.tcopy? o.id = some { k with accepted := true } ∧ s'.op? o.id = none ∧
      s'.wentOn w c.t (c.t.lower o.flags) ∧ s'.ms = s.ms) ∧
  (∀ (s : State) (k : TileCopy) (tm : Team), s.tcopy? k.id = some k → k.accepted = true → s.copyWaits k = false →
    s.team? k.team = some tm → (∃ t ∈ s.threads, t.team = k.team) →
    let ends := fun s' : State => exec (.tcopyComplete k.id) s = .next s' ∧ s'.tcopy? k.id = none
    (∃ s', ends s') ∧
    ∀ key, k.tid = 0 → k.out = false → k.units = 1 → k.soff % 16 = 0 → s.segmentKey k k.gaddr = .ok key → isMgmt key = false →
      key % 16 = 0 → isRemote key = false → s.ms.poisoned key 16 = false → (∀ b ∈ s.ms.l1, b.core = k.core → key ≤ b.key → b.key < key + 16 → b.dirty = false) →
      s.memWf = true → ∀ n : Fin 16, k.br = n.val → tm.bars[n].init = true → tm.bars[n].arrived + 1 ≠ tm.bars[n].expect →
      ∃ s' tm', ends s' ∧ s'.team? k.team = some tm' ∧
        tm'.bars = tm.bars.set n { tm.bars[n] with arrived := tm.bars[n].arrived + 1 } ∧
        (∀ a, Memory.get tm'.scratch a =
          if k.soff ≤ a ∧ a < k.soff + 16 then s.byteAt (key + (a - k.soff)) else Memory.get tm.scratch a) ∧
        (∀ g, g ∈ tm'.full ↔ g ∈ tm.full ∨ g = k.soff / 16) ∧ ∀ a, s'.byteAt a = s.byteAt a) ∧
  (∀ (s : State) (k : QueueCopy), s.memWf = true → s.eng.qcopies.find? (fun x => x.id == k.id) = some k →
    s.copyReady k = true → k.dev = 1024 → k.bobj = 0 → k.done = 0 → k.src % 16 = 0 → k.dst % 16 = 0 → k.len % 16 = 0 →
    (∀ i < k.len / 16, physMem (k.src + 16 * i) 16 = true ∧ physMem (k.dst + 16 * i) 16 = true ∧
      s.ms.poisoned (k.src + 16 * i) 16 = false) →
    k.src + k.len ≤ k.dst ∨ k.dst + k.len ≤ k.src →
    ∃ s', exec (.queueCopyComplete k.id) s = .next s' ∧ (∀ x ∈ s'.eng.qcopies, x.id ≠ k.id) ∧ s'.threads = s.threads ∧
      ∀ a, s'.byteAt a = if k.dst ≤ a ∧ a < k.dst + k.len then s.byteAt (k.src + (a - k.dst)) else s.byteAt a) ∧
  (∀ (s : State) (o : Op) (t : Thread) (dst : Nat) (old : Word), s.op? o.id = some o → s.thread? o.th = some t →
    o.kind = .bin dst old →
    ∃ s', exec (.binComplete o.id) s = .next s' ∧ ended s s' o t dst 1 old.toNat ∧ s'.ms = s.ms) ∧
  (∀ (s : State) (o : Op) (c : Ctx) (desc : Nat), s.op? o.id = some o → s.ctx? o.th = some c → o.kind = .binrel desc →
    let waits := s.forkWaits o = true ∨ s.laneAhead o = true ∨ s.binHeld c.l.dev desc o.level = true
    (waits → exec (.binrelRelease o.id) s = .next s) ∧
    (¬waits →
    let s0 := ((s.releaseAt c .dev).endOp o).binSync c.tm.core c.l.dev desc o.level
    let found := s0.binEntries c.l.dev desc o.level
    (∀ va reason i, found = .error (va, reason, i) →
      exec (.binrelRelease o.id) s = .next (s0.engineFault c.l.dev va 2 reason i 0x801)) ∧
    ∀ entries, found = .ok entries → ∃ s' tm', exec (.binrelRelease o.id) s = .next s' ∧ s'.op? o.id = none ∧
      s'.team? c.tm.id = some tm' ∧
      ∀ n : Fin 256, tm'.bins[n] = if entries.any fun e => e.bin == n.val then 0 else c.tm.bins[n])) ∧
  (∀ (s : State) (o : Op) (c : Ctx) (cb : Nat) (packet : List Byte), s.op? o.id = some o → s.ctx? o.th = some c →
    (s.qputReady c o = false → exec (.qputSlotWrite o.id) s = .next s) ∧
    (o.kind = .qput cb packet none → s.qputReady c o = true → ∀ s1 s2 l,
      s.eread c.tm.core c.l.dev cb 8 o.level = (s1, .ok l) →
      s1.ewrite c.tm.core c.l.dev cb (toBytes 8 (ofBytes l + 1)) o.level = (s2, none) →
      ∃ s', exec (.qputSlotWrite o.id) s = .next s' ∧ s'.op? o.id = some { o with kind := .qput cb packet (some (ofBytes l)) } ∧
        s'.ms = s2.ms ∧ s'.threads = s.threads) ∧
    ∀ i b, o.kind = .qput cb packet (some i) → (s.eread c.tm.core c.l.dev cb 64 o.level).2 = .ok b →
      (field b 8 8 + 2 ^ (field b 24 8 % 256) ≤ i → exec (.qputSlotWrite o.id) s = .next s) ∧
      (s.qputReady c o = true →
        ∃ s', exec (.qputSlotWrite o.id) s = .next s' ∧ ended s s' o c.t 0 0 0)) ∧
  (∀ (s : State) (o : Op) (c : Ctx) (dst core bank mode : Nat), s.op? o.id = some o → s.ctx? o.th = some c →
    o.kind = .carve dst core bank mode →
    (s.carveAhead o core = true ∨ s.tick < o.due ∨ s.carveHeld core bank = true →
      exec (.carveComplete (.insn o.id)) s = .next s) ∧
    (s.carveAhead o core = false → o.due ≤ s.tick → s.carveHeld core bank = false →
    let b := s.bank core bank
    let leaves := fun s' : State => exec (.carveComplete (.insn o.id)) s = .next (s'.carveStart core)
    let ends := fun st : Nat => ∃ s', leaves s' ∧ ended s s' o c.t dst 1 st ∧ s'.ms = s.ms
    (31 < bank → ends 1) ∧ (bank ≤ 31 → 2 < mode → ends 2) ∧
    (bank ≤ 31 → mode ≤ 2 → b.mode = .fifo → b.owner ≠ c.l.dev → ends 5) ∧
    (bank ≤ 31 → mode ≤ 2 → (b.mode = .fifo → b.owner = c.l.dev) →
      (b.mode = modeOf mode → ends 0) ∧
      (b.mode ≠ modeOf mode → b.mode = .scratch → s.bankUsed core bank = true → ends 3) ∧
      (b.mode ≠ modeOf mode → b.mode = .cache → (∀ j < 32, (s.bank core j).mode = .cache → j = bank) → ends 4) ∧
      (b.mode ≠ modeOf mode → (b.mode = .scratch → s.bankUsed core bank = false) →
        (b.mode = .cache → ∃ j < 32, j ≠ bank ∧ (s.bank core j).mode = .cache) →
        ∃ s' t', leaves s' ∧ s'.thread? o.th = some t' ∧
          (∀ r : Reg, t'.regs[r] = if r.val = dst then 0 else c.t.regs[r]) ∧ s'.op? o.id = none ∧
          s'.bank core bank = ⟨core, bank, modeOf mode, if mode = 2 then c.l.dev else 0, [], false⟩ ∧
          (∀ i j, (i, j) ≠ (core, bank) → s'.bank i j = s.bank i j) ∧
          (b.mode = .cache → ∀ x ∈ s'.ms.l1, s.ms.inBank core bank x = false))))) ∧
  ∀ (s : State) (dev core bank mode : Nat),
    let run := exec (.carveComplete (.firmware dev core bank mode)) s
    let b := s.bank core bank
    let ends := fun st : Nat => run = .next (s.send (.carved core bank st))
    (s.masterRuns 0 = false ∨ s.carving core = true ∨ s.carveHeld core bank = true → run = .next s) ∧
    (s.masterRuns 0 = true → s.carving core = false → s.carveHeld core bank = false →
      (s.vdExists dev = false ∨ s.corePart core ≠ some (s.vdPart dev) → ends 6) ∧
      (s.vdExists dev = true → s.corePart core = some (s.vdPart dev) →
        (31 < bank → ends 1) ∧ (bank ≤ 31 → 2 < mode → ends 2) ∧
        (bank ≤ 31 → mode ≤ 2 → b.mode = .fifo → b.owner ≠ dev → ends 5) ∧
        (bank ≤ 31 → mode ≤ 2 → (b.mode = .fifo → b.owner = dev) →
          (b.mode = modeOf mode → ends 0) ∧
          (b.mode ≠ modeOf mode → b.mode = .scratch → s.bankUsed core bank = true → ends 3) ∧
          (b.mode ≠ modeOf mode → b.mode = .cache → (∀ j < 32, (s.bank core j).mode = .cache → j = bank) → ends 4) ∧
          (b.mode ≠ modeOf mode → (b.mode = .scratch → s.bankUsed core bank = false) →
            (b.mode = .cache → ∃ j < 32, j ≠ bank ∧ (s.bank core j).mode = .cache) →
            ∃ s', run = .next s' ∧ .carved core bank 0 ∈ s'.outbox ∧
              s'.bank core bank = ⟨core, bank, modeOf mode, if mode = 2 then dev else 0, [], false⟩ ∧
              (∀ i j, (i, j) ≠ (core, bank) → s'.bank i j = s.bank i j) ∧
              (b.mode = .cache → ∀ x ∈ s'.ms.l1, s.ms.inBank core bank x = false)))))

/-- R288, R289, R368: COLL_CONTRIBUTION_READ reads BUF and sends the contribution to the root's package when the root is
elsewhere, or holds it while a quota does (R402); an acknowledgement, or its loss, frees the stage.  R369, R370: CONTRIBUTION_ARRIVAL counts a fresh contribution of a step,
holds a late one at most D steps old, and counts a duplicate or one that is too late; one that disagrees with the root's
descriptor is dropped with a fault record.  R369: STEP_TIMER closes the lowest open step of a live collective once Q
contributions or its timer allow it.  R371, R373: COLLECTIVE_RESULT is handled at each member, or held for one that has
no descriptor yet.  R437, R438: REPLAY_MISSING stops the collective, or closes the step and goes on, as POLICY says.  That what was held for a skipped
step is dropped is the model's reading (log entry 48). -/
def Obligations.CollectiveEvents : Prop :=
  (∀ (s s1 : State) (g : Stage), s.stage? g.id = some g → s.stageReady g = true →
    (∀ l, s.eread g.core g.desc.dev g.desc.buf (4 * g.desc.e) g.desc.level = (s1, .ok l) →
      let data := (List.range g.desc.e).map fun i => (BitVec.ofNat 32 (field l (4 * i) 4) : Word)
      let g' := fun sent => { g with data := data, read := true, sent := sent }
      (s.rootHere g.desc = true → ∃ s', exec (.collContributionRead g.id) s = .next s' ∧ s'.stage? g.id = some (g' false)) ∧
      (s.rootHere g.desc = false → ∃ s', exec (.collContributionRead g.id) s = .next s' ∧ s'.stage? g.id = some (g' true) ∧
        let a := s.peerAddr g.desc.job g.desc.root
        let m := Msg.contribution a.1 a.2 (g' true).message
        if s.msgHeld g.desc.dev a.1 then (g.desc.dev, a.1, m) ∈ s'.heldMsgs else m ∈ s'.outbox)) ∧
    ∀ f, s.eread g.core g.desc.dev g.desc.buf (4 * g.desc.e) g.desc.level = (s1, .error f) →
      ∃ s', exec (.collContributionRead g.id) s = .next s' ∧ s'.stage? g.id = none) ∧
  (∀ (s : State) (g : Stage), s.stage? g.id = some g → ∀ i ∈ [Instr.contributionAck g.id, .transportAbandon g.id],
    (g.sent = false → exec i s = .next s) ∧
    (s.unsent g = true → exec (.transportAbandon g.id) s = .next s) ∧
    (g.sent = true → s.unsent g = false →
      ((∀ x ∈ s.coll.stages, x.desc.job = g.desc.job → x.desc.cid = g.desc.cid → x.accepted = true) →
        exec i s = .next { s with coll := { s.coll with stages := s.coll.stages.filter fun x => x.id != g.id } }) ∧
      ∀ x, s.coll.stages.find? (fun x => !x.accepted && x.desc.job == g.desc.job && x.desc.cid == g.desc.cid) = some x →
        x.id ≠ g.id → (∀ y ∈ s.coll.stages, y.id = x.id → y = x) →
        ∃ s', exec i s = .next s' ∧ s'.stage? g.id = none ∧ s'.stage? x.id = some { x with accepted := true } ∧
          s'.op? x.op = none)) ∧
  (∀ (s : State) (c : Contribution) (r : Root), s.rootOf c.job c.cid = some r →
    (r.high + 8 < (c.step : Int) → exec (.contributionArrival c) s = .next s) ∧
    ((c.step : Int) ≤ r.high + 8 →
      let agrees := r.desc.q = c.q ∧ r.desc.t = c.t ∧ r.desc.d = c.d ∧ r.desc.k = c.k ∧ r.desc.mode = c.mode ∧
        r.desc.e = c.data.length
      let root := fun (s1 : State) (r' : Root) => ∃ b, s1.rootOf c.job c.cid = some { r' with stopped := b }
      let takes := fun r' : Root => ∃ s1 : State, root s1 r' ∧
        exec (.contributionArrival c) s = .next (s1.closeSteps c.job c.cid (r.opened.length + 2))
      let d := (r.high + 1 - (c.step : Int)).toNat
      let r1 := { r with seen := (c.member, c.step) :: r.seen }
      (¬agrees → ∃ s1 : State, root s1 { r with dups := min (r.dups + 1) 0xFFFFFFFF } ∧
        exec (.contributionArrival c) s = .next (s1.engineFault r.desc.dev r.desc.addr 3 7 c.cid 0x802)) ∧
      (agrees → (c.member, c.step) ∈ r.seen → takes { r with dups := min (r.dups + 1) 0xFFFFFFFF }) ∧
      (agrees → (c.member, c.step) ∉ r.seen →
        (r.high < (c.step : Int) → takes { r1 with
          opened := if ∃ e ∈ r.opened, e.1 = c.step then r.opened else r.opened ++ [(c.step, s.tick)]
          fresh := r.fresh ++ [⟨c.member, c.step, 0, c.data, s.tick⟩] }) ∧
        ((c.step : Int) ≤ r.high → d ≤ r.desc.d → takes { r1 with late := r.late ++ [⟨c.member, c.step, d, c.data, s.tick⟩] }) ∧
        ((c.step : Int) ≤ r.high → r.desc.d < d → takes { r1 with latedrop := min (r.latedrop + 1) 0xFFFFFFFF })))) ∧
  (∀ (s : State) (r : Root) (n opened : Nat), s.rootOf r.desc.job r.desc.cid = some r → r.desc.cid < 2 ^ 32 →
    r.high < 2 ^ 32 - 1 → s.replays r = false → (n, opened) ∈ r.opened → (∀ e ∈ r.opened, e = (n, opened) ∨ n < e.1) →
    let count := r.fresh.countP fun e => e.step == n
    let timer := r.desc.t ≠ 0 ∧ opened + r.desc.t * 1024 ≤ s.tick
    let run := exec (.stepTimer (collName r.desc.job r.desc.cid)) s
    (count < r.desc.q → ¬timer → run = .next s) ∧
    (r.desc.q ≤ count ∨ timer → ∃ s' r', run = .next s' ∧ s'.rootOf r.desc.job r.desc.cid = some r' ∧ r'.high = n ∧
      r'.late = [] ∧ (∀ e, e ∈ r'.opened ↔ e ∈ r.opened ∧ n < e.1) ∧ (∀ e, e ∈ r'.fresh ↔ e ∈ r.fresh ∧ n < e.step) ∧
      ∃ x : StepResult, x.step = n ∧ x.ctick = s.tick ∧ x.cause = (if r.desc.q ≤ count then 0 else 1) ∧
        x.dups = r.dups ∧ ∀ p ∈ s.peerPackages r.desc.job, let m := Msg.result p.1 p.2 x
          if s.msgHeld r.desc.dev p.1 then (r.desc.dev, p.1, m) ∈ s'.heldMsgs else m ∈ s'.outbox)) ∧
  (∀ (s : State) (r : StepResult) (m : Nat), s.members r.job = [m] →
    (∀ d, s.resultDesc m r = some d →
      exec (.collectiveResult r) s = .next ((s.writeRecord d r).submitResult d.entry r.step r.data)) ∧
    (s.resultDesc m r = none →
      (s.coll.results.filter fun x => x.1 == m && x.2.job == r.job && x.2.cid == r.cid).length < 8 →
      exec (.collectiveResult r) s = .next { s with coll := { s.coll with results := s.coll.results ++ [(m, r)] } })) ∧
  ∀ (s : State) (r : Root) (names : List (Nat × Nat)) (check : Nat), s.rootOf r.desc.job r.desc.cid = some r →
    r.desc.cid < 2 ^ 32 → s.missing r = some (names, check) →
    let n := (r.high + 1).toNat
    ∃ s' r', exec (.replayMissing (collName r.desc.job r.desc.cid)) s = .next s' ∧
      s'.rootOf r.desc.job r.desc.cid = some r' ∧
      ((s.parting r n 2 check 0).goesOn r = false → r' = { r with stopped := true }) ∧
      ((s.parting r n 2 check 0).goesOn r = true → r'.high = n)

/-! ## Steps of the package: host, fabric, firmware, power -/

/-- R286, R397: a write-back in time, or for a host's snoop, takes the dirty bytes of a line to their point of coherence
and keeps every other byte; bytes that the fabric holds at the source stay (R392, R402).  R398, R410: a host access reads or writes the bytes it names, meets ones in reserved
ranges, and is aborted on poison or when the device it goes through is not served; through a virtual function's BAR0 it meets
that function's doorbells and registers, and nothing else (R399).  R388, R391, R393: a member's request
that no export window admits is refused, and one that comes too late is not performed.  R391: a request fails at
REMOTE_DEADLINE, once its deadline has passed and not before, on a plane that dies too.  R390, R392: a plane that goes
down or up changes its PLIVE bit and nothing else, and a PLMAP write takes effect when the old planes' requests have
resolved.  R5: a register write leaves fields that are not writable.  R405: later walks see a write of ROOT.  R415: a
Penen master's host write outside every HCEIL range, and a PCAP above PCAPMAX, freeze it.  R249: a soft error poisons
what it strikes; it drops a clean line of an L1 or of the memory-side cache and poisons a granule of a dirty one, drops a
record of a die's layout cache, and a corrected error is counted.  The model's own are what a soft error strikes (log
entry 54), what a failed write has done (log entries 21 and 70), a second PLMAP write (log entry 50), host writes that lie
in no one register (log entry 75), who writes a device's block (log entry 95), what a powered-off segment reads as (log
entry 96), that a host access may take every way of the memory-side cache (log entry 105), and where a Penen master
writes PCAP and host memory (log entry 53). -/
def Obligations.HostAndFabricEvents : Prop :=
  (∀ (s : State) (line core : Nat) (i : Instr) (mine : L1Byte → Prop), s.memWf = true → s.l1Wf →
    (i = .dirtyWriteback core line ∧ (∀ b, mine b ↔ b.core = core ∧ lineOf b.key = line)) ∨
      (∃ hpa inval, i = .hostSnoop hpa inval ∧ ∀ b, mine b ↔ lineOf b.key = lineOf (0x1000000000000 + hpa)) →
    (∀ a ∈ s.ms.l1, ∀ b ∈ s.ms.l1, mine a → mine b → a.dirty = true → b.dirty = true → a.key = b.key → a = b) →
    (∀ b ∈ s.ms.l1, mine b → isRemote b.key = false) →
    ∃ s' : State, exec i s = .next s' ∧ (∀ b ∈ s'.ms.l1, mine b → b.dirty = false) ∧
      (∀ b ∈ s.ms.l1, mine b → b.dirty = true → s'.byteAt b.key = b.val) ∧
      (∀ k, (∀ b ∈ s.ms.l1, mine b → b.dirty = true → b.key ≠ k) → s'.byteAt k = s.byteAt k) ∧
      (∀ b ∈ s.ms.l1, ¬mine b → b ∈ s'.ms.l1) ∧ (∀ hpa, i = .hostSnoop hpa true → ∀ b ∈ s'.ms.l1, ¬mine b) ∧
      { s' with ms := s.ms } = s) ∧
  (∀ (s : State) (core line : Nat), ∃ s' : State, exec (.dirtyWriteback core line) s = .next s' ∧
    ∀ b ∈ s.ms.l1, s.engineHeld b.dev b.key = true → b ∈ s'.ms.l1) ∧
  (∀ (s : State) (vd off n v : Nat), vd < 1024 →
    let tells := fun (s : State) (m : Msg) => ({ s with outbox := m :: s.outbox } : State)
    let at' := off % 65536
    let reads := exec (.hostAccess (.vf vd off) n none) s
    let writes := exec (.hostAccess (.vf vd off) n (some v)) s
    (0x8100 ≤ at' → reads = .next (tells s (.hostData n 0)) ∧ writes = .next (tells s .hostDone)) ∧
    (∀ k < 0x100, at' = 0x8000 + k → reads = .next (tells s (.hostData n (s.mgmtBytes (some vd) .s (vdOff vd k) n)))) ∧
    (∀ q, at' = 8 * q → q < 4096 → n = 4 ∨ n = 8 → writes = .next (tells (s.kick vd q (v % 2 ^ 32)) .hostDone)) ∧
    (at' < 0x8000 → at' % 8 ≠ 0 → writes = .next (tells s .hostDone))) ∧
  (∀ (s : State) (pa n v : Nat), s.memWf = true →
    let same := fun s0 : State => ({ s0 with ms := { s0.ms with msc := s.ms.msc } } : State) = s
    let tells := fun (s' : State) (m : Msg) => ({ s' with outbox := m :: s.outbox } : State)
    let bytes := (List.range n).map fun k => s.byteAt (pa + k)
    (isMgmt pa = false → pa < 0x80000000000 → s.poweredOff pa = true →
      (∃ x, exec (.hostAccess (.pf pa) n none) s = .next (tells s (.hostData n x))) ∧
      exec (.hostAccess (.pf pa) n (some v)) s = .next (tells s .hostDone)) ∧
    (isMgmt pa = false → pa < 0x80000000000 → s.poweredOff pa = false → reservedPa pa = true →
      exec (.hostAccess (.pf pa) n none) s = .next (tells s (.hostData n (2 ^ (8 * n) - 1))) ∧
      exec (.hostAccess (.pf pa) n (some v)) s = .next (tells s .hostDone)) ∧
    (isMgmt pa = false → pa < 0x80000000000 → s.poweredOff pa = false → reservedPa pa = false →
      (∃ s0, same s0 ∧
        (s.ms.poisoned pa n = true → exec (.hostAccess (.pf pa) n none) s = .next (tells s0 (.hostAbort n))) ∧
        (s.ms.poisoned pa n = false →
          exec (.hostAccess (.pf pa) n none) s = .next (tells s0 (.hostData n (ofBytes bytes))))) ∧
      ∃ s', exec (.hostAccess (.pf pa) n (some v)) s = .next (tells s' .hostDone) ∧
        ∀ a, s'.byteAt a = if pa ≤ a ∧ a < pa + n then BitVec.ofNat 8 (v / 2 ^ (8 * (a - pa))) else s.byteAt a) ∧
    (isMgmt pa = true → exec (.hostAccess (.pf pa) n none) s =
      .next (tells s (.hostData n (s.mgmtBytes none .f (pa - mgmtBase) n)))) ∧
    ∀ src late r, (late = true → exec (.podRemoteRequest src pa r late) s = .next s) ∧
      (late = false → s.remoteOk src pa r = false →
        exec (.podRemoteRequest src pa r late) s = .next (tells s (.remoteRefused src))) ∧
      (late = false → s.remoteOk src pa r = true →
        (r = .load n → ∃ s0, same s0 ∧
          exec (.podRemoteRequest src pa r late) s = .next (tells s0 (.remoteData src n (ofBytes bytes)))) ∧
        (r = .store n v → ∃ s', exec (.podRemoteRequest src pa r late) s = .next (tells s' (.remoteDone src)) ∧
          ∀ a, s'.byteAt a = if pa ≤ a ∧ a < pa + n then BitVec.ofNat 8 (v / 2 ^ (8 * (a - pa))) else s.byteAt a))) ∧
  (∀ (s : State) (vd off n : Nat),
    let va := s.regField (vdOff vd 0x58) 55 0 + off % 2 ^ 36
    (s.memServed vd = false → ∀ wr, exec (.hostBar2Access vd off n wr) s =
      .next { s with outbox := .hostAbort n :: s.outbox }) ∧
    (s.memServed vd = true →
      (s.vheld vd va n .read .s = true → exec (.hostBar2Access vd off n none) s =
        .next { s with heldHost := s.heldHost ++ [(vd, off, n)] }) ∧
      (∀ l, s.vheld vd va n .read .s = false → s.vread vd va n .s = .ok l → exec (.hostBar2Access vd off n none) s =
        .next { s with outbox := .hostData n (ofBytes l) :: s.outbox }) ∧
      ∀ v s1, s.vwrite vd va (toBytes n v) .s = (s1, none) → exec (.hostBar2Access vd off n (some v)) s =
        .next { s1 with outbox := .hostDone :: s1.outbox })) ∧
  (∀ (s : State) (o : Op) (c : Ctx) (d : Nat), s.op? o.id = some o → s.ctx? o.th = some c → o.deadline = some d →
    o.held = false → s.inOrder o = true →
    (s.tick < d → exec (.remoteDeadline o.id) s = .next s) ∧
    (d ≤ s.tick → (∀ key l1, o.kind ≠ .prefetch key l1) → ∃ s' t', exec (.remoteDeadline o.id) s = .next s' ∧ s'.thread? o.th = some t' ∧
      t'.fails = c.t.fails ++ [⟨o.id, o.word, true, o.handler, none⟩] ∧ t'.regs = c.t.regs ∧ t'.pc = c.t.pc ∧
      (∀ r ∈ o.kind.dests, r < 128 → t'.poison.getLsbD r = true) ∧ s'.op? o.id = none ∧
      (o.kind.access? = none ∨ (∃ dst n ext loc acq, o.kind = .load dst n ext loc acq) →
        s'.reg 0x70000020 = s.reg 0x70000020 + BitVec.ofNat 64 (s.failCount o)))) ∧
  (∀ (s : State) (p : Fin 8) (up : Bool) (i : Instr), i = (if up then .planeUp p.val else .planeDown p.val) →
    ∃ s' : State, exec i s = .next s' ∧ (∀ k < 64, (s'.reg 0x70000010).getLsbD k =
        if k = p.val then up else (s.reg 0x70000010).getLsbD k) ∧
      s.keepsRegs s' [0x70000010] ∧ { s' with mgmt := s.mgmt } = s) ∧
  (∀ (s : State) (v : BitVec 24) (w : PlanePending),
    (s.pending = none → ∃ l, exec (.plmapWrite v) s = .next { s with pending := some ⟨v, l⟩ } ∧
      ∀ k, k ∈ l ↔ ∃ o ∈ s.ops, o.id = k ∧ o.held = false ∧ ∃ p ∈ o.planes,
        ∃ n < 8, s.planeOf n = p ∧ bits v.toNat (3 * n + 2) (3 * n) ≠ p) ∧
    (s.pending = some w →
      ((∃ o ∈ s.ops, o.id ∈ w.waits) → exec .plmapEffect s = .next s) ∧
      ((∀ o ∈ s.ops, o.id ∉ w.waits) → ∃ s', exec .plmapEffect s = .next s' ∧ s'.pending = none ∧
        s'.reg 0x70000008 = w.value.setWidth 64 ∧ s'.threads = s.threads ∧
        (s.heldWrites = [] → s.heldHost = [] → s'.ms = s.ms ∧ s.keepsRegs s' [0x70000008]) ∧
        ∀ o ∈ s.ops, o.held = true → o.planes ≠ [] → ∀ c, s.ctx? o.th = some c → s.noQuota c.l.dev = false →
          ∃ x ∈ s'.ops, x.id = o.id ∧ x.held = false))) ∧
  (∀ (s : State) (v : DWord) (vd : Nat), vd < 1024 →
    let root := vdOff vd 0x10
    (∃ s', exec (.registerWrite .pf (mgmtBase + 0xA0003000) v) s = .next s' ∧ s'.reg 0xA0003000 = v ∧
      s.keepsRegs s' [0xA0003000]) ∧
    (∀ who : Agent, who = .vf vd ∨ who = .pf ∨ (∃ m, agentMaster who = some m ∧ s.masterRuns m = true) →
      ∃ s' : State, exec (.registerWrite who (mgmtBase + root) v) s = .next s' ∧
        (∀ k < 64, (s'.reg root).getLsbD k = if 12 ≤ k ∧ k ≤ 55 then v.getLsbD k else (s.reg root).getLsbD k) ∧
        s.keepsRegs s' [root] ∧ ∀ e, e ∈ s'.ms.walker ↔ e ∈ s.ms.walker ∧ e.dev ≠ vd) ∧
    (∀ d < 1024, d ≠ vd → exec (.registerWrite (.vf d) (mgmtBase + root) v) s = .next s) ∧
    (∀ who pa, agentMaster who = none → isMgmt pa = false ∨ pa % 8 ≠ 0 → exec (.registerWrite who pa v) s = .next s) ∧
    ∀ who m pa, agentMaster who = some m →
      let broken := fun (i : Instr) (kind : Nat) => ∃ s' : State, exec i s = .next s' ∧ m ∈ s'.penen.frozen ∧
        bits (s'.reg 0xA0000040).toNat 3 0 = m ∧ bits (s'.reg 0xA0000040).toNat 7 4 = kind ∧ .msix 0 ∈ s'.outbox ∧
        s.keepsRegs s' [0xA0000040]
      (s.masterRuns m = false → exec (.registerWrite who pa v) s = .next s) ∧
      (isMgmt pa = false → isHost pa = false ∨ pa % 8 ≠ 0 → exec (.registerWrite who pa v) s = .next s) ∧
      (s.masterRuns m = true → isHost pa = true → pa % 8 = 0 →
        let a := pa - 0x1000000000000
        (s.inHceil a (a + 7) = false → broken (.registerWrite who pa v) 1) ∧
        (s.inHceil a (a + 7) = true → s.memWf = true → ∃ s' : State, exec (.registerWrite who pa v) s = .next s' ∧
          ∀ k, s'.byteAt k = if pa ≤ k ∧ k < pa + 8 then BitVec.ofNat 8 (v.toNat / 2 ^ (8 * (k - pa))) else s.byteAt k)) ∧
      (s.masterRuns m = true →
        let cap := bits v.toNat 31 26
        let write := Instr.registerWrite who (mgmtBase + 0xA0002008) v
        (s.regField 0xA0000000 5 0 < cap → broken write 4) ∧
        (20 ≤ cap → cap ≤ s.regField 0xA0000000 5 0 →
          exec write s = .next { s with power := { s.power with pcap := cap } }))) ∧
  ∀ (s : State) (t : Thread) (r : Reg) (tm : Team) (g pa : Nat),
    (s.thread? t.id = some t → r.val < t.alloc → ∃ s' t', exec (.uncorrectableError (.reg t.id r)) s = .next s' ∧
      s'.thread? t.id = some t' ∧ (∀ k < 128, t'.poison.getLsbD k = (decide (k = r.val) || t.poison.getLsbD k)) ∧
      { t' with poison := t.poison } = t) ∧
    (s.team? tm.id = some tm → 16 * g < 4096 * tm.scr → ∃ s' tm', exec (.uncorrectableError (.scratch tm.id g)) s = .next s' ∧
      s'.team? tm.id = some tm' ∧ (∀ x, x ∈ tm'.scrPoison ↔ x ∈ tm.scrPoison ∨ x = g) ∧
      { tm' with scrPoison := tm.scrPoison } = tm) ∧
    (nearOrFar pa = true → reservedPa pa = false → ∃ s' : State, exec (.uncorrectableError (.granule pa)) s = .next s' ∧
      (∀ x, x ∈ s'.ms.poison ↔ x ∈ s.ms.poison ∨ x = pa / 16) ∧
      { s' with ms := { s'.ms with poison := s.ms.poison } } = s) ∧
    exec (.uncorrectableError .corrected) s = .next { s with corrected := s.corrected + 1 } ∧
    (∀ die, ∃ s' : State, exec (.uncorrectableError (.layoutDie die)) s = .next s' ∧
      let mine := fun e : LayoutRec => e.core = none ∧ e.die = die
      (∀ e ∈ s'.ms.layout, e ∈ s.ms.layout) ∧ (∀ e ∈ s.ms.layout, ¬mine e → e ∈ s'.ms.layout) ∧
      ((∃ e ∈ s.ms.layout, mine e) → ∃ e ∈ s.ms.layout, mine e ∧ e ∉ s'.ms.layout)) ∧
    (∀ x, s.ms.msc.find? (fun l => l.line == lineOf pa) = some x →
      ∃ s' : State, exec (.uncorrectableError (.msc pa)) s = .next s' ∧ s'.ms.mem = s.ms.mem ∧ s'.ms.l1 = s.ms.l1 ∧
        (x.dirty = false → (∀ l ∈ s'.ms.msc, l.line ≠ lineOf pa) ∧ s'.ms.poison = s.ms.poison) ∧
        (x.dirty = true → s'.ms.msc = s.ms.msc ∧ ∀ g, g ∈ s'.ms.poison ↔ g ∈ s.ms.poison ∨ g = pa / 16)) ∧
    ∀ core key, ∃ s' : State, exec (.uncorrectableError (.l1 core key)) s = .next s' ∧
      let mine := fun b : L1Byte => b.core = core ∧ lineOf b.key = lineOf key
      ((∀ b ∈ s.ms.l1, mine b → b.dirty = false) → ∀ b, b ∈ s'.ms.l1 ↔ b ∈ s.ms.l1 ∧ ¬mine b) ∧
      ((∃ b ∈ s.ms.l1, mine b ∧ b.dirty = true) →
        ∀ b ∈ s.ms.l1, b.core = core → b.key / 16 = key / 16 → { b with bad := true } ∈ s'.ms.l1)

/-- R412 to R415: a well-formed command in the mailbox runs, and STATUS says 2 when it is done and 4 when its condition
fails; MAILBOX_REFUSED answers one that is not well formed with 3.  R401: PARTITION_WRITE sets the writable fields of a
partition's registers.  R404, R405: VDEV_CREATE makes a device ACTIVE in its partition and class, and VDEV_DESTROY
freezes its teams, waits for its launches to end, and ends it.  R418 to R422: STAGE_IMAGE puts an image that passes into the inactive bank, HANDOVER restarts in
that bank when the image takes the state block's version, HOK confirms, and HANDOVER_TIMEOUT goes back to the old bank.
R421: a new image that finds the block wrong does not confirm.  R419: ATTEST writes its report to host memory.  R423:
SET_PCAP sets the cap.  R324: REGISTER_PF_QUEUE registers queue 0 of the physical function.  R416: PENRST restarts every
master.  Nothing runs without an image (R418).  The layout of the report and what checks an image are the model's (log
entry 15), as are when a command is read (log entry 51), which save area a device gets (log entry 13), and that a
destroyed device's teams stop as a freeze stops them, under a reason of their own (log entries 63 and 76). -/
def Obligations.MailboxEvents : Prop :=
  (∀ (s : State) (l : List Byte),
    let fails := fun i : Instr => ∃ s', exec i s = .next s' ∧ s'.replied 4 0 ∧ s.keepsRegs s' [0xA0001010, 0xA0001018] ∧
      s'.ms = s.ms ∧ s'.threads = s.threads
    let works := fun (i : Instr) (r : DWord) (p : State → Prop) => ∃ s', exec i s = .next s' ∧ s'.replied 2 r ∧ p s'
    (s.penen.command = some l → s.masterRuns 0 = true → s.commandOk l = false →
      ∃ s', exec .mailboxRefused s = .next s' ∧ s'.replied 3 0 ∧ s.keepsRegs s' [0xA0001010, 0xA0001018]) ∧
    (s.Commands l 0x01 →
      let p := field l 8 1
      let image := s.hostRead (field l 16 8) 64
      (s.partRefused p image = true → fails .partitionWrite) ∧
      (s.partRefused p image = false → works .partitionWrite 0 fun s' =>
        (∀ k < 8, s'.reg (partOff p + 8 * k) = BitVec.ofNat 64 (field image (8 * k) 8 &&& partMask k)) ∧
        s.keepsRegs s' ([0xA0001010, 0xA0001018] ++ (List.range 8).map fun k => partOff p + 8 * k))) ∧
    (s.Commands l 0x02 →
      let vd := field l 8 2
      (s.createRefused vd (field l 10 1) (field l 11 1) = true → fails .vdevCreate) ∧
      (s.createRefused vd (field l 10 1) (field l 11 1) = false → ∃ r, works .vdevCreate r fun s' =>
        s'.vdExists vd = true ∧ s'.vdState vd = 1 ∧ s'.vdPart vd = field l 10 1 ∧ s'.vdClass vd = field l 11 1 ∧
        s'.reg (vdOff vd 0x50) = r ∧ s'.reg (vdOff vd 0x10) = 0 ∧ s'.reg (vdOff vd 0x18) = 0)) ∧
    (s.Commands l 0x03 →
      let vd := field l 8 2
      (s.vdExists vd = false → fails .vdevDestroy) ∧
      (s.vdExists vd = true → s.destroyBegins vd = true → ∃ s' : State, exec .vdevDestroy s = .next s' ∧
        s'.penen.ending = some vd ∧ s'.penen.command = some l ∧
        (∀ p ∈ s'.front.placements, ∀ k ∈ s.launches, k.id = p.launch → k.dev ≠ vd) ∧
        ∀ tm k, s.team? tm.id = some tm → s.launch? tm.launch = some k → k.dev = vd →
          tm.phase = .running ∨ tm.phase = .preempting → s'.team? tm.id = some { tm with phase := .freezing 3 0 }) ∧
      (s.vdExists vd = true → s.destroyBegins vd = false → s.destroyWaits vd = true → exec .vdevDestroy s = .next s) ∧
      (s.vdExists vd = true → s.destroyBegins vd = false → s.destroyWaits vd = false → works .vdevDestroy 0 fun s' =>
        s'.vdExists vd = false ∧ (∀ k ∈ s'.launches, k.dev ≠ vd) ∧ (∀ q ∈ s'.front.queues, q.dev ≠ vd) ∧
        (∀ v ∈ s'.saved, v.dev ≠ vd) ∧ ∀ b ∈ s'.ms.l1, b.dev ≠ vd)) ∧
    (s.Commands l 0x04 → s.memWf = true →
      let nonce := (l.drop 8).take 32
      let parts := s.attestation nonce
      let report := (parts ++ Config.identitySign (Config.sm3 parts)).take 4096
      (works .attest (BitVec.ofNat 64 report.length) fun s' =>
        s'.pocRead (0x1000000000000 + field l 40 8) report.length = report) ∧
      parts.take 32 = nonce ∧ ∃ before, before.length = 176 ∧
        parts = before ++ (toBytes 8 (s.reg 0xA0000000).toNat ++ toBytes 8 (s.reg 0xA0000008).toNat ++
          (List.range 32).flatMap fun k => toBytes 8 (s.reg (0xA0000100 + 8 * k)).toNat)) ∧
    (s.Commands l 0x05 →
      let data := s.hostRead (field l 8 8) (field l 16 4)
      (imageOk data = false → fails .stageImage) ∧
      (imageOk data = true → works .stageImage (BitVec.ofNat 64 (field data 4 4)) fun s' =>
        s'.penen.image (!s.penen.bank) = some ⟨field data 4 4, field data 8 2, field data 10 2, (data.drop 16).take 32⟩ ∧
        s'.penen.image s.penen.bank = s.penen.image s.penen.bank ∧ s'.penen.bank = s.penen.bank)) ∧
    (s.Commands l 0x06 →
      let block := stateBlock (s.regField 0xA0004018 4 0 * 65536) (Config.stateBlock s.freeCount)
      let version := field block 0 2
      (s.penen.image (!s.penen.bank) = none → fails .handover) ∧
      ∀ i, s.penen.image (!s.penen.bank) = some i →
        (version < i.lo ∨ i.hi < version → fails .handover) ∧
        (i.lo ≤ version → version ≤ i.hi → works .handover (BitVec.ofNat 64 version) fun s' =>
          s'.penen.bank = !s.penen.bank ∧ s'.penen.handover = some s.tick ∧ s'.penen.hok = false ∧
          s'.penen.frozen = [] ∧ s'.penen.fallback = false)) ∧
    (s.Commands l 0x07 →
      let cap := field l 8 1
      let ceil := s.regField 0xA0000000 5 0
      (cap < 20 ∨ ceil < cap → fails .setPcap) ∧
      (20 ≤ cap → cap ≤ ceil → works .setPcap (BitVec.ofNat 64 cap) fun s' =>
        s'.power = { s.power with pcap := cap })) ∧
    (s.Commands l 0x08 →
      let a := field l 8 8
      let block := s.pocRead a 64
      ((s.queueOf 1024 0).isSome = true ∨ s.ms.poisoned a 64 = true ∨ blockBad block = true → fails .registerPfQueue) ∧
      (s.queueOf 1024 0 = none → s.ms.poisoned a 64 = false → blockBad block = false →
        works .registerPfQueue 0 fun s' => s'.front.queues = s.front.queues ++ [⟨s.nextId, 1024, 0, a, field block 16 8,
          field block 24 8, 7, true, BitVec.ofNat 32 (field block 8 8), field block 8 8, .idle⟩]))) ∧
  ∀ s : State, s.penen.heldWakes = [] →
    (exec .penrst s = .next { s with penen := { s.penen with frozen := [] } }) ∧
    (s.masterRuns 0 = true → s.penen.handover = none ∨ s.blockGood = true →
      exec .hok s = .next { s with penen := { s.penen with hok := true, handover := none } }) ∧
    (s.masterRuns 0 = true → s.penen.handover ≠ none → s.blockGood = false → exec .hok s = .next s) ∧
    (s.masterRuns 0 = false → exec .hok s = .next s) ∧
    (let a := s.regField 0xA0004010 49 16 * 65536
      let head := s.pocRead a 64
      s.blockGood = true ↔ ∃ i, s.penen.image s.penen.bank = some i ∧ i.lo ≤ field head 0 2 ∧ field head 0 2 ≤ i.hi ∧
        Config.sm3 (s.pocRead (a + 64) (field head 4 4 - 64)) = (head.drop 8).take 32) ∧
    ∀ t, s.penen.handover = some t →
      (s.tick < t + 125000000 → s.penen.frozen = [] → exec .handoverTimeout s = .next s) ∧
      (t + 125000000 ≤ s.tick ∨ s.penen.frozen ≠ [] → ∃ s' : State, exec .handoverTimeout s = .next s' ∧
        s'.penen = { s.penen with bank := !s.penen.bank, frozen := [], handover := none, fallback := true, hok := false } ∧
        bits (s'.reg 0xA0000040).toNat 7 4 = 5 ∧ s.keepsRegs s' [0xA0000040])

/-- R406, R407, R409: a Lull request collapses an ACTIVE device, whose running teams stop, and so does IDLE_TIMEOUT;
COLLAPSE_COMPLETE writes its FIFO banks to its save area and its dirty bytes back, and gives a W3 or W4 partition its
place in the Lull reserve; a wake write wakes a device that collapses or is in Lull, and
WAKE_COMPLETE makes it ACTIVE.  R423, R427: POWER_CONTROL moves the throttle step by one, and a trip forces it to 7
until both trips clear below 100 °C; TEMP is the temperature measured (R424).  R426: RAMP_STEP moves a core's level by
one, up again when a product is asked for.  R428: ENERGY_UPDATE divides a core's energy by issued cycles and a die's by
line traffic.  R435: STOP_TICK sets STOPPED.  R13: PACKAGE_RESET leaves no thread and every register at its reset value; that
memory keeps its bytes and poison there is the model's choice (log entry 52).  So are what a sensor measures and how
a share is rounded (log entry 16), when a level falls (log entry 58), that a device idle for longer than a new IDLET
collapses at once (log entry 60), and how FIFO banks and the Lull reserve are laid out (log entry 96). -/
def Obligations.PowerAndLullEvents : Prop :=
  (∀ (s : State) (vd : Nat), s.vdExists vd = true →
    let stops := fun (s' : State) => s'.vdState vd = 2 ∧ s.keepsRegs s' [vdOff vd 0] ∧ s'.threads = s.threads ∧ s'.ms = s.ms ∧
      ∀ tm l, s.team? tm.id = some tm → s.launch? tm.launch = some l → l.dev = vd → tm.phase = .running →
        s'.team? tm.id = some { tm with phase := .preempting }
    (s.vdState vd = 1 → ∃ s', exec (.lullRequest vd) s = .next s' ∧ stops s') ∧
    (s.vdState vd ≠ 1 → exec (.lullRequest vd) s = .next s) ∧
    (s.idleLong vd = true → ∃ s', exec (.idleTimeout vd) s = .next s' ∧ stops s') ∧
    (s.idleLong vd = false → exec (.idleTimeout vd) s = .next s) ∧
    (s.collapsed vd = true → s.memWf = true → ∃ s' : State, exec (.collapseComplete vd) s = .next s' ∧ s'.vdState vd = 3 ∧
      (∀ b ∈ s'.ms.l1, b.dev = vd → b.dirty = false) ∧ s'.threads = s.threads ∧
      (∀ core bank, (s.bank core bank).mode = .fifo → (s.bank core bank).owner = vd → s.bank core bank ∈ s.ms.banks →
        (s.ms.banks.map fun b => (b.core, b.num)).Nodup → (s'.bank core bank).fifo = []) ∧
      (s.partAsleep vd = true → 2 ≤ s.vdClass vd → ∃ o, (s'.lullOf vd).reserve = some o) ∧
      (s.partAsleep vd = false ∨ s.vdClass vd < 2 →
        let image := (s.fifoBanks vd).flatMap Bank.image
        let base := s.regField (vdOff vd 0x50) 49 0 + s.saveOff vd
        (∀ b ∈ s.ms.l1, b.dev = vd → b.dirty = true → isRemote b.key = false →
          (∀ x ∈ s.ms.l1, x.dev = vd → x.dirty = true → x.key = b.key → x = b) → s'.byteAt b.key = b.val) ∧
        ∀ k, (∀ b ∈ s.ms.l1, b.dev = vd → b.dirty = true → b.key ≠ k) →
          s'.byteAt k = if base ≤ k ∧ k < base + image.length then image[k - base]?.getD 0 else s.byteAt k)) ∧
    (s.wakesHeld = true → exec (.wakeWrite vd) s =
      .next { s with penen := { s.penen with heldWakes := s.penen.heldWakes ++ [(vd, s.tick)] } }) ∧
    (s.wakesHeld = false → s.vdState vd = 2 ∨ s.vdState vd = 3 → ∃ s', exec (.wakeWrite vd) s = .next s' ∧
      s'.vdState vd = 4 ∧ s.keepsRegs s' [vdOff vd 0] ∧ (s'.lullOf vd).wakeTick = s.tick ∧ s'.threads = s.threads) ∧
    (s.woken vd = true → ∃ s1 : State, exec (.wakeComplete vd) s = .next ((s1.post vd true 0x0B 0 0x0807
        (toBytes 8 (s.lullOf vd).wakeTick ++ toBytes 8 s.tick)).flushResults) ∧ s1.vdState vd = 1 ∧
      s.keepsRegs s1 [vdOff vd 0] ∧ s1.threads = s.threads ∧ s1.ms.mem = s.ms.mem)) ∧
  (∀ (s : State) (mean temp : Nat),
    let p := s.power
    let to' := fun step => exec (.powerControl mean) s = .next { s with power := { p with mean := mean, step := step } }
    (p.trip1 = true → to' 7) ∧
    (p.trip1 = false → (50 * p.pcap < mean → to' (min 7 (p.step + 1))) ∧ (10 * mean < 450 * p.pcap → to' (p.step - 1)) ∧
      (mean ≤ 50 * p.pcap → 450 * p.pcap ≤ 10 * mean → to' p.step)) ∧
    let measured := fun q : Power =>
      exec (.thermalTrip temp) s = .next { s with power := q } ∧ exec (.tripClear temp) s = .next { s with power := q }
    (temp < 100 → measured { p with temp := temp, trip1 := false, trip2 := false }) ∧
    (100 ≤ temp → temp < 105 → measured { p with temp := temp }) ∧
    (105 ≤ temp → measured { p with temp := temp, trip1 := true, trip2 := p.trip2 || decide (115 ≤ temp), step := 7 })) ∧
  (∀ (s : State) (r : Ramp), s.ramp? r.core = some r →
    let at' := fun n => exec (.rampStep r.core) s = .next (s.setRamp { r with level := n, lastMove := s.tick })
    let last := max r.lastIssue r.asked
    let up := 0 < r.level ∧ r.level < 8 ∧ s.tick < last + 1250 ∧ r.lastMove + s.rampInterval / 8 ≤ s.tick
    let down := 0 < r.level ∧ max r.lastMove (last + 1250) + s.rampInterval / 8 ≤ s.tick
    (up → at' (r.level + 1)) ∧ (down → at' (r.level - 1)) ∧ (¬up → ¬down → exec (.rampStep r.core) s = .next s)) ∧
  (∀ (s : State) (l : Launch) (at' e n : Nat) (used : List (Nat × Nat × Nat)) (i : Instr), s.launch? l.id = some l →
    (i = .energyUpdate ⟨[(at', e)], []⟩ [] ∧ used = s.power.cycles) ∨ (i = .energyUpdate ⟨[], [(at', e)]⟩ [] ∧ used = s.power.lines) →
    let here := used.filter fun x => x.1 == at'
    (here.map fun x => x.2.1).Nodup → (at', l.id, n) ∈ used →
    ∃ s', exec i s = .next s' ∧ s'.power.cycles = [] ∧ s'.power.lines = [] ∧
      s'.launch? l.id = some { l with energy := l.energy + BitVec.ofNat 64 (e * n / (here.map fun x => x.2.2).sum) }) ∧
  (∀ (s : State) (vd e : Nat), s.vdState vd = 3 → ∃ s' : State, exec (.energyUpdate ⟨[], []⟩ [(vd, e)]) s = .next s' ∧
    s'.power.lullEnergy.lookup vd = some ((s.power.lullEnergy.lookup vd).getD 0 + BitVec.ofNat 64 e)) ∧
  (∀ s : State, (s.halt = false → exec .stopTick s = .next s) ∧
    (s.halt = true → ∃ s' : State, exec .stopTick s = .next s' ∧ s'.halt = false ∧ bit (s'.reg 0xA0003008).toNat 1 = true ∧
      s.keepsRegs s' [0xA0003008] ∧ { s' with mgmt := s.mgmt, halt := true } = s)) ∧
  ∀ s : State, ∃ s' : State, exec .packageReset s = .next s' ∧ s'.threads = [] ∧ s'.teams = [] ∧ s'.launches = [] ∧
    s'.saved = [] ∧ s'.ops = [] ∧ s'.mgmt = [] ∧ s'.tick = 0 ∧ s'.ms.l1 = [] ∧ s'.ms.tlb = [] ∧ s'.ver = State.reset.ver ∧
    s'.front = State.reset.front ∧ s'.coll = State.reset.coll ∧ s'.eng = State.reset.eng ∧ s'.power = State.reset.power ∧
    s'.penen = { State.reset.penen with image0 := s.penen.image0, image1 := s.penen.image1 } ∧ s'.ms.mem = s.ms.mem ∧ s'.ms.poison = s.ms.poison

/-! ## Words, steps and the machine as a whole -/

/-- Words of the spec's own examples decode to the instructions that the spec writes beside them. -/
def Obligations.DecodeExamples : Prop :=
  decodeTableWord 32 0x044070E0 = some (.add Mods.empty 8 7 7) ∧
  decodeTableWord 64 0x20380078FC091A2B = some (.movi { Mods.empty with wide := some 0x91A2B } 7 0x78) ∧
  decodeTableWord 64 0x6060A163F8046800 = some (.fma { Mods.empty with pre := some ⟨0, false, false, .rtz, 13, false⟩ } 12 10 11) ∧
  decodeTableWord 32 0x80209304 = some (.cvt Mods.empty 4 9 .e4m3 .f32 1 0) ∧
  decodeTableWord 32 0x90486E10 = some (.xlane Mods.empty 9 6 .mirror true 1 0) ∧
  decodeTableWord 32 0x944B0180 = some (.agreeCount Mods.empty 9 ⟨3, false⟩ 0) ∧
  decodeTableWord 64 0x5088120EF5400000 = some (.bne { Mods.empty with hint := some ⟨5, 0⟩ } 8 9 14) ∧
  decodeTableWord 32 0x44080005 = some (.loop Mods.empty false 8 5) ∧
  decodeTableWord 32 0xAA085302 = some (.mmaC4 Mods.empty 8 4 5 6 false 1) ∧
  decodeTableWord 32 0xB0A04110 = some (.ld Mods.empty 20 4 .gl .b32 16) ∧
  decodeTableWord 32 0xC860A024 = some (.atom Mods.empty 12 10 .add false .sc .team .rlx) ∧
  decodeTableWord 32 0xD4440020 = some (.barInitImm Mods.empty 1 32) ∧
  decodeTableWord 32 0xD860A120 = some (.ldvMin Mods.empty 12 10 9 .b32) ∧
  decodeTableWord 32 0xDC88000F = some (.rgnB Mods.empty 8 15) ∧
  decodeTableWord 32 0xE4609240 = some (.coll Mods.empty 12 9 2) ∧
  decodeTableWord 32 0xE83850C8 = some (.carve Mods.empty 7 5 6) ∧
  decodeTableWord 32 0xEC308240 = some (.mts Mods.empty 6 18)

/-- R57 to R63: encoding and decoding agree.  A well-formed instruction that an encoding stands for is read back from
its words, whatever words follow it, at every position; a control word is read only where nothing follows.  And words
that decode to an instruction are the words of that instruction, which is well formed. -/
def Obligations.EncodingAndDecodingAgree : Prop :=
  (∀ (i : Instr) (pos : Nat) (w : Word) (ws tail : List Word), i.wellFormed = true → i.encode = w :: ws →
    (controlWord ((w :: ws).getLastD 0).toNat = true → tail = []) →
    decodeAt pos w (ws ++ tail) = .ok (i, ws.length + 1)) ∧
  ∀ (pos : Nat) (w : Word) (rest : List Word) (i : Instr) (n : Nat), decodeAt pos w rest = .ok (i, n) →
    i.encode = (w :: rest).take n ∧ i.wellFormed = true

/-- A step runs the decoded instruction.  A word whose bytes the thread's translation reaches in memory is the word
at its PC, or, where it has been replaced since the launch was placed or the thread last returned from a trap, one of
the words that stood there (R56, R243); when the words there decode to an instruction, the step executes it as the first member of the issue
group, the next member follows, and the step counts itself; words that decode to none are executed as the illegal
instruction they are.  Around it the step notes the issue in the counts of its team and in the ages of threads (R247,
R332), and a write-back that failed as the word issued in the failures of its thread (R388, log entry 70).  With no group
issuing, the step executes the input that waits first, and without one the step
of the package that is due (log entry 1).  R435: a stopped package only counts ticks, until a package reset.  Which of
the words that stood there a fetch gives is log entry 6. -/
def Obligations.StepRunsDecodedInstruction : Prop :=
  (∀ (s : State) (c : Ctx) (w : Word) (rest : List Word),
    s.isStopped = false → s.cur? = some c → s.chain c = .ok (w :: rest) →
    let r := decodeAt c.t.pos w (rest ++ List.replicate (c.t.wordsLeft - (rest.length + 1)) 0)
    (∀ (i : Instr) (n : Nat), r = .ok (i, n) →
      step s = thenNext State.closeStep
        (thenNext (fun s' => ((s'.noteLost s c).noteIssued c).afterMember) (exec i s))) ∧
    (∀ e : Reject, r = .error e →
      step s = thenNext State.closeStep
        (thenNext (fun s' => ((s'.noteLost s c).noteIssued c).afterMember) (exec (.illegalInsn e) s)))) ∧
  (∀ (s before : State) (c : Ctx), let s1 := (s.noteLost before c).noteIssued c
    { s1 with threads := s.threads, teams := s.teams } = s ∧
    (∀ id t, s.thread? id = some t → ∃ t', s1.thread? id = some t' ∧
      { t' with age := t.age, demoted := t.demoted, uncounted := t.uncounted, fails := t.fails } = t ∧
      (s.reg 0x70000020 = before.reg 0x70000020 → t'.fails = t.fails)) ∧ s.keepsTeams s1) ∧
  (∀ (s : State) (c : Ctx) (x : XOk), s.translate c.tm.core c.t.slice c.l.dev c.t.pc.toNat ⟨.fetch, false, c.t.level⟩ = .ok x →
    s.ms.poisoned x.key 4 = false → isMgmt x.key = false → isRemote x.key = false → 0 < c.t.wordsLeft → s.ms.pastWords (max c.l.born c.t.born) x.key = [] →
    let w : Word := s.byteAt (x.key + 3) ++ s.byteAt (x.key + 2) ++ s.byteAt (x.key + 1) ++ s.byteAt x.key
    modKind w = 0 → s.chain c = .ok [w]) ∧
  (∀ (s : State) (born key : Nat), s.fetched born key ∈ s.ms.pastWords born key ∨
    s.fetched born key = s.byteAt (key + 3) ++ s.byteAt (key + 2) ++ s.byteAt (key + 1) ++ s.byteAt key) ∧
  (∀ (s : State) (id : Nat) (l : List Nat), s.issuing.members = id :: l → s.afterMember.issuing.members = l ∧
    { s.afterMember with issuing := s.issuing } = s) ∧
  (∀ (s : State) (e : Instr) (es : List Instr), s.isStopped = false → s.issuing.members = [] → s.agenda = e :: es →
    step s = thenNext State.closeStep (exec e { s with agenda := es })) ∧
  (∀ (s : State) (e : Instr), s.isStopped = false → s.issuing.members = [] → s.agenda = [] → s.due = some e →
    step s = thenNext State.closeStep (exec e s)) ∧
  (∀ s : State, (∀ l ∈ s.launches, l.det = false) → s.tags = [] → s.closeStep = { s with freeCount := s.freeCount + 1 }) ∧
  ∀ s : State, s.isStopped = true → (s.agenda = [] → step s = .next { s with tick := s.tick + 1 }) ∧
    ∀ es, s.agenda = .packageReset :: es → step s = exec .packageReset { s with agenda := es }

/-- No state stops the machine: with inputs that are steps of other agents waiting, every step answers a next
state.  What the host, the pod, the fabric and soft errors do answers a next state in every state, with whatever it
names. -/
def Obligations.StepNeverStops : Prop :=
  (∀ s : State, (∀ e ∈ s.agenda, e.enc = none ∧ ∀ r : Reject, e ≠ .illegalInsn r) → ∃ s' : State, step s = .next s') ∧
  ∀ s : State,
    (∀ core line, ∃ s', exec (.dirtyWriteback core line) s = .next s') ∧
    (∀ place n wr, ∃ s', exec (.hostAccess place n wr) s = .next s') ∧
    (∀ vd off n wr, ∃ s', exec (.hostBar2Access vd off n wr) s = .next s') ∧
    (∀ hpa inval, ∃ s', exec (.hostSnoop hpa inval) s = .next s') ∧
    (∀ src pa r late, ∃ s', exec (.podRemoteRequest src pa r late) s = .next s') ∧
    (∀ op, ∃ s', exec (.remoteDeadline op) s = .next s') ∧ (∀ p, ∃ s', exec (.planeUp p) s = .next s') ∧
    (∀ p, ∃ s', exec (.planeDown p) s = .next s') ∧ (∀ v, ∃ s', exec (.plmapWrite v) s = .next s') ∧
    (∃ s', exec .plmapEffect s = .next s') ∧ (∀ who pa v, ∃ s', exec (.registerWrite who pa v) s = .next s') ∧
    ∀ e, ∃ s', exec (.uncorrectableError e) s = .next s'

/-- Every step keeps the canonical form of memory and of every team's scratch, and leaves at most one byte for a key
in a core's L1. -/
def Obligations.StepKeepsMemoryForm : Prop :=
  ∀ s s' : State, s.memWf = true → s.l1Wf → step s = .next s' → s'.memWf = true ∧ s'.l1Wf

/-- R7, R13, R250, R390, R414, R424: package reset leaves no thread, team or launch; the registers of the fabric, the
guard and the power controller hold their reset values, TICK is 0, and the package is not stopped; banks 0 to 7 of
every core are ways of its L1, and banks 8 to 31 hold scratch; each firmware bank holds the image that the boot ROM
accepts there, if it accepts one (R418, log entry 15).  Memory is in its form and its bytes read as zero,
which is the model's choice (log entry 3). -/
def Obligations.ResetState : Prop :=
  core.reset = State.reset ∧
  State.reset.threads = [] ∧ State.reset.teams = [] ∧ State.reset.launches = [] ∧ State.reset.saved = [] ∧
  State.reset.ops = [] ∧ State.reset.tick = 0 ∧ State.reset.isStopped = false ∧
  State.reset.reg 0x70000000 = 0 ∧ State.reset.reg 0x70000008 = 0x00FAC688 ∧ State.reset.reg 0x70000018 = 100 ∧
  State.reset.reg 0xA0000000 = 60 ∧ State.reset.reg 0xA0000008 = BitVec.ofNat 64 (400 * 2 ^ 32 + 1600) ∧
  State.reset.reg 0xA0002000 = 16 ∧
  (∀ core num : Nat, (num < 8 → (State.reset.bank core num).mode = .cache) ∧
    (8 ≤ num → (State.reset.bank core num).mode = .scratch)) ∧
  (∀ bank, State.reset.penen.image bank =
    if imageOk (Config.flash bank) then some (imageOf (Config.flash bank)) else none) ∧
  State.reset.memWf = true ∧ State.reset.l1Wf ∧ ∀ key : Nat, State.reset.byteAt key = 0
end

