-- ==== Sys2Proof/Laws/Encoding.lean ====
section
/-! SUPPORT. The codecs of the operand fields give back every value, and the row of an instruction builds it again
from the codes of its fields. -/

namespace Sys2Proof

@[simp] theorem ofCode_fin (n : Nat) (x : Fin n) : (finCodec n).ofCode ((finCodec n).code x) = some x := by
  simp [finCodec]

@[simp] theorem ofCode_reg (x : Reg) : regCodec.ofCode (regCodec.code x) = some x := ofCode_fin 128 x

@[simp] theorem ofCode_pred (x : Pred) : predCodec.ofCode (predCodec.code x) = some x := ofCode_fin 8 x

@[simp] theorem ofCode_bits (n : Nat) (x : BitVec n) : (bitsCodec n).ofCode ((bitsCodec n).code x) = some x := by
  simp [bitsCodec, x.isLt]

@[simp] theorem ofCode_bool (x : Bool) : boolCodec.ofCode (boolCodec.code x) = some x := by cases x <;> rfl

@[simp] theorem ofCode_predSel (x : PredSel) : predSelCodec.ofCode (predSelCodec.code x) = some x := by
  obtain ⟨p, n⟩ := x
  cases n <;> (revert p; decide)

@[simp] theorem ofCode_rnd (x : Rnd) : rndCodec.ofCode (rndCodec.code x) = some x := by cases x <;> rfl

@[simp] theorem ofCode_cond (x : Cond) : condCodec.ofCode (condCodec.code x) = some x := by cases x <;> rfl

@[simp] theorem ofCode_cmpType (x : CmpType) : cmpTypeCodec.ofCode (cmpTypeCodec.code x) = some x := by cases x <;> rfl

@[simp] theorem ofCode_intType (x : IntType) : intTypeCodec.ofCode (intTypeCodec.code x) = some x := by cases x <;> rfl

@[simp] theorem ofCode_halfFmt (x : HalfFmt) : halfFmtCodec.ofCode (halfFmtCodec.code x) = some x := by cases x <;> rfl

@[simp] theorem ofCode_fmt (x : Fmt) : fmtCodec.ofCode (fmtCodec.code x) = some x := by cases x <;> rfl

@[simp] theorem ofCode_xMode (x : XMode) : xModeCodec.ofCode (xModeCodec.code x) = some x := by cases x <;> rfl

@[simp] theorem ofCode_groupOp (x : GroupOp) : groupOpCodec.ofCode (groupOpCodec.code x) = some x := by cases x <;> rfl

@[simp] theorem ofCode_mmaFmt (x : MmaFmt) : mmaFmtCodec.ofCode (mmaFmtCodec.code x) = some x := by cases x <;> rfl

@[simp] theorem ofCode_fp8Fmt (x : Fp8Fmt) : fp8FmtCodec.ofCode (fp8FmtCodec.code x) = some x := by cases x <;> rfl

@[simp] theorem ofCode_space (x : Space) : spaceCodec.ofCode (spaceCodec.code x) = some x := by cases x <;> rfl

@[simp] theorem ofCode_atomSpace (x : AtomSpace) : atomSpaceCodec.ofCode (atomSpaceCodec.code x) = some x := by cases x <;> rfl

@[simp] theorem ofCode_memWidth (x : MemWidth) : memWidthCodec.ofCode (memWidthCodec.code x) = some x := by cases x <;> rfl

@[simp] theorem ofCode_granWidth (x : GranWidth) : granWidthCodec.ofCode (granWidthCodec.code x) = some x := by cases x <;> rfl

@[simp] theorem ofCode_verWidth (x : VerWidth) : verWidthCodec.ofCode (verWidthCodec.code x) = some x := by cases x <;> rfl

@[simp] theorem ofCode_scope (x : Scope) : scopeCodec.ofCode (scopeCodec.code x) = some x := by cases x <;> rfl

@[simp] theorem ofCode_atomOp (x : AtomOp) : atomOpCodec.ofCode (atomOpCodec.code x) = some x := by cases x <;> rfl

@[simp] theorem ofCode_memOrd (x : MemOrd) : memOrdCodec.ofCode (memOrdCodec.code x) = some x := by cases x <;> rfl

/-- The row of an instruction builds it from the codes of its fields. -/
theorem enc_build (i : Instr) {r : Row} {m : Mods} {cs : List Nat} (h : i.enc = some (r, m, cs)) :
    r.build m cs = some i := by
  cases i <;> cases h
  all_goals simp [rowAdd, rowSub, rowMul, rowMulhs, rowMulhu, rowMins, rowMinu, rowMaxs, rowMaxu, rowAnd, rowOr, rowXor,
    rowAndn, rowShl, rowShr, rowSar, rowRol, rowRor, rowClz, rowFfs, rowPopc, rowBrev, rowAbs, rowNeg, rowAddus,
    rowSubus, rowMulws, rowMulwu, rowAddX2, rowSubX2, rowMulX2, rowMulhsX2, rowMulhuX2, rowMinsX2, rowMinuX2,
    rowMaxsX2, rowMaxuX2, rowAndX2, rowOrX2, rowXorX2, rowAndnX2, rowShlX2, rowShrX2, rowSarX2, rowRolX2,
    rowRorX2, rowClzX2, rowFfsX2, rowPopcX2, rowBrevX2, rowAbsX2, rowNegX2, rowAddusX2, rowSubusX2, rowAddX4,
    rowSubX4, rowMulX4, rowMulhsX4, rowMulhuX4, rowMinsX4, rowMinuX4, rowMaxsX4, rowMaxuX4, rowAndX4, rowOrX4,
    rowXorX4, rowAndnX4, rowShlX4, rowShrX4, rowSarX4, rowRolX4, rowRorX4, rowClzX4, rowFfsX4, rowPopcX4,
    rowBrevX4, rowAbsX4, rowNegX4, rowAddusX4, rowSubusX4, rowAdd64, rowSub64, rowMul64, rowMulhs64, rowMulhu64,
    rowMins64, rowMinu64, rowMaxs64, rowMaxu64, rowAnd64, rowOr64, rowXor64, rowAndn64, rowShl64, rowShr64,
    rowSar64, rowRol64, rowRor64, rowClz64, rowFfs64, rowPopc64, rowBrev64, rowAbs64, rowNeg64, rowAddus64,
    rowSubus64, rowAddi, rowMuli, rowAndi, rowOri, rowXori, rowShli, rowShri, rowSari, rowAddi64, rowMuli64,
    rowAndi64, rowOri64, rowXori64, rowShli64, rowShri64, rowSari64, rowBfez, rowBfes, rowBfi, rowMovi, rowMovdi,
    rowLeai, rowMov, rowMovd, rowMovq, rowLeas, rowLeaz, rowMad, rowMadws, rowMadwu, rowDp4s, rowDp4u, rowCmp,
    rowCmpImm, rowSel, rowPand, rowPor, rowPxor, rowP2g, rowG2p, rowBra, rowCall, rowLoop, rowLbrk, rowJmp,
    rowCalli, rowRet, rowJoin, rowYield, rowSleep, rowExit, rowBeq, rowBne, rowBlt, rowBge, rowBltu, rowBgeu,
    rowFadd, rowFsub, rowFmul, rowFma, rowFmin, rowFmax, rowFminnum, rowFmaxnum, rowFabs, rowFneg, rowFclass,
    rowFcopysign, rowFscale, rowFaddX2, rowFsubX2, rowFmulX2, rowFmaX2, rowFminX2, rowFmaxX2, rowFabsX2,
    rowFnegX2, rowDot2, rowRcp, rowRsq, rowSqrt, rowEx2, rowLg2, rowSin, rowCos, rowTanh, rowDiv, rowCvt, rowQc4,
    rowDqc4, rowRand, rowRandf, rowXlane, rowAgreeAll, rowAgreeSome, rowAgreeSame, rowAgreeMask, rowPeers,
    rowPeersAll, rowAgreeCount, rowGred, rowGscan, rowGscanx, rowMma, rowMmaPart, rowMmaC4, rowScacc, rowAccmov,
    rowAcczero, rowAccadd, rowLd, rowSt, rowLdAcq, rowStRel, rowLdfe, rowLdfec, rowStfull, rowLdfifo, rowStfifo,
    rowPfL1, rowPfMsc, rowWb, rowInv, rowWbinv, rowAtom, rowRed, rowFence, rowFenceAcq, rowFenceRel, rowTlfence,
    rowBarInitImm, rowBarInitReg, rowBarArr, rowBarWait, rowBarSync, rowCvdeclImm, rowCvdeclReg, rowCvsync,
    rowElect, rowRelease, rowLdvMin, rowLdvAt, rowVpin, rowVunpin, rowStepAdv, rowRgnB, rowRgnE, rowTkwait,
    rowTkpass, rowTcopy, rowQput, rowColl, rowSpawn, rowBin, rowBinrel, rowCarve, rowMfs, rowMts, rowTrap,
    rowTret, rowTretSkip, rowEnrd, rowBrk,
    build0, build1, build2, build3, build4, build5, build6, build7]

end Sys2Proof
end

