-- ==== Sys2Proof/Laws/Lane.lean ====
section
/-! SUPPORT. What the shared shapes of Flags do for an instruction that meets its operands, and for one that is
predicated off. -/

namespace Sys2Proof.Machine

/-- A meaning runs on the executing thread. -/
theorem run_cur {s : State} {c : Ctx} (h : s.cur? = some c) (f : Ctx → State) : s.run f = .next (f c) := by
  simp [State.run, h]

/-- The checks of a thread that meets its operands pass. -/
theorem checked_ready {s : State} {c : Ctx} {m : Mods} {dst reads : List Blk} (h : s.Ready c m dst reads)
    (f : State) : s.checked c (dst ++ reads) reads f = f := by
  simp [State.checked, h.range, h.clean]

/-- The checks of a form without a prefix. -/
theorem checked_ready' {s : State} {c : Ctx} {regs : List Blk} (h : s.Ready' c regs) (f : State) :
    s.checked c regs regs f = f := by
  simp [State.checked, h.range, h.clean]

/-- A lane-class instruction that raises no enabled exception writes its result. -/
theorem lane_ready {s : State} {c : Ctx} {m : Mods} {dst reads : List Blk} (h : s.Ready c m dst reads)
    (pds : List Pred) {r : LaneResult} (hf : fpTrap (s.csr c.t) r.flags = none) :
    s.lane c m dst pds reads r = s.laneDone c m r := by
  rw [State.lane, if_pos h.on, checked_ready h, hf]

/-- A lane-class instruction that raises an enabled exception traps (R111). -/
theorem lane_traps {s : State} {c : Ctx} {m : Mods} {dst reads : List Blk} (h : s.Ready c m dst reads)
    (pds : List Pred) {r : LaneResult} {cause : Cause} (hf : fpTrap (s.csr c.t) r.flags = some cause) :
    s.lane c m dst pds reads r = s.deliver c.t cause (BitVec.ofNat 64 r.flags.code) := by
  rw [State.lane, if_pos h.on, checked_ready h, hf]

/-- No flag, no trap. -/
@[simp] theorem fpTrap_clear (w : Word) : fpTrap w FFlags.clear = none := by simp [fpTrap, FFlags.clear]

/-- A register form that writes one register. -/
theorem int32_ready {s : State} {c : Ctx} {m : Mods} {d : Reg} {srcs : List Reg}
    (h : s.Ready c m [one d] (srcs.map one)) (v : Word) :
    s.int32 c m d srcs v = s.laneDone c m (LaneResult.ofRegs [(d.val, v)]) :=
  lane_ready h [] (by simp [LaneResult.ofRegs])

/-- A register form that writes one pair. -/
theorem int64_ready {s : State} {c : Ctx} {m : Mods} {d : Reg} {srcs : List Reg}
    (h : s.Ready c m [pair d] (srcs.map pair)) (v : DWord) :
    s.int64 c m d srcs v = s.laneDone c m (LaneResult.ofRegs (pairWrites d v)) :=
  lane_ready h [] (by simp [LaneResult.ofRegs])

/-- A block-class instruction that meets its operands takes its effect. -/
theorem block_ready {s : State} {c : Ctx} {m : Mods} {dst reads : List Blk} (h : s.Ready c m dst reads) (f : State) :
    s.block c m dst reads f = f := by
  rw [State.block, if_pos h.on, checked_ready h]

/-- One more register of a block. -/
theorem regN_succ (s : State) (t : Thread) (r n : Nat) :
    s.regN t r (n + 1) = s.regN t r n + (t.rd s.tick s.freeCount (r + n)).toNat * 2 ^ (32 * n) := by
  simp [State.regN, List.range_succ]

/-- The value of a block of registers. -/
theorem regN_lt (s : State) (t : Thread) (r n : Nat) : s.regN t r n < 2 ^ (32 * n) := by
  induction n with
  | zero => simp [State.regN]
  | succ n ih =>
    rw [regN_succ, mul_add, pow_add]
    have := (t.rd s.tick s.freeCount (r + n)).isLt
    calc _ < 2 ^ (32 * n) + (t.rd s.tick s.freeCount (r + n)).toNat * 2 ^ (32 * n) := by omega
      _ = ((t.rd s.tick s.freeCount (r + n)).toNat + 1) * 2 ^ (32 * n) := by ring
      _ ≤ 2 ^ 32 * 2 ^ (32 * n) := Nat.mul_le_mul_right _ this
      _ = _ := by ring

/-- A register of a block. -/
theorem regN_digit (s : State) (t : Thread) (r n k : Nat) (h : k < n) :
    BitVec.ofNat 32 (s.regN t r n / 2 ^ (32 * k)) = t.rd s.tick s.freeCount (r + k) := by
  induction n with
  | zero => omega
  | succ n ih =>
    rw [regN_succ]
    by_cases hk : k = n
    · subst hk
      rw [Nat.add_mul_div_right _ _ (by positivity), Nat.div_eq_of_lt (regN_lt s t r k)]; simp
    · rw [← ih (by omega)]
      obtain ⟨j, rfl⟩ : ∃ j, n = k + 1 + j := ⟨n - k - 1, by omega⟩
      apply BitVec.eq_of_toNat_eq
      rw [BitVec.toNat_ofNat, BitVec.toNat_ofNat]
      generalize (t.rd s.tick s.freeCount (r + (k + 1 + j))).toNat = v
      rw [show v * 2 ^ (32 * (k + 1 + j)) = (2 ^ 32 * (v * 2 ^ (32 * j))) * 2 ^ (32 * k) by ring, Nat.add_mul_div_right _ _ (by positivity), Nat.add_mul_mod_self_left]

/-- A block of registers as one value gives its registers back. -/
theorem toRegs_regN (s : State) (t : Thread) (d r n : Nat) :
    toRegs d n (s.regN t r n) = (List.range n).map fun k => (d + k, t.rd s.tick s.freeCount (r + k)) := by
  unfold toRegs
  apply List.map_congr_left
  intro k hk
  rw [regN_digit s t r n k (List.mem_range.1 hk)]

end Sys2Proof.Machine
end

