-- ==== Sys2Proof/Laws/State.lean ====
section
/-! SUPPORT. What each update of the state leaves as it was, field by field, and what the look-ups find after it. -/

namespace Sys2Proof.Machine

variable (s : State)

/-! ## State.setThread: writes `threads` alone -/

@[simp] theorem setThread_tick (t : Thread) : (s.setThread t).tick = s.tick := rfl
@[simp] theorem setThread_teams (t : Thread) : (s.setThread t).teams = s.teams := rfl
@[simp] theorem setThread_launches (t : Thread) : (s.setThread t).launches = s.launches := rfl
@[simp] theorem setThread_saved (t : Thread) : (s.setThread t).saved = s.saved := rfl
@[simp] theorem setThread_ops (t : Thread) : (s.setThread t).ops = s.ops := rfl
@[simp] theorem setThread_ms (t : Thread) : (s.setThread t).ms = s.ms := rfl
@[simp] theorem setThread_front (t : Thread) : (s.setThread t).front = s.front := rfl
@[simp] theorem setThread_ver (t : Thread) : (s.setThread t).ver = s.ver := rfl
@[simp] theorem setThread_coll (t : Thread) : (s.setThread t).coll = s.coll := rfl
@[simp] theorem setThread_eng (t : Thread) : (s.setThread t).eng = s.eng := rfl
@[simp] theorem setThread_mgmt (t : Thread) : (s.setThread t).mgmt = s.mgmt := rfl
@[simp] theorem setThread_lost (t : Thread) : (s.setThread t).lost = s.lost := rfl
@[simp] theorem setThread_pending (t : Thread) : (s.setThread t).pending = s.pending := rfl
@[simp] theorem setThread_penen (t : Thread) : (s.setThread t).penen = s.penen := rfl
@[simp] theorem setThread_power (t : Thread) : (s.setThread t).power = s.power := rfl
@[simp] theorem setThread_tags (t : Thread) : (s.setThread t).tags = s.tags := rfl
@[simp] theorem setThread_halt (t : Thread) : (s.setThread t).halt = s.halt := rfl
@[simp] theorem setThread_lull (t : Thread) : (s.setThread t).lull = s.lull := rfl
@[simp] theorem setThread_eddy (t : Thread) : (s.setThread t).eddy = s.eddy := rfl
@[simp] theorem setThread_outbox (t : Thread) : (s.setThread t).outbox = s.outbox := rfl
@[simp] theorem setThread_agenda (t : Thread) : (s.setThread t).agenda = s.agenda := rfl
@[simp] theorem setThread_issuing (t : Thread) : (s.setThread t).issuing = s.issuing := rfl
@[simp] theorem setThread_slots (t : Thread) : (s.setThread t).slots = s.slots := rfl
@[simp] theorem setThread_nextId (t : Thread) : (s.setThread t).nextId = s.nextId := rfl
@[simp] theorem setThread_freeCount (t : Thread) : (s.setThread t).freeCount = s.freeCount := rfl
@[simp] theorem setThread_heldWrites (t : Thread) : (s.setThread t).heldWrites = s.heldWrites := rfl
@[simp] theorem setThread_heldMsgs (t : Thread) : (s.setThread t).heldMsgs = s.heldMsgs := rfl
@[simp] theorem setThread_heldHost (t : Thread) : (s.setThread t).heldHost = s.heldHost := rfl
@[simp] theorem setThread_corrected (t : Thread) : (s.setThread t).corrected = s.corrected := rfl

/-! ## State.setTeam: writes `teams` alone -/

@[simp] theorem setTeam_tick (m : Team) : (s.setTeam m).tick = s.tick := rfl
@[simp] theorem setTeam_threads (m : Team) : (s.setTeam m).threads = s.threads := rfl
@[simp] theorem setTeam_launches (m : Team) : (s.setTeam m).launches = s.launches := rfl
@[simp] theorem setTeam_saved (m : Team) : (s.setTeam m).saved = s.saved := rfl
@[simp] theorem setTeam_ops (m : Team) : (s.setTeam m).ops = s.ops := rfl
@[simp] theorem setTeam_ms (m : Team) : (s.setTeam m).ms = s.ms := rfl
@[simp] theorem setTeam_front (m : Team) : (s.setTeam m).front = s.front := rfl
@[simp] theorem setTeam_ver (m : Team) : (s.setTeam m).ver = s.ver := rfl
@[simp] theorem setTeam_coll (m : Team) : (s.setTeam m).coll = s.coll := rfl
@[simp] theorem setTeam_eng (m : Team) : (s.setTeam m).eng = s.eng := rfl
@[simp] theorem setTeam_mgmt (m : Team) : (s.setTeam m).mgmt = s.mgmt := rfl
@[simp] theorem setTeam_lost (m : Team) : (s.setTeam m).lost = s.lost := rfl
@[simp] theorem setTeam_pending (m : Team) : (s.setTeam m).pending = s.pending := rfl
@[simp] theorem setTeam_penen (m : Team) : (s.setTeam m).penen = s.penen := rfl
@[simp] theorem setTeam_power (m : Team) : (s.setTeam m).power = s.power := rfl
@[simp] theorem setTeam_tags (m : Team) : (s.setTeam m).tags = s.tags := rfl
@[simp] theorem setTeam_halt (m : Team) : (s.setTeam m).halt = s.halt := rfl
@[simp] theorem setTeam_lull (m : Team) : (s.setTeam m).lull = s.lull := rfl
@[simp] theorem setTeam_eddy (m : Team) : (s.setTeam m).eddy = s.eddy := rfl
@[simp] theorem setTeam_outbox (m : Team) : (s.setTeam m).outbox = s.outbox := rfl
@[simp] theorem setTeam_agenda (m : Team) : (s.setTeam m).agenda = s.agenda := rfl
@[simp] theorem setTeam_issuing (m : Team) : (s.setTeam m).issuing = s.issuing := rfl
@[simp] theorem setTeam_slots (m : Team) : (s.setTeam m).slots = s.slots := rfl
@[simp] theorem setTeam_nextId (m : Team) : (s.setTeam m).nextId = s.nextId := rfl
@[simp] theorem setTeam_freeCount (m : Team) : (s.setTeam m).freeCount = s.freeCount := rfl
@[simp] theorem setTeam_heldWrites (m : Team) : (s.setTeam m).heldWrites = s.heldWrites := rfl
@[simp] theorem setTeam_heldMsgs (m : Team) : (s.setTeam m).heldMsgs = s.heldMsgs := rfl
@[simp] theorem setTeam_heldHost (m : Team) : (s.setTeam m).heldHost = s.heldHost := rfl
@[simp] theorem setTeam_corrected (m : Team) : (s.setTeam m).corrected = s.corrected := rfl

/-! ## State.setLaunch: writes `launches` alone -/

@[simp] theorem setLaunch_tick (l : Launch) : (s.setLaunch l).tick = s.tick := rfl
@[simp] theorem setLaunch_threads (l : Launch) : (s.setLaunch l).threads = s.threads := rfl
@[simp] theorem setLaunch_teams (l : Launch) : (s.setLaunch l).teams = s.teams := rfl
@[simp] theorem setLaunch_saved (l : Launch) : (s.setLaunch l).saved = s.saved := rfl
@[simp] theorem setLaunch_ops (l : Launch) : (s.setLaunch l).ops = s.ops := rfl
@[simp] theorem setLaunch_ms (l : Launch) : (s.setLaunch l).ms = s.ms := rfl
@[simp] theorem setLaunch_front (l : Launch) : (s.setLaunch l).front = s.front := rfl
@[simp] theorem setLaunch_ver (l : Launch) : (s.setLaunch l).ver = s.ver := rfl
@[simp] theorem setLaunch_coll (l : Launch) : (s.setLaunch l).coll = s.coll := rfl
@[simp] theorem setLaunch_eng (l : Launch) : (s.setLaunch l).eng = s.eng := rfl
@[simp] theorem setLaunch_mgmt (l : Launch) : (s.setLaunch l).mgmt = s.mgmt := rfl
@[simp] theorem setLaunch_lost (l : Launch) : (s.setLaunch l).lost = s.lost := rfl
@[simp] theorem setLaunch_pending (l : Launch) : (s.setLaunch l).pending = s.pending := rfl
@[simp] theorem setLaunch_penen (l : Launch) : (s.setLaunch l).penen = s.penen := rfl
@[simp] theorem setLaunch_power (l : Launch) : (s.setLaunch l).power = s.power := rfl
@[simp] theorem setLaunch_tags (l : Launch) : (s.setLaunch l).tags = s.tags := rfl
@[simp] theorem setLaunch_halt (l : Launch) : (s.setLaunch l).halt = s.halt := rfl
@[simp] theorem setLaunch_lull (l : Launch) : (s.setLaunch l).lull = s.lull := rfl
@[simp] theorem setLaunch_eddy (l : Launch) : (s.setLaunch l).eddy = s.eddy := rfl
@[simp] theorem setLaunch_outbox (l : Launch) : (s.setLaunch l).outbox = s.outbox := rfl
@[simp] theorem setLaunch_agenda (l : Launch) : (s.setLaunch l).agenda = s.agenda := rfl
@[simp] theorem setLaunch_issuing (l : Launch) : (s.setLaunch l).issuing = s.issuing := rfl
@[simp] theorem setLaunch_slots (l : Launch) : (s.setLaunch l).slots = s.slots := rfl
@[simp] theorem setLaunch_nextId (l : Launch) : (s.setLaunch l).nextId = s.nextId := rfl
@[simp] theorem setLaunch_freeCount (l : Launch) : (s.setLaunch l).freeCount = s.freeCount := rfl
@[simp] theorem setLaunch_heldWrites (l : Launch) : (s.setLaunch l).heldWrites = s.heldWrites := rfl
@[simp] theorem setLaunch_heldMsgs (l : Launch) : (s.setLaunch l).heldMsgs = s.heldMsgs := rfl
@[simp] theorem setLaunch_heldHost (l : Launch) : (s.setLaunch l).heldHost = s.heldHost := rfl
@[simp] theorem setLaunch_corrected (l : Launch) : (s.setLaunch l).corrected = s.corrected := rfl

/-! ## State.setMs: writes `ms` alone -/

@[simp] theorem setMs_tick (m : MemSys) : (s.setMs m).tick = s.tick := rfl
@[simp] theorem setMs_threads (m : MemSys) : (s.setMs m).threads = s.threads := rfl
@[simp] theorem setMs_teams (m : MemSys) : (s.setMs m).teams = s.teams := rfl
@[simp] theorem setMs_launches (m : MemSys) : (s.setMs m).launches = s.launches := rfl
@[simp] theorem setMs_saved (m : MemSys) : (s.setMs m).saved = s.saved := rfl
@[simp] theorem setMs_ops (m : MemSys) : (s.setMs m).ops = s.ops := rfl
@[simp] theorem setMs_front (m : MemSys) : (s.setMs m).front = s.front := rfl
@[simp] theorem setMs_ver (m : MemSys) : (s.setMs m).ver = s.ver := rfl
@[simp] theorem setMs_coll (m : MemSys) : (s.setMs m).coll = s.coll := rfl
@[simp] theorem setMs_eng (m : MemSys) : (s.setMs m).eng = s.eng := rfl
@[simp] theorem setMs_mgmt (m : MemSys) : (s.setMs m).mgmt = s.mgmt := rfl
@[simp] theorem setMs_lost (m : MemSys) : (s.setMs m).lost = s.lost := rfl
@[simp] theorem setMs_pending (m : MemSys) : (s.setMs m).pending = s.pending := rfl
@[simp] theorem setMs_penen (m : MemSys) : (s.setMs m).penen = s.penen := rfl
@[simp] theorem setMs_power (m : MemSys) : (s.setMs m).power = s.power := rfl
@[simp] theorem setMs_tags (m : MemSys) : (s.setMs m).tags = s.tags := rfl
@[simp] theorem setMs_halt (m : MemSys) : (s.setMs m).halt = s.halt := rfl
@[simp] theorem setMs_lull (m : MemSys) : (s.setMs m).lull = s.lull := rfl
@[simp] theorem setMs_eddy (m : MemSys) : (s.setMs m).eddy = s.eddy := rfl
@[simp] theorem setMs_outbox (m : MemSys) : (s.setMs m).outbox = s.outbox := rfl
@[simp] theorem setMs_agenda (m : MemSys) : (s.setMs m).agenda = s.agenda := rfl
@[simp] theorem setMs_issuing (m : MemSys) : (s.setMs m).issuing = s.issuing := rfl
@[simp] theorem setMs_slots (m : MemSys) : (s.setMs m).slots = s.slots := rfl
@[simp] theorem setMs_nextId (m : MemSys) : (s.setMs m).nextId = s.nextId := rfl
@[simp] theorem setMs_freeCount (m : MemSys) : (s.setMs m).freeCount = s.freeCount := rfl
@[simp] theorem setMs_heldWrites (m : MemSys) : (s.setMs m).heldWrites = s.heldWrites := rfl
@[simp] theorem setMs_heldMsgs (m : MemSys) : (s.setMs m).heldMsgs = s.heldMsgs := rfl
@[simp] theorem setMs_heldHost (m : MemSys) : (s.setMs m).heldHost = s.heldHost := rfl
@[simp] theorem setMs_corrected (m : MemSys) : (s.setMs m).corrected = s.corrected := rfl

/-! ## State.modThread: writes `threads` alone -/

@[simp] theorem modThread_tick (id : Nat) (f : Thread → Thread) : (s.modThread id f).tick = s.tick := rfl
@[simp] theorem modThread_teams (id : Nat) (f : Thread → Thread) : (s.modThread id f).teams = s.teams := rfl
@[simp] theorem modThread_launches (id : Nat) (f : Thread → Thread) : (s.modThread id f).launches = s.launches := rfl
@[simp] theorem modThread_saved (id : Nat) (f : Thread → Thread) : (s.modThread id f).saved = s.saved := rfl
@[simp] theorem modThread_ops (id : Nat) (f : Thread → Thread) : (s.modThread id f).ops = s.ops := rfl
@[simp] theorem modThread_ms (id : Nat) (f : Thread → Thread) : (s.modThread id f).ms = s.ms := rfl
@[simp] theorem modThread_front (id : Nat) (f : Thread → Thread) : (s.modThread id f).front = s.front := rfl
@[simp] theorem modThread_ver (id : Nat) (f : Thread → Thread) : (s.modThread id f).ver = s.ver := rfl
@[simp] theorem modThread_coll (id : Nat) (f : Thread → Thread) : (s.modThread id f).coll = s.coll := rfl
@[simp] theorem modThread_eng (id : Nat) (f : Thread → Thread) : (s.modThread id f).eng = s.eng := rfl
@[simp] theorem modThread_mgmt (id : Nat) (f : Thread → Thread) : (s.modThread id f).mgmt = s.mgmt := rfl
@[simp] theorem modThread_lost (id : Nat) (f : Thread → Thread) : (s.modThread id f).lost = s.lost := rfl
@[simp] theorem modThread_pending (id : Nat) (f : Thread → Thread) : (s.modThread id f).pending = s.pending := rfl
@[simp] theorem modThread_penen (id : Nat) (f : Thread → Thread) : (s.modThread id f).penen = s.penen := rfl
@[simp] theorem modThread_power (id : Nat) (f : Thread → Thread) : (s.modThread id f).power = s.power := rfl
@[simp] theorem modThread_tags (id : Nat) (f : Thread → Thread) : (s.modThread id f).tags = s.tags := rfl
@[simp] theorem modThread_halt (id : Nat) (f : Thread → Thread) : (s.modThread id f).halt = s.halt := rfl
@[simp] theorem modThread_lull (id : Nat) (f : Thread → Thread) : (s.modThread id f).lull = s.lull := rfl
@[simp] theorem modThread_eddy (id : Nat) (f : Thread → Thread) : (s.modThread id f).eddy = s.eddy := rfl
@[simp] theorem modThread_outbox (id : Nat) (f : Thread → Thread) : (s.modThread id f).outbox = s.outbox := rfl
@[simp] theorem modThread_agenda (id : Nat) (f : Thread → Thread) : (s.modThread id f).agenda = s.agenda := rfl
@[simp] theorem modThread_issuing (id : Nat) (f : Thread → Thread) : (s.modThread id f).issuing = s.issuing := rfl
@[simp] theorem modThread_slots (id : Nat) (f : Thread → Thread) : (s.modThread id f).slots = s.slots := rfl
@[simp] theorem modThread_nextId (id : Nat) (f : Thread → Thread) : (s.modThread id f).nextId = s.nextId := rfl
@[simp] theorem modThread_freeCount (id : Nat) (f : Thread → Thread) : (s.modThread id f).freeCount = s.freeCount := rfl
@[simp] theorem modThread_heldWrites (id : Nat) (f : Thread → Thread) : (s.modThread id f).heldWrites = s.heldWrites := rfl
@[simp] theorem modThread_heldMsgs (id : Nat) (f : Thread → Thread) : (s.modThread id f).heldMsgs = s.heldMsgs := rfl
@[simp] theorem modThread_heldHost (id : Nat) (f : Thread → Thread) : (s.modThread id f).heldHost = s.heldHost := rfl
@[simp] theorem modThread_corrected (id : Nat) (f : Thread → Thread) : (s.modThread id f).corrected = s.corrected := rfl

/-! ## State.modTeam: writes `teams` alone -/

@[simp] theorem modTeam_tick (id : Nat) (f : Team → Team) : (s.modTeam id f).tick = s.tick := rfl
@[simp] theorem modTeam_threads (id : Nat) (f : Team → Team) : (s.modTeam id f).threads = s.threads := rfl
@[simp] theorem modTeam_launches (id : Nat) (f : Team → Team) : (s.modTeam id f).launches = s.launches := rfl
@[simp] theorem modTeam_saved (id : Nat) (f : Team → Team) : (s.modTeam id f).saved = s.saved := rfl
@[simp] theorem modTeam_ops (id : Nat) (f : Team → Team) : (s.modTeam id f).ops = s.ops := rfl
@[simp] theorem modTeam_ms (id : Nat) (f : Team → Team) : (s.modTeam id f).ms = s.ms := rfl
@[simp] theorem modTeam_front (id : Nat) (f : Team → Team) : (s.modTeam id f).front = s.front := rfl
@[simp] theorem modTeam_ver (id : Nat) (f : Team → Team) : (s.modTeam id f).ver = s.ver := rfl
@[simp] theorem modTeam_coll (id : Nat) (f : Team → Team) : (s.modTeam id f).coll = s.coll := rfl
@[simp] theorem modTeam_eng (id : Nat) (f : Team → Team) : (s.modTeam id f).eng = s.eng := rfl
@[simp] theorem modTeam_mgmt (id : Nat) (f : Team → Team) : (s.modTeam id f).mgmt = s.mgmt := rfl
@[simp] theorem modTeam_lost (id : Nat) (f : Team → Team) : (s.modTeam id f).lost = s.lost := rfl
@[simp] theorem modTeam_pending (id : Nat) (f : Team → Team) : (s.modTeam id f).pending = s.pending := rfl
@[simp] theorem modTeam_penen (id : Nat) (f : Team → Team) : (s.modTeam id f).penen = s.penen := rfl
@[simp] theorem modTeam_power (id : Nat) (f : Team → Team) : (s.modTeam id f).power = s.power := rfl
@[simp] theorem modTeam_tags (id : Nat) (f : Team → Team) : (s.modTeam id f).tags = s.tags := rfl
@[simp] theorem modTeam_halt (id : Nat) (f : Team → Team) : (s.modTeam id f).halt = s.halt := rfl
@[simp] theorem modTeam_lull (id : Nat) (f : Team → Team) : (s.modTeam id f).lull = s.lull := rfl
@[simp] theorem modTeam_eddy (id : Nat) (f : Team → Team) : (s.modTeam id f).eddy = s.eddy := rfl
@[simp] theorem modTeam_outbox (id : Nat) (f : Team → Team) : (s.modTeam id f).outbox = s.outbox := rfl
@[simp] theorem modTeam_agenda (id : Nat) (f : Team → Team) : (s.modTeam id f).agenda = s.agenda := rfl
@[simp] theorem modTeam_issuing (id : Nat) (f : Team → Team) : (s.modTeam id f).issuing = s.issuing := rfl
@[simp] theorem modTeam_slots (id : Nat) (f : Team → Team) : (s.modTeam id f).slots = s.slots := rfl
@[simp] theorem modTeam_nextId (id : Nat) (f : Team → Team) : (s.modTeam id f).nextId = s.nextId := rfl
@[simp] theorem modTeam_freeCount (id : Nat) (f : Team → Team) : (s.modTeam id f).freeCount = s.freeCount := rfl
@[simp] theorem modTeam_heldWrites (id : Nat) (f : Team → Team) : (s.modTeam id f).heldWrites = s.heldWrites := rfl
@[simp] theorem modTeam_heldMsgs (id : Nat) (f : Team → Team) : (s.modTeam id f).heldMsgs = s.heldMsgs := rfl
@[simp] theorem modTeam_heldHost (id : Nat) (f : Team → Team) : (s.modTeam id f).heldHost = s.heldHost := rfl
@[simp] theorem modTeam_corrected (id : Nat) (f : Team → Team) : (s.modTeam id f).corrected = s.corrected := rfl

/-! ## State.countPm: writes `teams` alone -/

@[simp] theorem countPm_tick (id e n : Nat) : (s.countPm id e n).tick = s.tick := rfl
@[simp] theorem countPm_threads (id e n : Nat) : (s.countPm id e n).threads = s.threads := rfl
@[simp] theorem countPm_launches (id e n : Nat) : (s.countPm id e n).launches = s.launches := rfl
@[simp] theorem countPm_saved (id e n : Nat) : (s.countPm id e n).saved = s.saved := rfl
@[simp] theorem countPm_ops (id e n : Nat) : (s.countPm id e n).ops = s.ops := rfl
@[simp] theorem countPm_ms (id e n : Nat) : (s.countPm id e n).ms = s.ms := rfl
@[simp] theorem countPm_front (id e n : Nat) : (s.countPm id e n).front = s.front := rfl
@[simp] theorem countPm_ver (id e n : Nat) : (s.countPm id e n).ver = s.ver := rfl
@[simp] theorem countPm_coll (id e n : Nat) : (s.countPm id e n).coll = s.coll := rfl
@[simp] theorem countPm_eng (id e n : Nat) : (s.countPm id e n).eng = s.eng := rfl
@[simp] theorem countPm_mgmt (id e n : Nat) : (s.countPm id e n).mgmt = s.mgmt := rfl
@[simp] theorem countPm_lost (id e n : Nat) : (s.countPm id e n).lost = s.lost := rfl
@[simp] theorem countPm_pending (id e n : Nat) : (s.countPm id e n).pending = s.pending := rfl
@[simp] theorem countPm_penen (id e n : Nat) : (s.countPm id e n).penen = s.penen := rfl
@[simp] theorem countPm_power (id e n : Nat) : (s.countPm id e n).power = s.power := rfl
@[simp] theorem countPm_tags (id e n : Nat) : (s.countPm id e n).tags = s.tags := rfl
@[simp] theorem countPm_halt (id e n : Nat) : (s.countPm id e n).halt = s.halt := rfl
@[simp] theorem countPm_lull (id e n : Nat) : (s.countPm id e n).lull = s.lull := rfl
@[simp] theorem countPm_eddy (id e n : Nat) : (s.countPm id e n).eddy = s.eddy := rfl
@[simp] theorem countPm_outbox (id e n : Nat) : (s.countPm id e n).outbox = s.outbox := rfl
@[simp] theorem countPm_agenda (id e n : Nat) : (s.countPm id e n).agenda = s.agenda := rfl
@[simp] theorem countPm_issuing (id e n : Nat) : (s.countPm id e n).issuing = s.issuing := rfl
@[simp] theorem countPm_slots (id e n : Nat) : (s.countPm id e n).slots = s.slots := rfl
@[simp] theorem countPm_nextId (id e n : Nat) : (s.countPm id e n).nextId = s.nextId := rfl
@[simp] theorem countPm_freeCount (id e n : Nat) : (s.countPm id e n).freeCount = s.freeCount := rfl
@[simp] theorem countPm_heldWrites (id e n : Nat) : (s.countPm id e n).heldWrites = s.heldWrites := rfl
@[simp] theorem countPm_heldMsgs (id e n : Nat) : (s.countPm id e n).heldMsgs = s.heldMsgs := rfl
@[simp] theorem countPm_heldHost (id e n : Nat) : (s.countPm id e n).heldHost = s.heldHost := rfl
@[simp] theorem countPm_corrected (id e n : Nat) : (s.countPm id e n).corrected = s.corrected := rfl

/-! ## State.shareMask: writes `threads` alone -/

@[simp] theorem shareMask_tick (t : Thread) (w : Word) (k : Nat) : (s.shareMask t w k).tick = s.tick := rfl
@[simp] theorem shareMask_teams (t : Thread) (w : Word) (k : Nat) : (s.shareMask t w k).teams = s.teams := rfl
@[simp] theorem shareMask_launches (t : Thread) (w : Word) (k : Nat) : (s.shareMask t w k).launches = s.launches := rfl
@[simp] theorem shareMask_saved (t : Thread) (w : Word) (k : Nat) : (s.shareMask t w k).saved = s.saved := rfl
@[simp] theorem shareMask_ops (t : Thread) (w : Word) (k : Nat) : (s.shareMask t w k).ops = s.ops := rfl
@[simp] theorem shareMask_ms (t : Thread) (w : Word) (k : Nat) : (s.shareMask t w k).ms = s.ms := rfl
@[simp] theorem shareMask_front (t : Thread) (w : Word) (k : Nat) : (s.shareMask t w k).front = s.front := rfl
@[simp] theorem shareMask_ver (t : Thread) (w : Word) (k : Nat) : (s.shareMask t w k).ver = s.ver := rfl
@[simp] theorem shareMask_coll (t : Thread) (w : Word) (k : Nat) : (s.shareMask t w k).coll = s.coll := rfl
@[simp] theorem shareMask_eng (t : Thread) (w : Word) (k : Nat) : (s.shareMask t w k).eng = s.eng := rfl
@[simp] theorem shareMask_mgmt (t : Thread) (w : Word) (k : Nat) : (s.shareMask t w k).mgmt = s.mgmt := rfl
@[simp] theorem shareMask_lost (t : Thread) (w : Word) (k : Nat) : (s.shareMask t w k).lost = s.lost := rfl
@[simp] theorem shareMask_pending (t : Thread) (w : Word) (k : Nat) : (s.shareMask t w k).pending = s.pending := rfl
@[simp] theorem shareMask_penen (t : Thread) (w : Word) (k : Nat) : (s.shareMask t w k).penen = s.penen := rfl
@[simp] theorem shareMask_power (t : Thread) (w : Word) (k : Nat) : (s.shareMask t w k).power = s.power := rfl
@[simp] theorem shareMask_tags (t : Thread) (w : Word) (k : Nat) : (s.shareMask t w k).tags = s.tags := rfl
@[simp] theorem shareMask_halt (t : Thread) (w : Word) (k : Nat) : (s.shareMask t w k).halt = s.halt := rfl
@[simp] theorem shareMask_lull (t : Thread) (w : Word) (k : Nat) : (s.shareMask t w k).lull = s.lull := rfl
@[simp] theorem shareMask_eddy (t : Thread) (w : Word) (k : Nat) : (s.shareMask t w k).eddy = s.eddy := rfl
@[simp] theorem shareMask_outbox (t : Thread) (w : Word) (k : Nat) : (s.shareMask t w k).outbox = s.outbox := rfl
@[simp] theorem shareMask_agenda (t : Thread) (w : Word) (k : Nat) : (s.shareMask t w k).agenda = s.agenda := rfl
@[simp] theorem shareMask_issuing (t : Thread) (w : Word) (k : Nat) : (s.shareMask t w k).issuing = s.issuing := rfl
@[simp] theorem shareMask_slots (t : Thread) (w : Word) (k : Nat) : (s.shareMask t w k).slots = s.slots := rfl
@[simp] theorem shareMask_nextId (t : Thread) (w : Word) (k : Nat) : (s.shareMask t w k).nextId = s.nextId := rfl
@[simp] theorem shareMask_freeCount (t : Thread) (w : Word) (k : Nat) : (s.shareMask t w k).freeCount = s.freeCount := rfl
@[simp] theorem shareMask_heldWrites (t : Thread) (w : Word) (k : Nat) : (s.shareMask t w k).heldWrites = s.heldWrites := rfl
@[simp] theorem shareMask_heldMsgs (t : Thread) (w : Word) (k : Nat) : (s.shareMask t w k).heldMsgs = s.heldMsgs := rfl
@[simp] theorem shareMask_heldHost (t : Thread) (w : Word) (k : Nat) : (s.shareMask t w k).heldHost = s.heldHost := rfl
@[simp] theorem shareMask_corrected (t : Thread) (w : Word) (k : Nat) : (s.shareMask t w k).corrected = s.corrected := rfl

/-! ## State.setReg: writes `mgmt` alone -/

@[simp] theorem setReg_tick (off : Nat) (v : DWord) : (s.setReg off v).tick = s.tick := rfl
@[simp] theorem setReg_threads (off : Nat) (v : DWord) : (s.setReg off v).threads = s.threads := rfl
@[simp] theorem setReg_teams (off : Nat) (v : DWord) : (s.setReg off v).teams = s.teams := rfl
@[simp] theorem setReg_launches (off : Nat) (v : DWord) : (s.setReg off v).launches = s.launches := rfl
@[simp] theorem setReg_saved (off : Nat) (v : DWord) : (s.setReg off v).saved = s.saved := rfl
@[simp] theorem setReg_ops (off : Nat) (v : DWord) : (s.setReg off v).ops = s.ops := rfl
@[simp] theorem setReg_ms (off : Nat) (v : DWord) : (s.setReg off v).ms = s.ms := rfl
@[simp] theorem setReg_front (off : Nat) (v : DWord) : (s.setReg off v).front = s.front := rfl
@[simp] theorem setReg_ver (off : Nat) (v : DWord) : (s.setReg off v).ver = s.ver := rfl
@[simp] theorem setReg_coll (off : Nat) (v : DWord) : (s.setReg off v).coll = s.coll := rfl
@[simp] theorem setReg_eng (off : Nat) (v : DWord) : (s.setReg off v).eng = s.eng := rfl
@[simp] theorem setReg_lost (off : Nat) (v : DWord) : (s.setReg off v).lost = s.lost := rfl
@[simp] theorem setReg_pending (off : Nat) (v : DWord) : (s.setReg off v).pending = s.pending := rfl
@[simp] theorem setReg_penen (off : Nat) (v : DWord) : (s.setReg off v).penen = s.penen := rfl
@[simp] theorem setReg_power (off : Nat) (v : DWord) : (s.setReg off v).power = s.power := rfl
@[simp] theorem setReg_tags (off : Nat) (v : DWord) : (s.setReg off v).tags = s.tags := rfl
@[simp] theorem setReg_halt (off : Nat) (v : DWord) : (s.setReg off v).halt = s.halt := rfl
@[simp] theorem setReg_lull (off : Nat) (v : DWord) : (s.setReg off v).lull = s.lull := rfl
@[simp] theorem setReg_eddy (off : Nat) (v : DWord) : (s.setReg off v).eddy = s.eddy := rfl
@[simp] theorem setReg_outbox (off : Nat) (v : DWord) : (s.setReg off v).outbox = s.outbox := rfl
@[simp] theorem setReg_agenda (off : Nat) (v : DWord) : (s.setReg off v).agenda = s.agenda := rfl
@[simp] theorem setReg_issuing (off : Nat) (v : DWord) : (s.setReg off v).issuing = s.issuing := rfl
@[simp] theorem setReg_slots (off : Nat) (v : DWord) : (s.setReg off v).slots = s.slots := rfl
@[simp] theorem setReg_nextId (off : Nat) (v : DWord) : (s.setReg off v).nextId = s.nextId := rfl
@[simp] theorem setReg_freeCount (off : Nat) (v : DWord) : (s.setReg off v).freeCount = s.freeCount := rfl
@[simp] theorem setReg_heldWrites (off : Nat) (v : DWord) : (s.setReg off v).heldWrites = s.heldWrites := rfl
@[simp] theorem setReg_heldMsgs (off : Nat) (v : DWord) : (s.setReg off v).heldMsgs = s.heldMsgs := rfl
@[simp] theorem setReg_heldHost (off : Nat) (v : DWord) : (s.setReg off v).heldHost = s.heldHost := rfl
@[simp] theorem setReg_corrected (off : Nat) (v : DWord) : (s.setReg off v).corrected = s.corrected := rfl

/-! ## State.setBank: writes `ms` alone -/

@[simp] theorem setBank_tick (b : Bank) : (s.setBank b).tick = s.tick := rfl
@[simp] theorem setBank_threads (b : Bank) : (s.setBank b).threads = s.threads := rfl
@[simp] theorem setBank_teams (b : Bank) : (s.setBank b).teams = s.teams := rfl
@[simp] theorem setBank_launches (b : Bank) : (s.setBank b).launches = s.launches := rfl
@[simp] theorem setBank_saved (b : Bank) : (s.setBank b).saved = s.saved := rfl
@[simp] theorem setBank_ops (b : Bank) : (s.setBank b).ops = s.ops := rfl
@[simp] theorem setBank_front (b : Bank) : (s.setBank b).front = s.front := rfl
@[simp] theorem setBank_ver (b : Bank) : (s.setBank b).ver = s.ver := rfl
@[simp] theorem setBank_coll (b : Bank) : (s.setBank b).coll = s.coll := rfl
@[simp] theorem setBank_eng (b : Bank) : (s.setBank b).eng = s.eng := rfl
@[simp] theorem setBank_mgmt (b : Bank) : (s.setBank b).mgmt = s.mgmt := rfl
@[simp] theorem setBank_lost (b : Bank) : (s.setBank b).lost = s.lost := rfl
@[simp] theorem setBank_pending (b : Bank) : (s.setBank b).pending = s.pending := rfl
@[simp] theorem setBank_penen (b : Bank) : (s.setBank b).penen = s.penen := rfl
@[simp] theorem setBank_power (b : Bank) : (s.setBank b).power = s.power := rfl
@[simp] theorem setBank_tags (b : Bank) : (s.setBank b).tags = s.tags := rfl
@[simp] theorem setBank_halt (b : Bank) : (s.setBank b).halt = s.halt := rfl
@[simp] theorem setBank_lull (b : Bank) : (s.setBank b).lull = s.lull := rfl
@[simp] theorem setBank_eddy (b : Bank) : (s.setBank b).eddy = s.eddy := rfl
@[simp] theorem setBank_outbox (b : Bank) : (s.setBank b).outbox = s.outbox := rfl
@[simp] theorem setBank_agenda (b : Bank) : (s.setBank b).agenda = s.agenda := rfl
@[simp] theorem setBank_issuing (b : Bank) : (s.setBank b).issuing = s.issuing := rfl
@[simp] theorem setBank_slots (b : Bank) : (s.setBank b).slots = s.slots := rfl
@[simp] theorem setBank_nextId (b : Bank) : (s.setBank b).nextId = s.nextId := rfl
@[simp] theorem setBank_freeCount (b : Bank) : (s.setBank b).freeCount = s.freeCount := rfl
@[simp] theorem setBank_heldWrites (b : Bank) : (s.setBank b).heldWrites = s.heldWrites := rfl
@[simp] theorem setBank_heldMsgs (b : Bank) : (s.setBank b).heldMsgs = s.heldMsgs := rfl
@[simp] theorem setBank_heldHost (b : Bank) : (s.setBank b).heldHost = s.heldHost := rfl
@[simp] theorem setBank_corrected (b : Bank) : (s.setBank b).corrected = s.corrected := rfl

/-! ## State.pocWrite: writes `ms` alone -/

@[simp] theorem pocWrite_tick (key : Nat) (l : List Byte) : (s.pocWrite key l).tick = s.tick := rfl
@[simp] theorem pocWrite_threads (key : Nat) (l : List Byte) : (s.pocWrite key l).threads = s.threads := rfl
@[simp] theorem pocWrite_teams (key : Nat) (l : List Byte) : (s.pocWrite key l).teams = s.teams := rfl
@[simp] theorem pocWrite_launches (key : Nat) (l : List Byte) : (s.pocWrite key l).launches = s.launches := rfl
@[simp] theorem pocWrite_saved (key : Nat) (l : List Byte) : (s.pocWrite key l).saved = s.saved := rfl
@[simp] theorem pocWrite_ops (key : Nat) (l : List Byte) : (s.pocWrite key l).ops = s.ops := rfl
@[simp] theorem pocWrite_front (key : Nat) (l : List Byte) : (s.pocWrite key l).front = s.front := rfl
@[simp] theorem pocWrite_ver (key : Nat) (l : List Byte) : (s.pocWrite key l).ver = s.ver := rfl
@[simp] theorem pocWrite_coll (key : Nat) (l : List Byte) : (s.pocWrite key l).coll = s.coll := rfl
@[simp] theorem pocWrite_eng (key : Nat) (l : List Byte) : (s.pocWrite key l).eng = s.eng := rfl
@[simp] theorem pocWrite_mgmt (key : Nat) (l : List Byte) : (s.pocWrite key l).mgmt = s.mgmt := rfl
@[simp] theorem pocWrite_lost (key : Nat) (l : List Byte) : (s.pocWrite key l).lost = s.lost := rfl
@[simp] theorem pocWrite_pending (key : Nat) (l : List Byte) : (s.pocWrite key l).pending = s.pending := rfl
@[simp] theorem pocWrite_penen (key : Nat) (l : List Byte) : (s.pocWrite key l).penen = s.penen := rfl
@[simp] theorem pocWrite_power (key : Nat) (l : List Byte) : (s.pocWrite key l).power = s.power := rfl
@[simp] theorem pocWrite_tags (key : Nat) (l : List Byte) : (s.pocWrite key l).tags = s.tags := rfl
@[simp] theorem pocWrite_halt (key : Nat) (l : List Byte) : (s.pocWrite key l).halt = s.halt := rfl
@[simp] theorem pocWrite_lull (key : Nat) (l : List Byte) : (s.pocWrite key l).lull = s.lull := rfl
@[simp] theorem pocWrite_eddy (key : Nat) (l : List Byte) : (s.pocWrite key l).eddy = s.eddy := rfl
@[simp] theorem pocWrite_outbox (key : Nat) (l : List Byte) : (s.pocWrite key l).outbox = s.outbox := rfl
@[simp] theorem pocWrite_agenda (key : Nat) (l : List Byte) : (s.pocWrite key l).agenda = s.agenda := rfl
@[simp] theorem pocWrite_issuing (key : Nat) (l : List Byte) : (s.pocWrite key l).issuing = s.issuing := rfl
@[simp] theorem pocWrite_slots (key : Nat) (l : List Byte) : (s.pocWrite key l).slots = s.slots := rfl
@[simp] theorem pocWrite_nextId (key : Nat) (l : List Byte) : (s.pocWrite key l).nextId = s.nextId := rfl
@[simp] theorem pocWrite_freeCount (key : Nat) (l : List Byte) : (s.pocWrite key l).freeCount = s.freeCount := rfl
@[simp] theorem pocWrite_heldWrites (key : Nat) (l : List Byte) : (s.pocWrite key l).heldWrites = s.heldWrites := rfl
@[simp] theorem pocWrite_heldMsgs (key : Nat) (l : List Byte) : (s.pocWrite key l).heldMsgs = s.heldMsgs := rfl
@[simp] theorem pocWrite_heldHost (key : Nat) (l : List Byte) : (s.pocWrite key l).heldHost = s.heldHost := rfl
@[simp] theorem pocWrite_corrected (key : Nat) (l : List Byte) : (s.pocWrite key l).corrected = s.corrected := rfl

/-! ## State.setQueue: writes `front` alone -/

@[simp] theorem setQueue_tick (q : Queue) : (s.setQueue q).tick = s.tick := rfl
@[simp] theorem setQueue_threads (q : Queue) : (s.setQueue q).threads = s.threads := rfl
@[simp] theorem setQueue_teams (q : Queue) : (s.setQueue q).teams = s.teams := rfl
@[simp] theorem setQueue_launches (q : Queue) : (s.setQueue q).launches = s.launches := rfl
@[simp] theorem setQueue_saved (q : Queue) : (s.setQueue q).saved = s.saved := rfl
@[simp] theorem setQueue_ops (q : Queue) : (s.setQueue q).ops = s.ops := rfl
@[simp] theorem setQueue_ms (q : Queue) : (s.setQueue q).ms = s.ms := rfl
@[simp] theorem setQueue_ver (q : Queue) : (s.setQueue q).ver = s.ver := rfl
@[simp] theorem setQueue_coll (q : Queue) : (s.setQueue q).coll = s.coll := rfl
@[simp] theorem setQueue_eng (q : Queue) : (s.setQueue q).eng = s.eng := rfl
@[simp] theorem setQueue_mgmt (q : Queue) : (s.setQueue q).mgmt = s.mgmt := rfl
@[simp] theorem setQueue_lost (q : Queue) : (s.setQueue q).lost = s.lost := rfl
@[simp] theorem setQueue_pending (q : Queue) : (s.setQueue q).pending = s.pending := rfl
@[simp] theorem setQueue_penen (q : Queue) : (s.setQueue q).penen = s.penen := rfl
@[simp] theorem setQueue_power (q : Queue) : (s.setQueue q).power = s.power := rfl
@[simp] theorem setQueue_tags (q : Queue) : (s.setQueue q).tags = s.tags := rfl
@[simp] theorem setQueue_halt (q : Queue) : (s.setQueue q).halt = s.halt := rfl
@[simp] theorem setQueue_lull (q : Queue) : (s.setQueue q).lull = s.lull := rfl
@[simp] theorem setQueue_eddy (q : Queue) : (s.setQueue q).eddy = s.eddy := rfl
@[simp] theorem setQueue_outbox (q : Queue) : (s.setQueue q).outbox = s.outbox := rfl
@[simp] theorem setQueue_agenda (q : Queue) : (s.setQueue q).agenda = s.agenda := rfl
@[simp] theorem setQueue_issuing (q : Queue) : (s.setQueue q).issuing = s.issuing := rfl
@[simp] theorem setQueue_slots (q : Queue) : (s.setQueue q).slots = s.slots := rfl
@[simp] theorem setQueue_nextId (q : Queue) : (s.setQueue q).nextId = s.nextId := rfl
@[simp] theorem setQueue_freeCount (q : Queue) : (s.setQueue q).freeCount = s.freeCount := rfl
@[simp] theorem setQueue_heldWrites (q : Queue) : (s.setQueue q).heldWrites = s.heldWrites := rfl
@[simp] theorem setQueue_heldMsgs (q : Queue) : (s.setQueue q).heldMsgs = s.heldMsgs := rfl
@[simp] theorem setQueue_heldHost (q : Queue) : (s.setQueue q).heldHost = s.heldHost := rfl
@[simp] theorem setQueue_corrected (q : Queue) : (s.setQueue q).corrected = s.corrected := rfl

/-! ## State.noteTurn: writes `front` alone -/

@[simp] theorem noteTurn_tick (q : Queue) : (s.noteTurn q).tick = s.tick := rfl
@[simp] theorem noteTurn_threads (q : Queue) : (s.noteTurn q).threads = s.threads := rfl
@[simp] theorem noteTurn_teams (q : Queue) : (s.noteTurn q).teams = s.teams := rfl
@[simp] theorem noteTurn_launches (q : Queue) : (s.noteTurn q).launches = s.launches := rfl
@[simp] theorem noteTurn_saved (q : Queue) : (s.noteTurn q).saved = s.saved := rfl
@[simp] theorem noteTurn_ops (q : Queue) : (s.noteTurn q).ops = s.ops := rfl
@[simp] theorem noteTurn_ms (q : Queue) : (s.noteTurn q).ms = s.ms := rfl
@[simp] theorem noteTurn_ver (q : Queue) : (s.noteTurn q).ver = s.ver := rfl
@[simp] theorem noteTurn_coll (q : Queue) : (s.noteTurn q).coll = s.coll := rfl
@[simp] theorem noteTurn_eng (q : Queue) : (s.noteTurn q).eng = s.eng := rfl
@[simp] theorem noteTurn_mgmt (q : Queue) : (s.noteTurn q).mgmt = s.mgmt := rfl
@[simp] theorem noteTurn_lost (q : Queue) : (s.noteTurn q).lost = s.lost := rfl
@[simp] theorem noteTurn_pending (q : Queue) : (s.noteTurn q).pending = s.pending := rfl
@[simp] theorem noteTurn_penen (q : Queue) : (s.noteTurn q).penen = s.penen := rfl
@[simp] theorem noteTurn_power (q : Queue) : (s.noteTurn q).power = s.power := rfl
@[simp] theorem noteTurn_tags (q : Queue) : (s.noteTurn q).tags = s.tags := rfl
@[simp] theorem noteTurn_halt (q : Queue) : (s.noteTurn q).halt = s.halt := rfl
@[simp] theorem noteTurn_lull (q : Queue) : (s.noteTurn q).lull = s.lull := rfl
@[simp] theorem noteTurn_eddy (q : Queue) : (s.noteTurn q).eddy = s.eddy := rfl
@[simp] theorem noteTurn_outbox (q : Queue) : (s.noteTurn q).outbox = s.outbox := rfl
@[simp] theorem noteTurn_agenda (q : Queue) : (s.noteTurn q).agenda = s.agenda := rfl
@[simp] theorem noteTurn_issuing (q : Queue) : (s.noteTurn q).issuing = s.issuing := rfl
@[simp] theorem noteTurn_slots (q : Queue) : (s.noteTurn q).slots = s.slots := rfl
@[simp] theorem noteTurn_nextId (q : Queue) : (s.noteTurn q).nextId = s.nextId := rfl
@[simp] theorem noteTurn_freeCount (q : Queue) : (s.noteTurn q).freeCount = s.freeCount := rfl
@[simp] theorem noteTurn_heldWrites (q : Queue) : (s.noteTurn q).heldWrites = s.heldWrites := rfl
@[simp] theorem noteTurn_heldMsgs (q : Queue) : (s.noteTurn q).heldMsgs = s.heldMsgs := rfl
@[simp] theorem noteTurn_heldHost (q : Queue) : (s.noteTurn q).heldHost = s.heldHost := rfl
@[simp] theorem noteTurn_corrected (q : Queue) : (s.noteTurn q).corrected = s.corrected := rfl

/-! ## State.setVentry: writes `ver` alone -/

@[simp] theorem setVentry_tick (e : VEntry) : (s.setVentry e).tick = s.tick := rfl
@[simp] theorem setVentry_threads (e : VEntry) : (s.setVentry e).threads = s.threads := rfl
@[simp] theorem setVentry_teams (e : VEntry) : (s.setVentry e).teams = s.teams := rfl
@[simp] theorem setVentry_launches (e : VEntry) : (s.setVentry e).launches = s.launches := rfl
@[simp] theorem setVentry_saved (e : VEntry) : (s.setVentry e).saved = s.saved := rfl
@[simp] theorem setVentry_ops (e : VEntry) : (s.setVentry e).ops = s.ops := rfl
@[simp] theorem setVentry_ms (e : VEntry) : (s.setVentry e).ms = s.ms := rfl
@[simp] theorem setVentry_front (e : VEntry) : (s.setVentry e).front = s.front := rfl
@[simp] theorem setVentry_coll (e : VEntry) : (s.setVentry e).coll = s.coll := rfl
@[simp] theorem setVentry_eng (e : VEntry) : (s.setVentry e).eng = s.eng := rfl
@[simp] theorem setVentry_mgmt (e : VEntry) : (s.setVentry e).mgmt = s.mgmt := rfl
@[simp] theorem setVentry_lost (e : VEntry) : (s.setVentry e).lost = s.lost := rfl
@[simp] theorem setVentry_pending (e : VEntry) : (s.setVentry e).pending = s.pending := rfl
@[simp] theorem setVentry_penen (e : VEntry) : (s.setVentry e).penen = s.penen := rfl
@[simp] theorem setVentry_power (e : VEntry) : (s.setVentry e).power = s.power := rfl
@[simp] theorem setVentry_tags (e : VEntry) : (s.setVentry e).tags = s.tags := rfl
@[simp] theorem setVentry_halt (e : VEntry) : (s.setVentry e).halt = s.halt := rfl
@[simp] theorem setVentry_lull (e : VEntry) : (s.setVentry e).lull = s.lull := rfl
@[simp] theorem setVentry_eddy (e : VEntry) : (s.setVentry e).eddy = s.eddy := rfl
@[simp] theorem setVentry_outbox (e : VEntry) : (s.setVentry e).outbox = s.outbox := rfl
@[simp] theorem setVentry_agenda (e : VEntry) : (s.setVentry e).agenda = s.agenda := rfl
@[simp] theorem setVentry_issuing (e : VEntry) : (s.setVentry e).issuing = s.issuing := rfl
@[simp] theorem setVentry_slots (e : VEntry) : (s.setVentry e).slots = s.slots := rfl
@[simp] theorem setVentry_nextId (e : VEntry) : (s.setVentry e).nextId = s.nextId := rfl
@[simp] theorem setVentry_freeCount (e : VEntry) : (s.setVentry e).freeCount = s.freeCount := rfl
@[simp] theorem setVentry_heldWrites (e : VEntry) : (s.setVentry e).heldWrites = s.heldWrites := rfl
@[simp] theorem setVentry_heldMsgs (e : VEntry) : (s.setVentry e).heldMsgs = s.heldMsgs := rfl
@[simp] theorem setVentry_heldHost (e : VEntry) : (s.setVentry e).heldHost = s.heldHost := rfl
@[simp] theorem setVentry_corrected (e : VEntry) : (s.setVentry e).corrected = s.corrected := rfl

/-! ## State.setPins: writes `ver` alone -/

@[simp] theorem setPins_tick (l : List Pin) : (s.setPins l).tick = s.tick := rfl
@[simp] theorem setPins_threads (l : List Pin) : (s.setPins l).threads = s.threads := rfl
@[simp] theorem setPins_teams (l : List Pin) : (s.setPins l).teams = s.teams := rfl
@[simp] theorem setPins_launches (l : List Pin) : (s.setPins l).launches = s.launches := rfl
@[simp] theorem setPins_saved (l : List Pin) : (s.setPins l).saved = s.saved := rfl
@[simp] theorem setPins_ops (l : List Pin) : (s.setPins l).ops = s.ops := rfl
@[simp] theorem setPins_ms (l : List Pin) : (s.setPins l).ms = s.ms := rfl
@[simp] theorem setPins_front (l : List Pin) : (s.setPins l).front = s.front := rfl
@[simp] theorem setPins_coll (l : List Pin) : (s.setPins l).coll = s.coll := rfl
@[simp] theorem setPins_eng (l : List Pin) : (s.setPins l).eng = s.eng := rfl
@[simp] theorem setPins_mgmt (l : List Pin) : (s.setPins l).mgmt = s.mgmt := rfl
@[simp] theorem setPins_lost (l : List Pin) : (s.setPins l).lost = s.lost := rfl
@[simp] theorem setPins_pending (l : List Pin) : (s.setPins l).pending = s.pending := rfl
@[simp] theorem setPins_penen (l : List Pin) : (s.setPins l).penen = s.penen := rfl
@[simp] theorem setPins_power (l : List Pin) : (s.setPins l).power = s.power := rfl
@[simp] theorem setPins_tags (l : List Pin) : (s.setPins l).tags = s.tags := rfl
@[simp] theorem setPins_halt (l : List Pin) : (s.setPins l).halt = s.halt := rfl
@[simp] theorem setPins_lull (l : List Pin) : (s.setPins l).lull = s.lull := rfl
@[simp] theorem setPins_eddy (l : List Pin) : (s.setPins l).eddy = s.eddy := rfl
@[simp] theorem setPins_outbox (l : List Pin) : (s.setPins l).outbox = s.outbox := rfl
@[simp] theorem setPins_agenda (l : List Pin) : (s.setPins l).agenda = s.agenda := rfl
@[simp] theorem setPins_issuing (l : List Pin) : (s.setPins l).issuing = s.issuing := rfl
@[simp] theorem setPins_slots (l : List Pin) : (s.setPins l).slots = s.slots := rfl
@[simp] theorem setPins_nextId (l : List Pin) : (s.setPins l).nextId = s.nextId := rfl
@[simp] theorem setPins_freeCount (l : List Pin) : (s.setPins l).freeCount = s.freeCount := rfl
@[simp] theorem setPins_heldWrites (l : List Pin) : (s.setPins l).heldWrites = s.heldWrites := rfl
@[simp] theorem setPins_heldMsgs (l : List Pin) : (s.setPins l).heldMsgs = s.heldMsgs := rfl
@[simp] theorem setPins_heldHost (l : List Pin) : (s.setPins l).heldHost = s.heldHost := rfl
@[simp] theorem setPins_corrected (l : List Pin) : (s.setPins l).corrected = s.corrected := rfl

/-! ## State.setInstalls: writes `ver` alone -/

@[simp] theorem setInstalls_tick (l : List Install) : (s.setInstalls l).tick = s.tick := rfl
@[simp] theorem setInstalls_threads (l : List Install) : (s.setInstalls l).threads = s.threads := rfl
@[simp] theorem setInstalls_teams (l : List Install) : (s.setInstalls l).teams = s.teams := rfl
@[simp] theorem setInstalls_launches (l : List Install) : (s.setInstalls l).launches = s.launches := rfl
@[simp] theorem setInstalls_saved (l : List Install) : (s.setInstalls l).saved = s.saved := rfl
@[simp] theorem setInstalls_ops (l : List Install) : (s.setInstalls l).ops = s.ops := rfl
@[simp] theorem setInstalls_ms (l : List Install) : (s.setInstalls l).ms = s.ms := rfl
@[simp] theorem setInstalls_front (l : List Install) : (s.setInstalls l).front = s.front := rfl
@[simp] theorem setInstalls_coll (l : List Install) : (s.setInstalls l).coll = s.coll := rfl
@[simp] theorem setInstalls_eng (l : List Install) : (s.setInstalls l).eng = s.eng := rfl
@[simp] theorem setInstalls_mgmt (l : List Install) : (s.setInstalls l).mgmt = s.mgmt := rfl
@[simp] theorem setInstalls_lost (l : List Install) : (s.setInstalls l).lost = s.lost := rfl
@[simp] theorem setInstalls_pending (l : List Install) : (s.setInstalls l).pending = s.pending := rfl
@[simp] theorem setInstalls_penen (l : List Install) : (s.setInstalls l).penen = s.penen := rfl
@[simp] theorem setInstalls_power (l : List Install) : (s.setInstalls l).power = s.power := rfl
@[simp] theorem setInstalls_tags (l : List Install) : (s.setInstalls l).tags = s.tags := rfl
@[simp] theorem setInstalls_halt (l : List Install) : (s.setInstalls l).halt = s.halt := rfl
@[simp] theorem setInstalls_lull (l : List Install) : (s.setInstalls l).lull = s.lull := rfl
@[simp] theorem setInstalls_eddy (l : List Install) : (s.setInstalls l).eddy = s.eddy := rfl
@[simp] theorem setInstalls_outbox (l : List Install) : (s.setInstalls l).outbox = s.outbox := rfl
@[simp] theorem setInstalls_agenda (l : List Install) : (s.setInstalls l).agenda = s.agenda := rfl
@[simp] theorem setInstalls_issuing (l : List Install) : (s.setInstalls l).issuing = s.issuing := rfl
@[simp] theorem setInstalls_slots (l : List Install) : (s.setInstalls l).slots = s.slots := rfl
@[simp] theorem setInstalls_nextId (l : List Install) : (s.setInstalls l).nextId = s.nextId := rfl
@[simp] theorem setInstalls_freeCount (l : List Install) : (s.setInstalls l).freeCount = s.freeCount := rfl
@[simp] theorem setInstalls_heldWrites (l : List Install) : (s.setInstalls l).heldWrites = s.heldWrites := rfl
@[simp] theorem setInstalls_heldMsgs (l : List Install) : (s.setInstalls l).heldMsgs = s.heldMsgs := rfl
@[simp] theorem setInstalls_heldHost (l : List Install) : (s.setInstalls l).heldHost = s.heldHost := rfl
@[simp] theorem setInstalls_corrected (l : List Install) : (s.setInstalls l).corrected = s.corrected := rfl

/-! ## State.modPeer: writes `ver` and `threads` alone -/

@[simp] theorem modPeer_tick (j w : Nat) (f : PEntry → PEntry) : (s.modPeer j w f).tick = s.tick := rfl
@[simp] theorem modPeer_teams (j w : Nat) (f : PEntry → PEntry) : (s.modPeer j w f).teams = s.teams := rfl
@[simp] theorem modPeer_launches (j w : Nat) (f : PEntry → PEntry) : (s.modPeer j w f).launches = s.launches := rfl
@[simp] theorem modPeer_saved (j w : Nat) (f : PEntry → PEntry) : (s.modPeer j w f).saved = s.saved := rfl
@[simp] theorem modPeer_ops (j w : Nat) (f : PEntry → PEntry) : (s.modPeer j w f).ops = s.ops := rfl
@[simp] theorem modPeer_ms (j w : Nat) (f : PEntry → PEntry) : (s.modPeer j w f).ms = s.ms := rfl
@[simp] theorem modPeer_front (j w : Nat) (f : PEntry → PEntry) : (s.modPeer j w f).front = s.front := rfl
@[simp] theorem modPeer_coll (j w : Nat) (f : PEntry → PEntry) : (s.modPeer j w f).coll = s.coll := rfl
@[simp] theorem modPeer_eng (j w : Nat) (f : PEntry → PEntry) : (s.modPeer j w f).eng = s.eng := rfl
@[simp] theorem modPeer_mgmt (j w : Nat) (f : PEntry → PEntry) : (s.modPeer j w f).mgmt = s.mgmt := rfl
@[simp] theorem modPeer_lost (j w : Nat) (f : PEntry → PEntry) : (s.modPeer j w f).lost = s.lost := rfl
@[simp] theorem modPeer_pending (j w : Nat) (f : PEntry → PEntry) : (s.modPeer j w f).pending = s.pending := rfl
@[simp] theorem modPeer_penen (j w : Nat) (f : PEntry → PEntry) : (s.modPeer j w f).penen = s.penen := rfl
@[simp] theorem modPeer_power (j w : Nat) (f : PEntry → PEntry) : (s.modPeer j w f).power = s.power := rfl
@[simp] theorem modPeer_tags (j w : Nat) (f : PEntry → PEntry) : (s.modPeer j w f).tags = s.tags := rfl
@[simp] theorem modPeer_halt (j w : Nat) (f : PEntry → PEntry) : (s.modPeer j w f).halt = s.halt := rfl
@[simp] theorem modPeer_lull (j w : Nat) (f : PEntry → PEntry) : (s.modPeer j w f).lull = s.lull := rfl
@[simp] theorem modPeer_eddy (j w : Nat) (f : PEntry → PEntry) : (s.modPeer j w f).eddy = s.eddy := rfl
@[simp] theorem modPeer_outbox (j w : Nat) (f : PEntry → PEntry) : (s.modPeer j w f).outbox = s.outbox := rfl
@[simp] theorem modPeer_agenda (j w : Nat) (f : PEntry → PEntry) : (s.modPeer j w f).agenda = s.agenda := rfl
@[simp] theorem modPeer_issuing (j w : Nat) (f : PEntry → PEntry) : (s.modPeer j w f).issuing = s.issuing := rfl
@[simp] theorem modPeer_slots (j w : Nat) (f : PEntry → PEntry) : (s.modPeer j w f).slots = s.slots := rfl
@[simp] theorem modPeer_nextId (j w : Nat) (f : PEntry → PEntry) : (s.modPeer j w f).nextId = s.nextId := rfl
@[simp] theorem modPeer_freeCount (j w : Nat) (f : PEntry → PEntry) : (s.modPeer j w f).freeCount = s.freeCount := rfl
@[simp] theorem modPeer_heldWrites (j w : Nat) (f : PEntry → PEntry) : (s.modPeer j w f).heldWrites = s.heldWrites := rfl
@[simp] theorem modPeer_heldMsgs (j w : Nat) (f : PEntry → PEntry) : (s.modPeer j w f).heldMsgs = s.heldMsgs := rfl
@[simp] theorem modPeer_heldHost (j w : Nat) (f : PEntry → PEntry) : (s.modPeer j w f).heldHost = s.heldHost := rfl
@[simp] theorem modPeer_corrected (j w : Nat) (f : PEntry → PEntry) : (s.modPeer j w f).corrected = s.corrected := rfl

/-! ## State.setStages: writes `coll` alone -/

@[simp] theorem setStages_tick (l : List Stage) : (s.setStages l).tick = s.tick := rfl
@[simp] theorem setStages_threads (l : List Stage) : (s.setStages l).threads = s.threads := rfl
@[simp] theorem setStages_teams (l : List Stage) : (s.setStages l).teams = s.teams := rfl
@[simp] theorem setStages_launches (l : List Stage) : (s.setStages l).launches = s.launches := rfl
@[simp] theorem setStages_saved (l : List Stage) : (s.setStages l).saved = s.saved := rfl
@[simp] theorem setStages_ops (l : List Stage) : (s.setStages l).ops = s.ops := rfl
@[simp] theorem setStages_ms (l : List Stage) : (s.setStages l).ms = s.ms := rfl
@[simp] theorem setStages_front (l : List Stage) : (s.setStages l).front = s.front := rfl
@[simp] theorem setStages_ver (l : List Stage) : (s.setStages l).ver = s.ver := rfl
@[simp] theorem setStages_eng (l : List Stage) : (s.setStages l).eng = s.eng := rfl
@[simp] theorem setStages_mgmt (l : List Stage) : (s.setStages l).mgmt = s.mgmt := rfl
@[simp] theorem setStages_lost (l : List Stage) : (s.setStages l).lost = s.lost := rfl
@[simp] theorem setStages_pending (l : List Stage) : (s.setStages l).pending = s.pending := rfl
@[simp] theorem setStages_penen (l : List Stage) : (s.setStages l).penen = s.penen := rfl
@[simp] theorem setStages_power (l : List Stage) : (s.setStages l).power = s.power := rfl
@[simp] theorem setStages_tags (l : List Stage) : (s.setStages l).tags = s.tags := rfl
@[simp] theorem setStages_halt (l : List Stage) : (s.setStages l).halt = s.halt := rfl
@[simp] theorem setStages_lull (l : List Stage) : (s.setStages l).lull = s.lull := rfl
@[simp] theorem setStages_eddy (l : List Stage) : (s.setStages l).eddy = s.eddy := rfl
@[simp] theorem setStages_outbox (l : List Stage) : (s.setStages l).outbox = s.outbox := rfl
@[simp] theorem setStages_agenda (l : List Stage) : (s.setStages l).agenda = s.agenda := rfl
@[simp] theorem setStages_issuing (l : List Stage) : (s.setStages l).issuing = s.issuing := rfl
@[simp] theorem setStages_slots (l : List Stage) : (s.setStages l).slots = s.slots := rfl
@[simp] theorem setStages_nextId (l : List Stage) : (s.setStages l).nextId = s.nextId := rfl
@[simp] theorem setStages_freeCount (l : List Stage) : (s.setStages l).freeCount = s.freeCount := rfl
@[simp] theorem setStages_heldWrites (l : List Stage) : (s.setStages l).heldWrites = s.heldWrites := rfl
@[simp] theorem setStages_heldMsgs (l : List Stage) : (s.setStages l).heldMsgs = s.heldMsgs := rfl
@[simp] theorem setStages_heldHost (l : List Stage) : (s.setStages l).heldHost = s.heldHost := rfl
@[simp] theorem setStages_corrected (l : List Stage) : (s.setStages l).corrected = s.corrected := rfl

/-! ## State.setRoot: writes `coll` alone -/

@[simp] theorem setRoot_tick (r : Root) : (s.setRoot r).tick = s.tick := rfl
@[simp] theorem setRoot_threads (r : Root) : (s.setRoot r).threads = s.threads := rfl
@[simp] theorem setRoot_teams (r : Root) : (s.setRoot r).teams = s.teams := rfl
@[simp] theorem setRoot_launches (r : Root) : (s.setRoot r).launches = s.launches := rfl
@[simp] theorem setRoot_saved (r : Root) : (s.setRoot r).saved = s.saved := rfl
@[simp] theorem setRoot_ops (r : Root) : (s.setRoot r).ops = s.ops := rfl
@[simp] theorem setRoot_ms (r : Root) : (s.setRoot r).ms = s.ms := rfl
@[simp] theorem setRoot_front (r : Root) : (s.setRoot r).front = s.front := rfl
@[simp] theorem setRoot_ver (r : Root) : (s.setRoot r).ver = s.ver := rfl
@[simp] theorem setRoot_eng (r : Root) : (s.setRoot r).eng = s.eng := rfl
@[simp] theorem setRoot_mgmt (r : Root) : (s.setRoot r).mgmt = s.mgmt := rfl
@[simp] theorem setRoot_lost (r : Root) : (s.setRoot r).lost = s.lost := rfl
@[simp] theorem setRoot_pending (r : Root) : (s.setRoot r).pending = s.pending := rfl
@[simp] theorem setRoot_penen (r : Root) : (s.setRoot r).penen = s.penen := rfl
@[simp] theorem setRoot_power (r : Root) : (s.setRoot r).power = s.power := rfl
@[simp] theorem setRoot_tags (r : Root) : (s.setRoot r).tags = s.tags := rfl
@[simp] theorem setRoot_halt (r : Root) : (s.setRoot r).halt = s.halt := rfl
@[simp] theorem setRoot_lull (r : Root) : (s.setRoot r).lull = s.lull := rfl
@[simp] theorem setRoot_eddy (r : Root) : (s.setRoot r).eddy = s.eddy := rfl
@[simp] theorem setRoot_outbox (r : Root) : (s.setRoot r).outbox = s.outbox := rfl
@[simp] theorem setRoot_agenda (r : Root) : (s.setRoot r).agenda = s.agenda := rfl
@[simp] theorem setRoot_issuing (r : Root) : (s.setRoot r).issuing = s.issuing := rfl
@[simp] theorem setRoot_slots (r : Root) : (s.setRoot r).slots = s.slots := rfl
@[simp] theorem setRoot_nextId (r : Root) : (s.setRoot r).nextId = s.nextId := rfl
@[simp] theorem setRoot_freeCount (r : Root) : (s.setRoot r).freeCount = s.freeCount := rfl
@[simp] theorem setRoot_heldWrites (r : Root) : (s.setRoot r).heldWrites = s.heldWrites := rfl
@[simp] theorem setRoot_heldMsgs (r : Root) : (s.setRoot r).heldMsgs = s.heldMsgs := rfl
@[simp] theorem setRoot_heldHost (r : Root) : (s.setRoot r).heldHost = s.heldHost := rfl
@[simp] theorem setRoot_corrected (r : Root) : (s.setRoot r).corrected = s.corrected := rfl

/-! ## State.setCopy: writes `eng` alone -/

@[simp] theorem setCopy_tick (k : TileCopy) : (s.setCopy k).tick = s.tick := rfl
@[simp] theorem setCopy_threads (k : TileCopy) : (s.setCopy k).threads = s.threads := rfl
@[simp] theorem setCopy_teams (k : TileCopy) : (s.setCopy k).teams = s.teams := rfl
@[simp] theorem setCopy_launches (k : TileCopy) : (s.setCopy k).launches = s.launches := rfl
@[simp] theorem setCopy_saved (k : TileCopy) : (s.setCopy k).saved = s.saved := rfl
@[simp] theorem setCopy_ops (k : TileCopy) : (s.setCopy k).ops = s.ops := rfl
@[simp] theorem setCopy_ms (k : TileCopy) : (s.setCopy k).ms = s.ms := rfl
@[simp] theorem setCopy_front (k : TileCopy) : (s.setCopy k).front = s.front := rfl
@[simp] theorem setCopy_ver (k : TileCopy) : (s.setCopy k).ver = s.ver := rfl
@[simp] theorem setCopy_coll (k : TileCopy) : (s.setCopy k).coll = s.coll := rfl
@[simp] theorem setCopy_mgmt (k : TileCopy) : (s.setCopy k).mgmt = s.mgmt := rfl
@[simp] theorem setCopy_lost (k : TileCopy) : (s.setCopy k).lost = s.lost := rfl
@[simp] theorem setCopy_pending (k : TileCopy) : (s.setCopy k).pending = s.pending := rfl
@[simp] theorem setCopy_penen (k : TileCopy) : (s.setCopy k).penen = s.penen := rfl
@[simp] theorem setCopy_power (k : TileCopy) : (s.setCopy k).power = s.power := rfl
@[simp] theorem setCopy_tags (k : TileCopy) : (s.setCopy k).tags = s.tags := rfl
@[simp] theorem setCopy_halt (k : TileCopy) : (s.setCopy k).halt = s.halt := rfl
@[simp] theorem setCopy_lull (k : TileCopy) : (s.setCopy k).lull = s.lull := rfl
@[simp] theorem setCopy_eddy (k : TileCopy) : (s.setCopy k).eddy = s.eddy := rfl
@[simp] theorem setCopy_outbox (k : TileCopy) : (s.setCopy k).outbox = s.outbox := rfl
@[simp] theorem setCopy_agenda (k : TileCopy) : (s.setCopy k).agenda = s.agenda := rfl
@[simp] theorem setCopy_issuing (k : TileCopy) : (s.setCopy k).issuing = s.issuing := rfl
@[simp] theorem setCopy_slots (k : TileCopy) : (s.setCopy k).slots = s.slots := rfl
@[simp] theorem setCopy_nextId (k : TileCopy) : (s.setCopy k).nextId = s.nextId := rfl
@[simp] theorem setCopy_freeCount (k : TileCopy) : (s.setCopy k).freeCount = s.freeCount := rfl
@[simp] theorem setCopy_heldWrites (k : TileCopy) : (s.setCopy k).heldWrites = s.heldWrites := rfl
@[simp] theorem setCopy_heldMsgs (k : TileCopy) : (s.setCopy k).heldMsgs = s.heldMsgs := rfl
@[simp] theorem setCopy_heldHost (k : TileCopy) : (s.setCopy k).heldHost = s.heldHost := rfl
@[simp] theorem setCopy_corrected (k : TileCopy) : (s.setCopy k).corrected = s.corrected := rfl

/-! ## State.addCopy: writes `eng` alone -/

@[simp] theorem addCopy_tick (k : TileCopy) : (s.addCopy k).tick = s.tick := rfl
@[simp] theorem addCopy_threads (k : TileCopy) : (s.addCopy k).threads = s.threads := rfl
@[simp] theorem addCopy_teams (k : TileCopy) : (s.addCopy k).teams = s.teams := rfl
@[simp] theorem addCopy_launches (k : TileCopy) : (s.addCopy k).launches = s.launches := rfl
@[simp] theorem addCopy_saved (k : TileCopy) : (s.addCopy k).saved = s.saved := rfl
@[simp] theorem addCopy_ops (k : TileCopy) : (s.addCopy k).ops = s.ops := rfl
@[simp] theorem addCopy_ms (k : TileCopy) : (s.addCopy k).ms = s.ms := rfl
@[simp] theorem addCopy_front (k : TileCopy) : (s.addCopy k).front = s.front := rfl
@[simp] theorem addCopy_ver (k : TileCopy) : (s.addCopy k).ver = s.ver := rfl
@[simp] theorem addCopy_coll (k : TileCopy) : (s.addCopy k).coll = s.coll := rfl
@[simp] theorem addCopy_mgmt (k : TileCopy) : (s.addCopy k).mgmt = s.mgmt := rfl
@[simp] theorem addCopy_lost (k : TileCopy) : (s.addCopy k).lost = s.lost := rfl
@[simp] theorem addCopy_pending (k : TileCopy) : (s.addCopy k).pending = s.pending := rfl
@[simp] theorem addCopy_penen (k : TileCopy) : (s.addCopy k).penen = s.penen := rfl
@[simp] theorem addCopy_power (k : TileCopy) : (s.addCopy k).power = s.power := rfl
@[simp] theorem addCopy_tags (k : TileCopy) : (s.addCopy k).tags = s.tags := rfl
@[simp] theorem addCopy_halt (k : TileCopy) : (s.addCopy k).halt = s.halt := rfl
@[simp] theorem addCopy_lull (k : TileCopy) : (s.addCopy k).lull = s.lull := rfl
@[simp] theorem addCopy_eddy (k : TileCopy) : (s.addCopy k).eddy = s.eddy := rfl
@[simp] theorem addCopy_outbox (k : TileCopy) : (s.addCopy k).outbox = s.outbox := rfl
@[simp] theorem addCopy_agenda (k : TileCopy) : (s.addCopy k).agenda = s.agenda := rfl
@[simp] theorem addCopy_issuing (k : TileCopy) : (s.addCopy k).issuing = s.issuing := rfl
@[simp] theorem addCopy_slots (k : TileCopy) : (s.addCopy k).slots = s.slots := rfl
@[simp] theorem addCopy_nextId (k : TileCopy) : (s.addCopy k).nextId = s.nextId := rfl
@[simp] theorem addCopy_freeCount (k : TileCopy) : (s.addCopy k).freeCount = s.freeCount := rfl
@[simp] theorem addCopy_heldWrites (k : TileCopy) : (s.addCopy k).heldWrites = s.heldWrites := rfl
@[simp] theorem addCopy_heldMsgs (k : TileCopy) : (s.addCopy k).heldMsgs = s.heldMsgs := rfl
@[simp] theorem addCopy_heldHost (k : TileCopy) : (s.addCopy k).heldHost = s.heldHost := rfl
@[simp] theorem addCopy_corrected (k : TileCopy) : (s.addCopy k).corrected = s.corrected := rfl

/-! ## State.setLull: writes `lull` alone -/

@[simp] theorem setLull_tick (e : LullState) : (s.setLull e).tick = s.tick := rfl
@[simp] theorem setLull_threads (e : LullState) : (s.setLull e).threads = s.threads := rfl
@[simp] theorem setLull_teams (e : LullState) : (s.setLull e).teams = s.teams := rfl
@[simp] theorem setLull_launches (e : LullState) : (s.setLull e).launches = s.launches := rfl
@[simp] theorem setLull_saved (e : LullState) : (s.setLull e).saved = s.saved := rfl
@[simp] theorem setLull_ops (e : LullState) : (s.setLull e).ops = s.ops := rfl
@[simp] theorem setLull_ms (e : LullState) : (s.setLull e).ms = s.ms := rfl
@[simp] theorem setLull_front (e : LullState) : (s.setLull e).front = s.front := rfl
@[simp] theorem setLull_ver (e : LullState) : (s.setLull e).ver = s.ver := rfl
@[simp] theorem setLull_coll (e : LullState) : (s.setLull e).coll = s.coll := rfl
@[simp] theorem setLull_eng (e : LullState) : (s.setLull e).eng = s.eng := rfl
@[simp] theorem setLull_mgmt (e : LullState) : (s.setLull e).mgmt = s.mgmt := rfl
@[simp] theorem setLull_lost (e : LullState) : (s.setLull e).lost = s.lost := rfl
@[simp] theorem setLull_pending (e : LullState) : (s.setLull e).pending = s.pending := rfl
@[simp] theorem setLull_penen (e : LullState) : (s.setLull e).penen = s.penen := rfl
@[simp] theorem setLull_power (e : LullState) : (s.setLull e).power = s.power := rfl
@[simp] theorem setLull_tags (e : LullState) : (s.setLull e).tags = s.tags := rfl
@[simp] theorem setLull_halt (e : LullState) : (s.setLull e).halt = s.halt := rfl
@[simp] theorem setLull_eddy (e : LullState) : (s.setLull e).eddy = s.eddy := rfl
@[simp] theorem setLull_outbox (e : LullState) : (s.setLull e).outbox = s.outbox := rfl
@[simp] theorem setLull_agenda (e : LullState) : (s.setLull e).agenda = s.agenda := rfl
@[simp] theorem setLull_issuing (e : LullState) : (s.setLull e).issuing = s.issuing := rfl
@[simp] theorem setLull_slots (e : LullState) : (s.setLull e).slots = s.slots := rfl
@[simp] theorem setLull_nextId (e : LullState) : (s.setLull e).nextId = s.nextId := rfl
@[simp] theorem setLull_freeCount (e : LullState) : (s.setLull e).freeCount = s.freeCount := rfl
@[simp] theorem setLull_heldWrites (e : LullState) : (s.setLull e).heldWrites = s.heldWrites := rfl
@[simp] theorem setLull_heldMsgs (e : LullState) : (s.setLull e).heldMsgs = s.heldMsgs := rfl
@[simp] theorem setLull_heldHost (e : LullState) : (s.setLull e).heldHost = s.heldHost := rfl
@[simp] theorem setLull_corrected (e : LullState) : (s.setLull e).corrected = s.corrected := rfl

/-! ## State.setRamp: writes `power` alone -/

@[simp] theorem setRamp_tick (r : Ramp) : (s.setRamp r).tick = s.tick := rfl
@[simp] theorem setRamp_threads (r : Ramp) : (s.setRamp r).threads = s.threads := rfl
@[simp] theorem setRamp_teams (r : Ramp) : (s.setRamp r).teams = s.teams := rfl
@[simp] theorem setRamp_launches (r : Ramp) : (s.setRamp r).launches = s.launches := rfl
@[simp] theorem setRamp_saved (r : Ramp) : (s.setRamp r).saved = s.saved := rfl
@[simp] theorem setRamp_ops (r : Ramp) : (s.setRamp r).ops = s.ops := rfl
@[simp] theorem setRamp_ms (r : Ramp) : (s.setRamp r).ms = s.ms := rfl
@[simp] theorem setRamp_front (r : Ramp) : (s.setRamp r).front = s.front := rfl
@[simp] theorem setRamp_ver (r : Ramp) : (s.setRamp r).ver = s.ver := rfl
@[simp] theorem setRamp_coll (r : Ramp) : (s.setRamp r).coll = s.coll := rfl
@[simp] theorem setRamp_eng (r : Ramp) : (s.setRamp r).eng = s.eng := rfl
@[simp] theorem setRamp_mgmt (r : Ramp) : (s.setRamp r).mgmt = s.mgmt := rfl
@[simp] theorem setRamp_lost (r : Ramp) : (s.setRamp r).lost = s.lost := rfl
@[simp] theorem setRamp_pending (r : Ramp) : (s.setRamp r).pending = s.pending := rfl
@[simp] theorem setRamp_penen (r : Ramp) : (s.setRamp r).penen = s.penen := rfl
@[simp] theorem setRamp_tags (r : Ramp) : (s.setRamp r).tags = s.tags := rfl
@[simp] theorem setRamp_halt (r : Ramp) : (s.setRamp r).halt = s.halt := rfl
@[simp] theorem setRamp_lull (r : Ramp) : (s.setRamp r).lull = s.lull := rfl
@[simp] theorem setRamp_eddy (r : Ramp) : (s.setRamp r).eddy = s.eddy := rfl
@[simp] theorem setRamp_outbox (r : Ramp) : (s.setRamp r).outbox = s.outbox := rfl
@[simp] theorem setRamp_agenda (r : Ramp) : (s.setRamp r).agenda = s.agenda := rfl
@[simp] theorem setRamp_issuing (r : Ramp) : (s.setRamp r).issuing = s.issuing := rfl
@[simp] theorem setRamp_slots (r : Ramp) : (s.setRamp r).slots = s.slots := rfl
@[simp] theorem setRamp_nextId (r : Ramp) : (s.setRamp r).nextId = s.nextId := rfl
@[simp] theorem setRamp_freeCount (r : Ramp) : (s.setRamp r).freeCount = s.freeCount := rfl
@[simp] theorem setRamp_heldWrites (r : Ramp) : (s.setRamp r).heldWrites = s.heldWrites := rfl
@[simp] theorem setRamp_heldMsgs (r : Ramp) : (s.setRamp r).heldMsgs = s.heldMsgs := rfl
@[simp] theorem setRamp_heldHost (r : Ramp) : (s.setRamp r).heldHost = s.heldHost := rfl
@[simp] theorem setRamp_corrected (r : Ramp) : (s.setRamp r).corrected = s.corrected := rfl

/-! ## State.setTag: writes `tags` alone -/

@[simp] theorem setTag_tick (g : Tag) : (s.setTag g).tick = s.tick := rfl
@[simp] theorem setTag_threads (g : Tag) : (s.setTag g).threads = s.threads := rfl
@[simp] theorem setTag_teams (g : Tag) : (s.setTag g).teams = s.teams := rfl
@[simp] theorem setTag_launches (g : Tag) : (s.setTag g).launches = s.launches := rfl
@[simp] theorem setTag_saved (g : Tag) : (s.setTag g).saved = s.saved := rfl
@[simp] theorem setTag_ops (g : Tag) : (s.setTag g).ops = s.ops := rfl
@[simp] theorem setTag_ms (g : Tag) : (s.setTag g).ms = s.ms := rfl
@[simp] theorem setTag_front (g : Tag) : (s.setTag g).front = s.front := rfl
@[simp] theorem setTag_ver (g : Tag) : (s.setTag g).ver = s.ver := rfl
@[simp] theorem setTag_coll (g : Tag) : (s.setTag g).coll = s.coll := rfl
@[simp] theorem setTag_eng (g : Tag) : (s.setTag g).eng = s.eng := rfl
@[simp] theorem setTag_mgmt (g : Tag) : (s.setTag g).mgmt = s.mgmt := rfl
@[simp] theorem setTag_lost (g : Tag) : (s.setTag g).lost = s.lost := rfl
@[simp] theorem setTag_pending (g : Tag) : (s.setTag g).pending = s.pending := rfl
@[simp] theorem setTag_penen (g : Tag) : (s.setTag g).penen = s.penen := rfl
@[simp] theorem setTag_power (g : Tag) : (s.setTag g).power = s.power := rfl
@[simp] theorem setTag_halt (g : Tag) : (s.setTag g).halt = s.halt := rfl
@[simp] theorem setTag_lull (g : Tag) : (s.setTag g).lull = s.lull := rfl
@[simp] theorem setTag_eddy (g : Tag) : (s.setTag g).eddy = s.eddy := rfl
@[simp] theorem setTag_outbox (g : Tag) : (s.setTag g).outbox = s.outbox := rfl
@[simp] theorem setTag_agenda (g : Tag) : (s.setTag g).agenda = s.agenda := rfl
@[simp] theorem setTag_issuing (g : Tag) : (s.setTag g).issuing = s.issuing := rfl
@[simp] theorem setTag_slots (g : Tag) : (s.setTag g).slots = s.slots := rfl
@[simp] theorem setTag_nextId (g : Tag) : (s.setTag g).nextId = s.nextId := rfl
@[simp] theorem setTag_freeCount (g : Tag) : (s.setTag g).freeCount = s.freeCount := rfl
@[simp] theorem setTag_heldWrites (g : Tag) : (s.setTag g).heldWrites = s.heldWrites := rfl
@[simp] theorem setTag_heldMsgs (g : Tag) : (s.setTag g).heldMsgs = s.heldMsgs := rfl
@[simp] theorem setTag_heldHost (g : Tag) : (s.setTag g).heldHost = s.heldHost := rfl
@[simp] theorem setTag_corrected (g : Tag) : (s.setTag g).corrected = s.corrected := rfl

/-! ## State.send: writes `outbox` alone -/

@[simp] theorem send_tick (m : Msg) : (s.send m).tick = s.tick := rfl
@[simp] theorem send_threads (m : Msg) : (s.send m).threads = s.threads := rfl
@[simp] theorem send_teams (m : Msg) : (s.send m).teams = s.teams := rfl
@[simp] theorem send_launches (m : Msg) : (s.send m).launches = s.launches := rfl
@[simp] theorem send_saved (m : Msg) : (s.send m).saved = s.saved := rfl
@[simp] theorem send_ops (m : Msg) : (s.send m).ops = s.ops := rfl
@[simp] theorem send_ms (m : Msg) : (s.send m).ms = s.ms := rfl
@[simp] theorem send_front (m : Msg) : (s.send m).front = s.front := rfl
@[simp] theorem send_ver (m : Msg) : (s.send m).ver = s.ver := rfl
@[simp] theorem send_coll (m : Msg) : (s.send m).coll = s.coll := rfl
@[simp] theorem send_eng (m : Msg) : (s.send m).eng = s.eng := rfl
@[simp] theorem send_mgmt (m : Msg) : (s.send m).mgmt = s.mgmt := rfl
@[simp] theorem send_lost (m : Msg) : (s.send m).lost = s.lost := rfl
@[simp] theorem send_pending (m : Msg) : (s.send m).pending = s.pending := rfl
@[simp] theorem send_penen (m : Msg) : (s.send m).penen = s.penen := rfl
@[simp] theorem send_power (m : Msg) : (s.send m).power = s.power := rfl
@[simp] theorem send_tags (m : Msg) : (s.send m).tags = s.tags := rfl
@[simp] theorem send_halt (m : Msg) : (s.send m).halt = s.halt := rfl
@[simp] theorem send_lull (m : Msg) : (s.send m).lull = s.lull := rfl
@[simp] theorem send_eddy (m : Msg) : (s.send m).eddy = s.eddy := rfl
@[simp] theorem send_agenda (m : Msg) : (s.send m).agenda = s.agenda := rfl
@[simp] theorem send_issuing (m : Msg) : (s.send m).issuing = s.issuing := rfl
@[simp] theorem send_slots (m : Msg) : (s.send m).slots = s.slots := rfl
@[simp] theorem send_nextId (m : Msg) : (s.send m).nextId = s.nextId := rfl
@[simp] theorem send_freeCount (m : Msg) : (s.send m).freeCount = s.freeCount := rfl
@[simp] theorem send_heldWrites (m : Msg) : (s.send m).heldWrites = s.heldWrites := rfl
@[simp] theorem send_heldMsgs (m : Msg) : (s.send m).heldMsgs = s.heldMsgs := rfl
@[simp] theorem send_heldHost (m : Msg) : (s.send m).heldHost = s.heldHost := rfl
@[simp] theorem send_corrected (m : Msg) : (s.send m).corrected = s.corrected := rfl

/-! ## State.countEddy: writes `eddy` alone -/

@[simp] theorem countEddy_tick (d : Nat) (f : EddyCounts → EddyCounts) : (s.countEddy d f).tick = s.tick := rfl
@[simp] theorem countEddy_threads (d : Nat) (f : EddyCounts → EddyCounts) : (s.countEddy d f).threads = s.threads := rfl
@[simp] theorem countEddy_teams (d : Nat) (f : EddyCounts → EddyCounts) : (s.countEddy d f).teams = s.teams := rfl
@[simp] theorem countEddy_launches (d : Nat) (f : EddyCounts → EddyCounts) : (s.countEddy d f).launches = s.launches := rfl
@[simp] theorem countEddy_saved (d : Nat) (f : EddyCounts → EddyCounts) : (s.countEddy d f).saved = s.saved := rfl
@[simp] theorem countEddy_ops (d : Nat) (f : EddyCounts → EddyCounts) : (s.countEddy d f).ops = s.ops := rfl
@[simp] theorem countEddy_ms (d : Nat) (f : EddyCounts → EddyCounts) : (s.countEddy d f).ms = s.ms := rfl
@[simp] theorem countEddy_front (d : Nat) (f : EddyCounts → EddyCounts) : (s.countEddy d f).front = s.front := rfl
@[simp] theorem countEddy_ver (d : Nat) (f : EddyCounts → EddyCounts) : (s.countEddy d f).ver = s.ver := rfl
@[simp] theorem countEddy_coll (d : Nat) (f : EddyCounts → EddyCounts) : (s.countEddy d f).coll = s.coll := rfl
@[simp] theorem countEddy_eng (d : Nat) (f : EddyCounts → EddyCounts) : (s.countEddy d f).eng = s.eng := rfl
@[simp] theorem countEddy_mgmt (d : Nat) (f : EddyCounts → EddyCounts) : (s.countEddy d f).mgmt = s.mgmt := rfl
@[simp] theorem countEddy_lost (d : Nat) (f : EddyCounts → EddyCounts) : (s.countEddy d f).lost = s.lost := rfl
@[simp] theorem countEddy_pending (d : Nat) (f : EddyCounts → EddyCounts) : (s.countEddy d f).pending = s.pending := rfl
@[simp] theorem countEddy_penen (d : Nat) (f : EddyCounts → EddyCounts) : (s.countEddy d f).penen = s.penen := rfl
@[simp] theorem countEddy_power (d : Nat) (f : EddyCounts → EddyCounts) : (s.countEddy d f).power = s.power := rfl
@[simp] theorem countEddy_tags (d : Nat) (f : EddyCounts → EddyCounts) : (s.countEddy d f).tags = s.tags := rfl
@[simp] theorem countEddy_halt (d : Nat) (f : EddyCounts → EddyCounts) : (s.countEddy d f).halt = s.halt := rfl
@[simp] theorem countEddy_lull (d : Nat) (f : EddyCounts → EddyCounts) : (s.countEddy d f).lull = s.lull := rfl
@[simp] theorem countEddy_outbox (d : Nat) (f : EddyCounts → EddyCounts) : (s.countEddy d f).outbox = s.outbox := rfl
@[simp] theorem countEddy_agenda (d : Nat) (f : EddyCounts → EddyCounts) : (s.countEddy d f).agenda = s.agenda := rfl
@[simp] theorem countEddy_issuing (d : Nat) (f : EddyCounts → EddyCounts) : (s.countEddy d f).issuing = s.issuing := rfl
@[simp] theorem countEddy_slots (d : Nat) (f : EddyCounts → EddyCounts) : (s.countEddy d f).slots = s.slots := rfl
@[simp] theorem countEddy_nextId (d : Nat) (f : EddyCounts → EddyCounts) : (s.countEddy d f).nextId = s.nextId := rfl
@[simp] theorem countEddy_freeCount (d : Nat) (f : EddyCounts → EddyCounts) : (s.countEddy d f).freeCount = s.freeCount := rfl
@[simp] theorem countEddy_heldWrites (d : Nat) (f : EddyCounts → EddyCounts) : (s.countEddy d f).heldWrites = s.heldWrites := rfl
@[simp] theorem countEddy_heldMsgs (d : Nat) (f : EddyCounts → EddyCounts) : (s.countEddy d f).heldMsgs = s.heldMsgs := rfl
@[simp] theorem countEddy_heldHost (d : Nat) (f : EddyCounts → EddyCounts) : (s.countEddy d f).heldHost = s.heldHost := rfl
@[simp] theorem countEddy_corrected (d : Nat) (f : EddyCounts → EddyCounts) : (s.countEddy d f).corrected = s.corrected := rfl

/-! ## State.newIssue: writes `threads` and `nextId` alone -/

@[simp] theorem newIssue_tick (l : List Nat) : (s.newIssue l).tick = s.tick := rfl
@[simp] theorem newIssue_teams (l : List Nat) : (s.newIssue l).teams = s.teams := rfl
@[simp] theorem newIssue_launches (l : List Nat) : (s.newIssue l).launches = s.launches := rfl
@[simp] theorem newIssue_saved (l : List Nat) : (s.newIssue l).saved = s.saved := rfl
@[simp] theorem newIssue_ops (l : List Nat) : (s.newIssue l).ops = s.ops := rfl
@[simp] theorem newIssue_ms (l : List Nat) : (s.newIssue l).ms = s.ms := rfl
@[simp] theorem newIssue_front (l : List Nat) : (s.newIssue l).front = s.front := rfl
@[simp] theorem newIssue_ver (l : List Nat) : (s.newIssue l).ver = s.ver := rfl
@[simp] theorem newIssue_coll (l : List Nat) : (s.newIssue l).coll = s.coll := rfl
@[simp] theorem newIssue_eng (l : List Nat) : (s.newIssue l).eng = s.eng := rfl
@[simp] theorem newIssue_mgmt (l : List Nat) : (s.newIssue l).mgmt = s.mgmt := rfl
@[simp] theorem newIssue_lost (l : List Nat) : (s.newIssue l).lost = s.lost := rfl
@[simp] theorem newIssue_pending (l : List Nat) : (s.newIssue l).pending = s.pending := rfl
@[simp] theorem newIssue_penen (l : List Nat) : (s.newIssue l).penen = s.penen := rfl
@[simp] theorem newIssue_power (l : List Nat) : (s.newIssue l).power = s.power := rfl
@[simp] theorem newIssue_tags (l : List Nat) : (s.newIssue l).tags = s.tags := rfl
@[simp] theorem newIssue_halt (l : List Nat) : (s.newIssue l).halt = s.halt := rfl
@[simp] theorem newIssue_lull (l : List Nat) : (s.newIssue l).lull = s.lull := rfl
@[simp] theorem newIssue_eddy (l : List Nat) : (s.newIssue l).eddy = s.eddy := rfl
@[simp] theorem newIssue_outbox (l : List Nat) : (s.newIssue l).outbox = s.outbox := rfl
@[simp] theorem newIssue_agenda (l : List Nat) : (s.newIssue l).agenda = s.agenda := rfl
@[simp] theorem newIssue_issuing (l : List Nat) : (s.newIssue l).issuing = s.issuing := rfl
@[simp] theorem newIssue_slots (l : List Nat) : (s.newIssue l).slots = s.slots := rfl
@[simp] theorem newIssue_freeCount (l : List Nat) : (s.newIssue l).freeCount = s.freeCount := rfl
@[simp] theorem newIssue_heldWrites (l : List Nat) : (s.newIssue l).heldWrites = s.heldWrites := rfl
@[simp] theorem newIssue_heldMsgs (l : List Nat) : (s.newIssue l).heldMsgs = s.heldMsgs := rfl
@[simp] theorem newIssue_heldHost (l : List Nat) : (s.newIssue l).heldHost = s.heldHost := rfl
@[simp] theorem newIssue_corrected (l : List Nat) : (s.newIssue l).corrected = s.corrected := rfl

/-! ## State.movePhase: writes `teams` alone -/

@[simp] theorem movePhase_tick (vd : Nat) (a b : TeamPhase) : (s.movePhase vd a b).tick = s.tick := rfl
@[simp] theorem movePhase_threads (vd : Nat) (a b : TeamPhase) : (s.movePhase vd a b).threads = s.threads := rfl
@[simp] theorem movePhase_launches (vd : Nat) (a b : TeamPhase) : (s.movePhase vd a b).launches = s.launches := rfl
@[simp] theorem movePhase_saved (vd : Nat) (a b : TeamPhase) : (s.movePhase vd a b).saved = s.saved := rfl
@[simp] theorem movePhase_ops (vd : Nat) (a b : TeamPhase) : (s.movePhase vd a b).ops = s.ops := rfl
@[simp] theorem movePhase_ms (vd : Nat) (a b : TeamPhase) : (s.movePhase vd a b).ms = s.ms := rfl
@[simp] theorem movePhase_front (vd : Nat) (a b : TeamPhase) : (s.movePhase vd a b).front = s.front := rfl
@[simp] theorem movePhase_ver (vd : Nat) (a b : TeamPhase) : (s.movePhase vd a b).ver = s.ver := rfl
@[simp] theorem movePhase_coll (vd : Nat) (a b : TeamPhase) : (s.movePhase vd a b).coll = s.coll := rfl
@[simp] theorem movePhase_eng (vd : Nat) (a b : TeamPhase) : (s.movePhase vd a b).eng = s.eng := rfl
@[simp] theorem movePhase_mgmt (vd : Nat) (a b : TeamPhase) : (s.movePhase vd a b).mgmt = s.mgmt := rfl
@[simp] theorem movePhase_lost (vd : Nat) (a b : TeamPhase) : (s.movePhase vd a b).lost = s.lost := rfl
@[simp] theorem movePhase_pending (vd : Nat) (a b : TeamPhase) : (s.movePhase vd a b).pending = s.pending := rfl
@[simp] theorem movePhase_penen (vd : Nat) (a b : TeamPhase) : (s.movePhase vd a b).penen = s.penen := rfl
@[simp] theorem movePhase_power (vd : Nat) (a b : TeamPhase) : (s.movePhase vd a b).power = s.power := rfl
@[simp] theorem movePhase_tags (vd : Nat) (a b : TeamPhase) : (s.movePhase vd a b).tags = s.tags := rfl
@[simp] theorem movePhase_halt (vd : Nat) (a b : TeamPhase) : (s.movePhase vd a b).halt = s.halt := rfl
@[simp] theorem movePhase_lull (vd : Nat) (a b : TeamPhase) : (s.movePhase vd a b).lull = s.lull := rfl
@[simp] theorem movePhase_eddy (vd : Nat) (a b : TeamPhase) : (s.movePhase vd a b).eddy = s.eddy := rfl
@[simp] theorem movePhase_outbox (vd : Nat) (a b : TeamPhase) : (s.movePhase vd a b).outbox = s.outbox := rfl
@[simp] theorem movePhase_agenda (vd : Nat) (a b : TeamPhase) : (s.movePhase vd a b).agenda = s.agenda := rfl
@[simp] theorem movePhase_issuing (vd : Nat) (a b : TeamPhase) : (s.movePhase vd a b).issuing = s.issuing := rfl
@[simp] theorem movePhase_slots (vd : Nat) (a b : TeamPhase) : (s.movePhase vd a b).slots = s.slots := rfl
@[simp] theorem movePhase_nextId (vd : Nat) (a b : TeamPhase) : (s.movePhase vd a b).nextId = s.nextId := rfl
@[simp] theorem movePhase_freeCount (vd : Nat) (a b : TeamPhase) : (s.movePhase vd a b).freeCount = s.freeCount := rfl
@[simp] theorem movePhase_heldWrites (vd : Nat) (a b : TeamPhase) : (s.movePhase vd a b).heldWrites = s.heldWrites := rfl
@[simp] theorem movePhase_heldMsgs (vd : Nat) (a b : TeamPhase) : (s.movePhase vd a b).heldMsgs = s.heldMsgs := rfl
@[simp] theorem movePhase_heldHost (vd : Nat) (a b : TeamPhase) : (s.movePhase vd a b).heldHost = s.heldHost := rfl
@[simp] theorem movePhase_corrected (vd : Nat) (a b : TeamPhase) : (s.movePhase vd a b).corrected = s.corrected := rfl

/-! ## State.setVdState: writes `mgmt` alone -/

@[simp] theorem setVdState_tick (vd n : Nat) : (s.setVdState vd n).tick = s.tick := rfl
@[simp] theorem setVdState_threads (vd n : Nat) : (s.setVdState vd n).threads = s.threads := rfl
@[simp] theorem setVdState_teams (vd n : Nat) : (s.setVdState vd n).teams = s.teams := rfl
@[simp] theorem setVdState_launches (vd n : Nat) : (s.setVdState vd n).launches = s.launches := rfl
@[simp] theorem setVdState_saved (vd n : Nat) : (s.setVdState vd n).saved = s.saved := rfl
@[simp] theorem setVdState_ops (vd n : Nat) : (s.setVdState vd n).ops = s.ops := rfl
@[simp] theorem setVdState_ms (vd n : Nat) : (s.setVdState vd n).ms = s.ms := rfl
@[simp] theorem setVdState_front (vd n : Nat) : (s.setVdState vd n).front = s.front := rfl
@[simp] theorem setVdState_ver (vd n : Nat) : (s.setVdState vd n).ver = s.ver := rfl
@[simp] theorem setVdState_coll (vd n : Nat) : (s.setVdState vd n).coll = s.coll := rfl
@[simp] theorem setVdState_eng (vd n : Nat) : (s.setVdState vd n).eng = s.eng := rfl
@[simp] theorem setVdState_lost (vd n : Nat) : (s.setVdState vd n).lost = s.lost := rfl
@[simp] theorem setVdState_pending (vd n : Nat) : (s.setVdState vd n).pending = s.pending := rfl
@[simp] theorem setVdState_penen (vd n : Nat) : (s.setVdState vd n).penen = s.penen := rfl
@[simp] theorem setVdState_power (vd n : Nat) : (s.setVdState vd n).power = s.power := rfl
@[simp] theorem setVdState_tags (vd n : Nat) : (s.setVdState vd n).tags = s.tags := rfl
@[simp] theorem setVdState_halt (vd n : Nat) : (s.setVdState vd n).halt = s.halt := rfl
@[simp] theorem setVdState_lull (vd n : Nat) : (s.setVdState vd n).lull = s.lull := rfl
@[simp] theorem setVdState_eddy (vd n : Nat) : (s.setVdState vd n).eddy = s.eddy := rfl
@[simp] theorem setVdState_outbox (vd n : Nat) : (s.setVdState vd n).outbox = s.outbox := rfl
@[simp] theorem setVdState_agenda (vd n : Nat) : (s.setVdState vd n).agenda = s.agenda := rfl
@[simp] theorem setVdState_issuing (vd n : Nat) : (s.setVdState vd n).issuing = s.issuing := rfl
@[simp] theorem setVdState_slots (vd n : Nat) : (s.setVdState vd n).slots = s.slots := rfl
@[simp] theorem setVdState_nextId (vd n : Nat) : (s.setVdState vd n).nextId = s.nextId := rfl
@[simp] theorem setVdState_freeCount (vd n : Nat) : (s.setVdState vd n).freeCount = s.freeCount := rfl
@[simp] theorem setVdState_heldWrites (vd n : Nat) : (s.setVdState vd n).heldWrites = s.heldWrites := rfl
@[simp] theorem setVdState_heldMsgs (vd n : Nat) : (s.setVdState vd n).heldMsgs = s.heldMsgs := rfl
@[simp] theorem setVdState_heldHost (vd n : Nat) : (s.setVdState vd n).heldHost = s.heldHost := rfl
@[simp] theorem setVdState_corrected (vd n : Nat) : (s.setVdState vd n).corrected = s.corrected := rfl

/-! ## State.setRegField: writes `mgmt` alone -/

@[simp] theorem setRegField_tick (o h l v : Nat) : (s.setRegField o h l v).tick = s.tick := rfl
@[simp] theorem setRegField_threads (o h l v : Nat) : (s.setRegField o h l v).threads = s.threads := rfl
@[simp] theorem setRegField_teams (o h l v : Nat) : (s.setRegField o h l v).teams = s.teams := rfl
@[simp] theorem setRegField_launches (o h l v : Nat) : (s.setRegField o h l v).launches = s.launches := rfl
@[simp] theorem setRegField_saved (o h l v : Nat) : (s.setRegField o h l v).saved = s.saved := rfl
@[simp] theorem setRegField_ops (o h l v : Nat) : (s.setRegField o h l v).ops = s.ops := rfl
@[simp] theorem setRegField_ms (o h l v : Nat) : (s.setRegField o h l v).ms = s.ms := rfl
@[simp] theorem setRegField_front (o h l v : Nat) : (s.setRegField o h l v).front = s.front := rfl
@[simp] theorem setRegField_ver (o h l v : Nat) : (s.setRegField o h l v).ver = s.ver := rfl
@[simp] theorem setRegField_coll (o h l v : Nat) : (s.setRegField o h l v).coll = s.coll := rfl
@[simp] theorem setRegField_eng (o h l v : Nat) : (s.setRegField o h l v).eng = s.eng := rfl
@[simp] theorem setRegField_lost (o h l v : Nat) : (s.setRegField o h l v).lost = s.lost := rfl
@[simp] theorem setRegField_pending (o h l v : Nat) : (s.setRegField o h l v).pending = s.pending := rfl
@[simp] theorem setRegField_penen (o h l v : Nat) : (s.setRegField o h l v).penen = s.penen := rfl
@[simp] theorem setRegField_power (o h l v : Nat) : (s.setRegField o h l v).power = s.power := rfl
@[simp] theorem setRegField_tags (o h l v : Nat) : (s.setRegField o h l v).tags = s.tags := rfl
@[simp] theorem setRegField_halt (o h l v : Nat) : (s.setRegField o h l v).halt = s.halt := rfl
@[simp] theorem setRegField_lull (o h l v : Nat) : (s.setRegField o h l v).lull = s.lull := rfl
@[simp] theorem setRegField_eddy (o h l v : Nat) : (s.setRegField o h l v).eddy = s.eddy := rfl
@[simp] theorem setRegField_outbox (o h l v : Nat) : (s.setRegField o h l v).outbox = s.outbox := rfl
@[simp] theorem setRegField_agenda (o h l v : Nat) : (s.setRegField o h l v).agenda = s.agenda := rfl
@[simp] theorem setRegField_issuing (o h l v : Nat) : (s.setRegField o h l v).issuing = s.issuing := rfl
@[simp] theorem setRegField_slots (o h l v : Nat) : (s.setRegField o h l v).slots = s.slots := rfl
@[simp] theorem setRegField_nextId (o h l v : Nat) : (s.setRegField o h l v).nextId = s.nextId := rfl
@[simp] theorem setRegField_freeCount (o h l v : Nat) : (s.setRegField o h l v).freeCount = s.freeCount := rfl
@[simp] theorem setRegField_heldWrites (o h l v : Nat) : (s.setRegField o h l v).heldWrites = s.heldWrites := rfl
@[simp] theorem setRegField_heldMsgs (o h l v : Nat) : (s.setRegField o h l v).heldMsgs = s.heldMsgs := rfl
@[simp] theorem setRegField_heldHost (o h l v : Nat) : (s.setRegField o h l v).heldHost = s.heldHost := rfl
@[simp] theorem setRegField_corrected (o h l v : Nat) : (s.setRegField o h l v).corrected = s.corrected := rfl

/-! ## State.countFails: writes `mgmt` alone -/

@[simp] theorem countFails_tick (n : Nat) : (s.countFails n).tick = s.tick := by unfold State.countFails; split <;> rfl
@[simp] theorem countFails_threads (n : Nat) : (s.countFails n).threads = s.threads := by unfold State.countFails; split <;> rfl
@[simp] theorem countFails_teams (n : Nat) : (s.countFails n).teams = s.teams := by unfold State.countFails; split <;> rfl
@[simp] theorem countFails_launches (n : Nat) : (s.countFails n).launches = s.launches := by unfold State.countFails; split <;> rfl
@[simp] theorem countFails_saved (n : Nat) : (s.countFails n).saved = s.saved := by unfold State.countFails; split <;> rfl
@[simp] theorem countFails_ops (n : Nat) : (s.countFails n).ops = s.ops := by unfold State.countFails; split <;> rfl
@[simp] theorem countFails_ms (n : Nat) : (s.countFails n).ms = s.ms := by unfold State.countFails; split <;> rfl
@[simp] theorem countFails_front (n : Nat) : (s.countFails n).front = s.front := by unfold State.countFails; split <;> rfl
@[simp] theorem countFails_ver (n : Nat) : (s.countFails n).ver = s.ver := by unfold State.countFails; split <;> rfl
@[simp] theorem countFails_coll (n : Nat) : (s.countFails n).coll = s.coll := by unfold State.countFails; split <;> rfl
@[simp] theorem countFails_eng (n : Nat) : (s.countFails n).eng = s.eng := by unfold State.countFails; split <;> rfl
@[simp] theorem countFails_lost (n : Nat) : (s.countFails n).lost = s.lost := by unfold State.countFails; split <;> rfl
@[simp] theorem countFails_pending (n : Nat) : (s.countFails n).pending = s.pending := by unfold State.countFails; split <;> rfl
@[simp] theorem countFails_penen (n : Nat) : (s.countFails n).penen = s.penen := by unfold State.countFails; split <;> rfl
@[simp] theorem countFails_power (n : Nat) : (s.countFails n).power = s.power := by unfold State.countFails; split <;> rfl
@[simp] theorem countFails_tags (n : Nat) : (s.countFails n).tags = s.tags := by unfold State.countFails; split <;> rfl
@[simp] theorem countFails_halt (n : Nat) : (s.countFails n).halt = s.halt := by unfold State.countFails; split <;> rfl
@[simp] theorem countFails_lull (n : Nat) : (s.countFails n).lull = s.lull := by unfold State.countFails; split <;> rfl
@[simp] theorem countFails_eddy (n : Nat) : (s.countFails n).eddy = s.eddy := by unfold State.countFails; split <;> rfl
@[simp] theorem countFails_outbox (n : Nat) : (s.countFails n).outbox = s.outbox := by unfold State.countFails; split <;> rfl
@[simp] theorem countFails_agenda (n : Nat) : (s.countFails n).agenda = s.agenda := by unfold State.countFails; split <;> rfl
@[simp] theorem countFails_issuing (n : Nat) : (s.countFails n).issuing = s.issuing := by unfold State.countFails; split <;> rfl
@[simp] theorem countFails_slots (n : Nat) : (s.countFails n).slots = s.slots := by unfold State.countFails; split <;> rfl
@[simp] theorem countFails_nextId (n : Nat) : (s.countFails n).nextId = s.nextId := by unfold State.countFails; split <;> rfl
@[simp] theorem countFails_freeCount (n : Nat) : (s.countFails n).freeCount = s.freeCount := by unfold State.countFails; split <;> rfl
@[simp] theorem countFails_heldWrites (n : Nat) : (s.countFails n).heldWrites = s.heldWrites := by unfold State.countFails; split <;> rfl
@[simp] theorem countFails_heldMsgs (n : Nat) : (s.countFails n).heldMsgs = s.heldMsgs := by unfold State.countFails; split <;> rfl
@[simp] theorem countFails_heldHost (n : Nat) : (s.countFails n).heldHost = s.heldHost := by unfold State.countFails; split <;> rfl
@[simp] theorem countFails_corrected (n : Nat) : (s.countFails n).corrected = s.corrected := by unfold State.countFails; split <;> rfl

/-! ## State.sendTo: writes `outbox` and `heldMsgs` alone -/

@[simp] theorem sendTo_tick (a b : Nat) (m : Msg) : (s.sendTo a b m).tick = s.tick := by unfold State.sendTo; split <;> rfl
@[simp] theorem sendTo_threads (a b : Nat) (m : Msg) : (s.sendTo a b m).threads = s.threads := by unfold State.sendTo; split <;> rfl
@[simp] theorem sendTo_teams (a b : Nat) (m : Msg) : (s.sendTo a b m).teams = s.teams := by unfold State.sendTo; split <;> rfl
@[simp] theorem sendTo_launches (a b : Nat) (m : Msg) : (s.sendTo a b m).launches = s.launches := by unfold State.sendTo; split <;> rfl
@[simp] theorem sendTo_saved (a b : Nat) (m : Msg) : (s.sendTo a b m).saved = s.saved := by unfold State.sendTo; split <;> rfl
@[simp] theorem sendTo_ops (a b : Nat) (m : Msg) : (s.sendTo a b m).ops = s.ops := by unfold State.sendTo; split <;> rfl
@[simp] theorem sendTo_ms (a b : Nat) (m : Msg) : (s.sendTo a b m).ms = s.ms := by unfold State.sendTo; split <;> rfl
@[simp] theorem sendTo_front (a b : Nat) (m : Msg) : (s.sendTo a b m).front = s.front := by unfold State.sendTo; split <;> rfl
@[simp] theorem sendTo_ver (a b : Nat) (m : Msg) : (s.sendTo a b m).ver = s.ver := by unfold State.sendTo; split <;> rfl
@[simp] theorem sendTo_coll (a b : Nat) (m : Msg) : (s.sendTo a b m).coll = s.coll := by unfold State.sendTo; split <;> rfl
@[simp] theorem sendTo_eng (a b : Nat) (m : Msg) : (s.sendTo a b m).eng = s.eng := by unfold State.sendTo; split <;> rfl
@[simp] theorem sendTo_mgmt (a b : Nat) (m : Msg) : (s.sendTo a b m).mgmt = s.mgmt := by unfold State.sendTo; split <;> rfl
@[simp] theorem sendTo_lost (a b : Nat) (m : Msg) : (s.sendTo a b m).lost = s.lost := by unfold State.sendTo; split <;> rfl
@[simp] theorem sendTo_pending (a b : Nat) (m : Msg) : (s.sendTo a b m).pending = s.pending := by unfold State.sendTo; split <;> rfl
@[simp] theorem sendTo_penen (a b : Nat) (m : Msg) : (s.sendTo a b m).penen = s.penen := by unfold State.sendTo; split <;> rfl
@[simp] theorem sendTo_power (a b : Nat) (m : Msg) : (s.sendTo a b m).power = s.power := by unfold State.sendTo; split <;> rfl
@[simp] theorem sendTo_tags (a b : Nat) (m : Msg) : (s.sendTo a b m).tags = s.tags := by unfold State.sendTo; split <;> rfl
@[simp] theorem sendTo_halt (a b : Nat) (m : Msg) : (s.sendTo a b m).halt = s.halt := by unfold State.sendTo; split <;> rfl
@[simp] theorem sendTo_lull (a b : Nat) (m : Msg) : (s.sendTo a b m).lull = s.lull := by unfold State.sendTo; split <;> rfl
@[simp] theorem sendTo_eddy (a b : Nat) (m : Msg) : (s.sendTo a b m).eddy = s.eddy := by unfold State.sendTo; split <;> rfl
@[simp] theorem sendTo_agenda (a b : Nat) (m : Msg) : (s.sendTo a b m).agenda = s.agenda := by unfold State.sendTo; split <;> rfl
@[simp] theorem sendTo_issuing (a b : Nat) (m : Msg) : (s.sendTo a b m).issuing = s.issuing := by unfold State.sendTo; split <;> rfl
@[simp] theorem sendTo_slots (a b : Nat) (m : Msg) : (s.sendTo a b m).slots = s.slots := by unfold State.sendTo; split <;> rfl
@[simp] theorem sendTo_nextId (a b : Nat) (m : Msg) : (s.sendTo a b m).nextId = s.nextId := by unfold State.sendTo; split <;> rfl
@[simp] theorem sendTo_freeCount (a b : Nat) (m : Msg) : (s.sendTo a b m).freeCount = s.freeCount := by unfold State.sendTo; split <;> rfl
@[simp] theorem sendTo_heldWrites (a b : Nat) (m : Msg) : (s.sendTo a b m).heldWrites = s.heldWrites := by unfold State.sendTo; split <;> rfl
@[simp] theorem sendTo_heldHost (a b : Nat) (m : Msg) : (s.sendTo a b m).heldHost = s.heldHost := by unfold State.sendTo; split <;> rfl
@[simp] theorem sendTo_corrected (a b : Nat) (m : Msg) : (s.sendTo a b m).corrected = s.corrected := by unfold State.sendTo; split <;> rfl

/-! ## State.pushBack: writes `ms` and `mgmt` alone -/

@[simp] theorem pushBack_tick (p : L1Byte → Bool) : (s.pushBack p).tick = s.tick := by simp [State.pushBack]
@[simp] theorem pushBack_threads (p : L1Byte → Bool) : (s.pushBack p).threads = s.threads := by simp [State.pushBack]
@[simp] theorem pushBack_teams (p : L1Byte → Bool) : (s.pushBack p).teams = s.teams := by simp [State.pushBack]
@[simp] theorem pushBack_launches (p : L1Byte → Bool) : (s.pushBack p).launches = s.launches := by simp [State.pushBack]
@[simp] theorem pushBack_saved (p : L1Byte → Bool) : (s.pushBack p).saved = s.saved := by simp [State.pushBack]
@[simp] theorem pushBack_ops (p : L1Byte → Bool) : (s.pushBack p).ops = s.ops := by simp [State.pushBack]
@[simp] theorem pushBack_front (p : L1Byte → Bool) : (s.pushBack p).front = s.front := by simp [State.pushBack]
@[simp] theorem pushBack_ver (p : L1Byte → Bool) : (s.pushBack p).ver = s.ver := by simp [State.pushBack]
@[simp] theorem pushBack_coll (p : L1Byte → Bool) : (s.pushBack p).coll = s.coll := by simp [State.pushBack]
@[simp] theorem pushBack_eng (p : L1Byte → Bool) : (s.pushBack p).eng = s.eng := by simp [State.pushBack]
@[simp] theorem pushBack_lost (p : L1Byte → Bool) : (s.pushBack p).lost = s.lost := by simp [State.pushBack]
@[simp] theorem pushBack_pending (p : L1Byte → Bool) : (s.pushBack p).pending = s.pending := by simp [State.pushBack]
@[simp] theorem pushBack_penen (p : L1Byte → Bool) : (s.pushBack p).penen = s.penen := by simp [State.pushBack]
@[simp] theorem pushBack_power (p : L1Byte → Bool) : (s.pushBack p).power = s.power := by simp [State.pushBack]
@[simp] theorem pushBack_tags (p : L1Byte → Bool) : (s.pushBack p).tags = s.tags := by simp [State.pushBack]
@[simp] theorem pushBack_halt (p : L1Byte → Bool) : (s.pushBack p).halt = s.halt := by simp [State.pushBack]
@[simp] theorem pushBack_lull (p : L1Byte → Bool) : (s.pushBack p).lull = s.lull := by simp [State.pushBack]
@[simp] theorem pushBack_eddy (p : L1Byte → Bool) : (s.pushBack p).eddy = s.eddy := by simp [State.pushBack]
@[simp] theorem pushBack_outbox (p : L1Byte → Bool) : (s.pushBack p).outbox = s.outbox := by simp [State.pushBack]
@[simp] theorem pushBack_agenda (p : L1Byte → Bool) : (s.pushBack p).agenda = s.agenda := by simp [State.pushBack]
@[simp] theorem pushBack_issuing (p : L1Byte → Bool) : (s.pushBack p).issuing = s.issuing := by simp [State.pushBack]
@[simp] theorem pushBack_slots (p : L1Byte → Bool) : (s.pushBack p).slots = s.slots := by simp [State.pushBack]
@[simp] theorem pushBack_nextId (p : L1Byte → Bool) : (s.pushBack p).nextId = s.nextId := by simp [State.pushBack]
@[simp] theorem pushBack_freeCount (p : L1Byte → Bool) : (s.pushBack p).freeCount = s.freeCount := by simp [State.pushBack]
@[simp] theorem pushBack_heldWrites (p : L1Byte → Bool) : (s.pushBack p).heldWrites = s.heldWrites := by simp [State.pushBack]
@[simp] theorem pushBack_heldMsgs (p : L1Byte → Bool) : (s.pushBack p).heldMsgs = s.heldMsgs := by simp [State.pushBack]
@[simp] theorem pushBack_heldHost (p : L1Byte → Bool) : (s.pushBack p).heldHost = s.heldHost := by simp [State.pushBack]
@[simp] theorem pushBack_corrected (p : L1Byte → Bool) : (s.pushBack p).corrected = s.corrected := by simp [State.pushBack]

/-! ## State.dropWalker: writes `ms` alone -/

@[simp] theorem dropWalker_tick (n : Nat) : (s.dropWalker n).tick = s.tick := rfl
@[simp] theorem dropWalker_threads (n : Nat) : (s.dropWalker n).threads = s.threads := rfl
@[simp] theorem dropWalker_teams (n : Nat) : (s.dropWalker n).teams = s.teams := rfl
@[simp] theorem dropWalker_launches (n : Nat) : (s.dropWalker n).launches = s.launches := rfl
@[simp] theorem dropWalker_saved (n : Nat) : (s.dropWalker n).saved = s.saved := rfl
@[simp] theorem dropWalker_ops (n : Nat) : (s.dropWalker n).ops = s.ops := rfl
@[simp] theorem dropWalker_front (n : Nat) : (s.dropWalker n).front = s.front := rfl
@[simp] theorem dropWalker_ver (n : Nat) : (s.dropWalker n).ver = s.ver := rfl
@[simp] theorem dropWalker_coll (n : Nat) : (s.dropWalker n).coll = s.coll := rfl
@[simp] theorem dropWalker_eng (n : Nat) : (s.dropWalker n).eng = s.eng := rfl
@[simp] theorem dropWalker_mgmt (n : Nat) : (s.dropWalker n).mgmt = s.mgmt := rfl
@[simp] theorem dropWalker_lost (n : Nat) : (s.dropWalker n).lost = s.lost := rfl
@[simp] theorem dropWalker_pending (n : Nat) : (s.dropWalker n).pending = s.pending := rfl
@[simp] theorem dropWalker_penen (n : Nat) : (s.dropWalker n).penen = s.penen := rfl
@[simp] theorem dropWalker_power (n : Nat) : (s.dropWalker n).power = s.power := rfl
@[simp] theorem dropWalker_tags (n : Nat) : (s.dropWalker n).tags = s.tags := rfl
@[simp] theorem dropWalker_halt (n : Nat) : (s.dropWalker n).halt = s.halt := rfl
@[simp] theorem dropWalker_lull (n : Nat) : (s.dropWalker n).lull = s.lull := rfl
@[simp] theorem dropWalker_eddy (n : Nat) : (s.dropWalker n).eddy = s.eddy := rfl
@[simp] theorem dropWalker_outbox (n : Nat) : (s.dropWalker n).outbox = s.outbox := rfl
@[simp] theorem dropWalker_agenda (n : Nat) : (s.dropWalker n).agenda = s.agenda := rfl
@[simp] theorem dropWalker_issuing (n : Nat) : (s.dropWalker n).issuing = s.issuing := rfl
@[simp] theorem dropWalker_slots (n : Nat) : (s.dropWalker n).slots = s.slots := rfl
@[simp] theorem dropWalker_nextId (n : Nat) : (s.dropWalker n).nextId = s.nextId := rfl
@[simp] theorem dropWalker_freeCount (n : Nat) : (s.dropWalker n).freeCount = s.freeCount := rfl
@[simp] theorem dropWalker_heldWrites (n : Nat) : (s.dropWalker n).heldWrites = s.heldWrites := rfl
@[simp] theorem dropWalker_heldMsgs (n : Nat) : (s.dropWalker n).heldMsgs = s.heldMsgs := rfl
@[simp] theorem dropWalker_heldHost (n : Nat) : (s.dropWalker n).heldHost = s.heldHost := rfl
@[simp] theorem dropWalker_corrected (n : Nat) : (s.dropWalker n).corrected = s.corrected := rfl

/-! ## State.spendCycles: writes `power` alone -/

@[simp] theorem spendCycles_tick (c : Ctx) (n : Nat) : (s.spendCycles c n).tick = s.tick := rfl
@[simp] theorem spendCycles_threads (c : Ctx) (n : Nat) : (s.spendCycles c n).threads = s.threads := rfl
@[simp] theorem spendCycles_teams (c : Ctx) (n : Nat) : (s.spendCycles c n).teams = s.teams := rfl
@[simp] theorem spendCycles_launches (c : Ctx) (n : Nat) : (s.spendCycles c n).launches = s.launches := rfl
@[simp] theorem spendCycles_saved (c : Ctx) (n : Nat) : (s.spendCycles c n).saved = s.saved := rfl
@[simp] theorem spendCycles_ops (c : Ctx) (n : Nat) : (s.spendCycles c n).ops = s.ops := rfl
@[simp] theorem spendCycles_ms (c : Ctx) (n : Nat) : (s.spendCycles c n).ms = s.ms := rfl
@[simp] theorem spendCycles_front (c : Ctx) (n : Nat) : (s.spendCycles c n).front = s.front := rfl
@[simp] theorem spendCycles_ver (c : Ctx) (n : Nat) : (s.spendCycles c n).ver = s.ver := rfl
@[simp] theorem spendCycles_coll (c : Ctx) (n : Nat) : (s.spendCycles c n).coll = s.coll := rfl
@[simp] theorem spendCycles_eng (c : Ctx) (n : Nat) : (s.spendCycles c n).eng = s.eng := rfl
@[simp] theorem spendCycles_mgmt (c : Ctx) (n : Nat) : (s.spendCycles c n).mgmt = s.mgmt := rfl
@[simp] theorem spendCycles_lost (c : Ctx) (n : Nat) : (s.spendCycles c n).lost = s.lost := rfl
@[simp] theorem spendCycles_pending (c : Ctx) (n : Nat) : (s.spendCycles c n).pending = s.pending := rfl
@[simp] theorem spendCycles_penen (c : Ctx) (n : Nat) : (s.spendCycles c n).penen = s.penen := rfl
@[simp] theorem spendCycles_tags (c : Ctx) (n : Nat) : (s.spendCycles c n).tags = s.tags := rfl
@[simp] theorem spendCycles_halt (c : Ctx) (n : Nat) : (s.spendCycles c n).halt = s.halt := rfl
@[simp] theorem spendCycles_lull (c : Ctx) (n : Nat) : (s.spendCycles c n).lull = s.lull := rfl
@[simp] theorem spendCycles_eddy (c : Ctx) (n : Nat) : (s.spendCycles c n).eddy = s.eddy := rfl
@[simp] theorem spendCycles_outbox (c : Ctx) (n : Nat) : (s.spendCycles c n).outbox = s.outbox := rfl
@[simp] theorem spendCycles_agenda (c : Ctx) (n : Nat) : (s.spendCycles c n).agenda = s.agenda := rfl
@[simp] theorem spendCycles_issuing (c : Ctx) (n : Nat) : (s.spendCycles c n).issuing = s.issuing := rfl
@[simp] theorem spendCycles_slots (c : Ctx) (n : Nat) : (s.spendCycles c n).slots = s.slots := rfl
@[simp] theorem spendCycles_nextId (c : Ctx) (n : Nat) : (s.spendCycles c n).nextId = s.nextId := rfl
@[simp] theorem spendCycles_freeCount (c : Ctx) (n : Nat) : (s.spendCycles c n).freeCount = s.freeCount := rfl
@[simp] theorem spendCycles_heldWrites (c : Ctx) (n : Nat) : (s.spendCycles c n).heldWrites = s.heldWrites := rfl
@[simp] theorem spendCycles_heldMsgs (c : Ctx) (n : Nat) : (s.spendCycles c n).heldMsgs = s.heldMsgs := rfl
@[simp] theorem spendCycles_heldHost (c : Ctx) (n : Nat) : (s.spendCycles c n).heldHost = s.heldHost := rfl
@[simp] theorem spendCycles_corrected (c : Ctx) (n : Nat) : (s.spendCycles c n).corrected = s.corrected := rfl

/-! ## Look-ups -/

/-- A replacement that keeps the key by which an element is looked up. -/
theorem find?_replaceBy {α : Type} (key : α → Nat) (x : α) (k : Nat) (l : List α) :
    (replaceBy (fun y => key y == key x) x l).find? (fun y => key y == k) =
      if k = key x then (l.find? fun y => key y == k).map fun _ => x else l.find? fun y => key y == k := by
  induction l with
  | nil => simp [replaceBy]
  | cons y ys ih =>
    have hr : replaceBy (fun y => key y == key x) x (y :: ys) =
        (if key y == key x then x else y) :: replaceBy (fun y => key y == key x) x ys := rfl
    rw [hr, List.find?_cons, List.find?_cons, ih]
    by_cases h : key y = key x <;> by_cases hk : k = key x
    · subst hk; simp [h]
    · have hx : (key x == k) = false := by simpa using fun e => hk e.symm
      have hy : (key y == k) = false := by rw [h]; exact hx
      simp [h, hx, hk]
    · subst hk
      have hy : (key y == key x) = false := by simpa using h
      simp [hy]
    · have hy : (key y == key x) = false := by simpa using h
      simp [hy, hk]

/-- A change that keeps the key by which an element is looked up. -/
theorem find?_map_key {α : Type} (key : α → Nat) (f : α → α) (hf : ∀ y, key (f y) = key y) (k : Nat) (l : List α) :
    (l.map f).find? (fun y => key y == k) = (l.find? fun y => key y == k).map f := by
  induction l with
  | nil => rfl
  | cons y ys ih =>
    simp only [List.map_cons, List.find?_cons, hf]
    by_cases h : key y == k
    · simp [h]
    · simp [h, ih]

/-- The thread that was set stands where one of its name stood. -/
theorem thread?_setThread (t : Thread) (id : Nat) :
    (s.setThread t).thread? id = if id = t.id then (s.thread? id).map fun _ => t else s.thread? id :=
  find?_replaceBy Thread.id t id s.threads

/-- The team that was set stands where one of its name stood. -/
theorem team?_setTeam (m : Team) (id : Nat) :
    (s.setTeam m).team? id = if id = m.id then (s.team? id).map fun _ => m else s.team? id :=
  find?_replaceBy Team.id m id s.teams

/-- The launch that was set stands where one of its name stood. -/
theorem launch?_setLaunch (l : Launch) (id : Nat) :
    (s.setLaunch l).launch? id = if id = l.id then (s.launch? id).map fun _ => l else s.launch? id :=
  find?_replaceBy Launch.id l id s.launches

@[simp] theorem team?_setThread (t : Thread) (id : Nat) : (s.setThread t).team? id = s.team? id := rfl
@[simp] theorem launch?_setThread (t : Thread) (id : Nat) : (s.setThread t).launch? id = s.launch? id := rfl
@[simp] theorem thread?_setTeam (m : Team) (id : Nat) : (s.setTeam m).thread? id = s.thread? id := rfl
@[simp] theorem launch?_setTeam (m : Team) (id : Nat) : (s.setTeam m).launch? id = s.launch? id := rfl
@[simp] theorem thread?_setLaunch (l : Launch) (id : Nat) : (s.setLaunch l).thread? id = s.thread? id := rfl
@[simp] theorem team?_setLaunch (l : Launch) (id : Nat) : (s.setLaunch l).team? id = s.team? id := rfl
@[simp] theorem thread?_setMs (m : MemSys) (id : Nat) : (s.setMs m).thread? id = s.thread? id := rfl
@[simp] theorem team?_setMs (m : MemSys) (id : Nat) : (s.setMs m).team? id = s.team? id := rfl
@[simp] theorem launch?_setMs (m : MemSys) (id : Nat) : (s.setMs m).launch? id = s.launch? id := rfl

/-- A register that was set reads as it was set, and every other one as before. -/
theorem reg_setReg (off o : Nat) (v : DWord) : (s.setReg off v).reg o = if o = off then v else s.reg o := by
  unfold State.reg State.setReg
  by_cases h : o = off
  · subst h; simp
  · have h1 : (off == o) = false := by simpa using fun e => h e.symm
    simp only [List.find?_cons, h1, h, if_false]
    congr 1
    induction s.mgmt with
    | nil => rfl
    | cons e es ih =>
      by_cases he : e.1 = off
      · have : (e.1 == o) = false := by simpa [he] using fun e => h e.symm
        simp [he, h1, ih]
      · by_cases ho : e.1 = o <;> simp [he, ho, ih]
        simp [ho ▸ he]

end Sys2Proof.Machine
end

