-- ==== Sys2Proof/Laws/Ends.lean ====
section
/-! SUPPORT. All the ways in which the shared shapes of an instruction end. -/

namespace Sys2Proof.Machine

/-- The checks of R74 let the effect happen, or trap, or find a poisoned source. -/
theorem checked_cases (s : State) (c : Ctx) (all reads : List Blk) (f : State) :
    (firstBeyond c.t.alloc all = none ∧ c.t.poisoned reads = none ∧ s.checked c all reads f = f) ∨
    (∃ r, firstBeyond c.t.alloc all = some r ∧ s.checked c all reads f = s.deliver c.t .regRange (BitVec.ofNat 64 r)) ∨
    ∃ r, c.t.poisoned reads = some r ∧ s.checked c all reads f = s.poisonTrap c.t r := by
  unfold State.checked
  cases h1 : firstBeyond c.t.alloc all with
  | some r => exact .inr (.inl ⟨r, rfl, rfl⟩)
  | none =>
    cases h2 : c.t.poisoned reads with
    | some r => exact .inr (.inr ⟨r, rfl, rfl⟩)
    | none => exact .inl ⟨rfl, rfl, rfl⟩

/-- A lane-class instruction completes with its destinations alone, or traps, or finds a poisoned source. -/
theorem lane_cases {s : State} {c : Ctx} {m : Mods} {dst : List Blk} {pds : List Pred} {reads : List Blk}
    {r : LaneResult} (hr : r.rngw = false) (h1 : ∀ e ∈ r.regs, e.1 ∈ regsOf dst) (h2 : ∀ e ∈ r.preds, e.1 ∈ pds) :
    (∃ x : LaneResult, s.lane c m dst pds reads r = s.laneDone c m x ∧ x.rngw = false ∧
      (∀ e ∈ x.regs, e.1 ∈ regsOf dst) ∧ ∀ e ∈ x.preds, e.1 ∈ pds) ∨
    (∃ cause info, s.lane c m dst pds reads r = s.deliver c.t cause info) ∨
    ∃ q, s.lane c m dst pds reads r = s.poisonTrap c.t q := by
  unfold State.lane
  by_cases ho : s.on c.t m = true
  · rw [if_pos ho]
    unfold State.checked
    cases firstBeyond c.t.alloc (dst ++ reads) with
    | some q => exact .inr (.inl ⟨_, _, rfl⟩)
    | none =>
      cases c.t.poisoned reads with
      | some q => exact .inr (.inr ⟨_, rfl⟩)
      | none =>
        cases fpTrap (s.csr c.t) r.flags with
        | none => exact .inl ⟨r, rfl, hr, h1, h2⟩
        | some cause => exact .inr (.inl ⟨_, _, rfl⟩)
  · rw [if_neg ho]
    split
    · refine .inl ⟨_, rfl, rfl, ?_, ?_⟩
      · intro e he
        simp only [zeroed, List.mem_map] at he
        obtain ⟨x, hx, rfl⟩ := he
        exact hx
      · intro e he
        simp only [zeroed, List.mem_map] at he
        obtain ⟨x, hx, rfl⟩ := he
        exact hx
    · exact .inl ⟨_, rfl, rfl, by simp [LaneResult.ofRegs], by simp [LaneResult.ofRegs]⟩

/-- A predicated-off lane-class instruction writes what ZERO demands (R59). -/
theorem lane_off {s : State} {c : Ctx} {m : Mods} {dst reads : List Blk} {pds : List Pred} {r : LaneResult}
    (h : s.on c.t m = false) :
    s.lane c m dst pds reads r = s.laneDone c m (if m.zero then zeroed dst pds else LaneResult.ofRegs []) := by
  unfold State.lane
  simp only [h, Bool.false_eq_true, if_false]
  split <;> rfl

/-- A register beyond the allocation traps (R16). -/
theorem lane_range {s : State} {c : Ctx} {m : Mods} {dst reads : List Blk} {pds : List Pred} {r : LaneResult} {q : Nat}
    (h : s.on c.t m = true) (hq : firstBeyond c.t.alloc (dst ++ reads) = some q) :
    s.lane c m dst pds reads r = s.deliver c.t .regRange (BitVec.ofNat 64 q) := by
  unfold State.lane State.checked
  simp only [h, hq, if_true]

/-- The first register beyond the allocation depends on the blocks, not on their order. -/
theorem firstBeyond_congr {alloc : Nat} {l l' : List Blk} (h : ∀ b, b ∈ l ↔ b ∈ l') {q : Nat}
    (hq : firstBeyond alloc l = some q) : firstBeyond alloc l' = some q := by
  unfold firstBeyond at *
  rw [List.min?_eq_some_iff] at *
  simp only [List.mem_map, List.mem_filter, h] at *
  exact hq

/-- A predicated-off block-class instruction writes what ZERO demands (R59). -/
theorem block_off {s : State} {c : Ctx} {m : Mods} {dst reads : List Blk} {f : State} (h : s.on c.t m = false) :
    s.block c m dst reads f = s.done c m (if m.zero then c.t.puts (zeroed dst []).regs else c.t) := by
  unfold State.block
  simp only [h, Bool.false_eq_true, if_false]
  split <;> rfl

/-- A long-class operation for which the flags have room is outstanding, and the thread goes on (R19, R51). -/
theorem issueOp_room {s : State} {c : Ctx} {m : Mods} {op : Op} (h : c.t.flagRoom op.flags = true) :
    s.issueOp c m op = { s with ops := s.ops ++ [op], nextId := s.nextId + 1 }.done c m (c.t.raise op.flags) := by
  unfold State.issueOp
  rw [if_pos h]

/-- The length field of a header. -/
theorem hdrLen_eq (h : Word) : hdrLen h = (h.extractLsb' 9 3).toNat := by
  simp [hdrLen, bits, Nat.shiftRight_eq_div_pow]

/-- The thread within its clause after an instruction. -/
theorem past_inside (t : Thread) (n : Nat) (h : t.pc + BitVec.ofNat 56 (4 * n) ≠ t.nextHeader) :
    t.past n = { t with pc := t.pc + BitVec.ofNat 56 (4 * n) } := by
  unfold Thread.past
  simp only [if_neg h]

/-- The thread at the end of its clause after an instruction. -/
theorem past_end (t : Thread) (n : Nat) (h : t.pc + BitVec.ofNat 56 (4 * n) = t.nextHeader) : t.past n = t.clauseEnd := by
  unfold Thread.past
  simp only [if_pos h]

/-- What an instruction that ends leaves of its thread when the thread is not stepped. -/
theorem commit_eq {s : State} {c : Ctx} (m : Mods) (delay : Nat) (t : Thread) (h : stepped c.tm c.t = false) :
    s.commit c m delay t = s.setThread (s.issued c m (delay, s.secondHalf c.t) t) := by
  unfold State.commit State.settleThread
  simp [h]

end Sys2Proof.Machine
end

