-- ==== Sys2Proof/Laws/Int.lean ====
section
/-! SUPPORT. What the element operations of the integer instructions compute: the model narrows exact integers, and
each equals the operation of Safety on bit vectors (R116, R117). -/

namespace Sys2Proof.Machine

theorem narrowS_false {w} (v : Int) : (narrowS false v : BitVec w) = BitVec.ofInt w v := by simp [narrowS]

theorem intMin_ofInt {w : Nat} (h : 0 < w) : BitVec.ofInt w (-(2 ^ (w - 1))) = BitVec.intMin w := by
  apply BitVec.eq_of_toInt_eq
  rw [BitVec.toInt_intMin_of_pos h, BitVec.toInt_ofInt_eq_self h] <;> 
  have : (0:Int) < 2^(w-1) := by positivity
  all_goals omega

theorem intMax_ofInt {w : Nat} (h : 0 < w) : BitVec.ofInt w (2 ^ (w - 1) - 1) = BitVec.intMax w := by
  apply BitVec.eq_of_toInt_eq
  have h2 : (0:Int) < 2^(w-1) := by positivity
  rw [BitVec.toInt_intMax, BitVec.toInt_ofInt_eq_self h (by omega) (by omega)]

theorem narrowS_true {w : Nat} (h : 0 < w) (v : Int) : (narrowS true v : BitVec w) =
    if v < -(2 ^ (w-1)) then BitVec.intMin w else if 2 ^ (w-1) ≤ v then BitVec.intMax w else BitVec.ofInt w v := by
  have h2 : (0:Int) < 2^(w-1) := by positivity
  unfold narrowS
  simp only [if_true]
  split
  · rw [min_eq_left (by omega), max_eq_left (by omega), intMin_ofInt h]
  · split
    · rw [min_eq_right (by omega), max_eq_right (by omega), intMax_ofInt h]
    · rw [min_eq_left (by omega), max_eq_right (by omega)]

theorem toInt_bounds {w : Nat} (_ : 0 < w) (a : BitVec w) : -(2:Int)^(w-1) ≤ a.toInt ∧ a.toInt < 2^(w-1) :=
  ⟨BitVec.le_toInt a, BitVec.toInt_lt⟩

/-- narrowing under sat given an overflow test and the sign of the overflow -/

theorem narrowS_sat {w : Nat} (h : 0 < w) (sat ov neg : Bool) (v : Int) (r : BitVec w)
    (hov : ov = decide (v < -(2 ^ (w-1)) ∨ 2 ^ (w-1) ≤ v))
    (hneg : ov = true → (neg = true ↔ v < 0)) (hr : BitVec.ofInt w v = r) :
    narrowS sat v = if sat && ov then Claim.limit w neg else r := by
  have h2 : (0:Int) < 2^(w-1) := by positivity
  cases sat
  · simp [narrowS_false, hr]
  · rw [narrowS_true h]
    by_cases h1 : v < -(2 ^ (w-1))
    · simp [h1] at hov; have := (hneg hov).2 (by omega); simp [h1, hov, this, Claim.limit]
    · by_cases h3 : 2 ^ (w-1) ≤ v
      · simp [h1, h3] at hov
        have : neg = false := by
          cases hn : neg
          · rfl
          · have := (hneg hov).1 hn; omega
        simp [h1, h3, hov, this, Claim.limit]
      · simp [h1, h3] at hov; simp [h1, h3, hov, hr]

theorem msb_iff {w} (a : BitVec w) : a.msb = true ↔ a.toInt < 0 := by
  rw [BitVec.msb_eq_toInt]; simp

theorem elAdd_eq {w : Nat} (h : 0 < w) (sat : Bool) (a b : BitVec w) : elAdd sat a b = Claim.add sat a b := by
  have ha := toInt_bounds h a; have hb := toInt_bounds h b
  refine narrowS_sat h _ _ _ _ _ ?_ ?_ (by simp [BitVec.ofInt_add])
  · simp only [BitVec.saddOverflow, Bool.decide_or, ge_iff_le, Bool.or_comm]
  · simp only [BitVec.saddOverflow, msb_iff, Bool.or_eq_true, decide_eq_true_eq]; omega

theorem elSub_eq {w : Nat} (h : 0 < w) (sat : Bool) (a b : BitVec w) : elSub sat a b = Claim.sub sat a b := by
  have ha := toInt_bounds h a; have hb := toInt_bounds h b
  refine narrowS_sat h _ _ _ _ _ ?_ ?_ ?_
  · simp only [BitVec.ssubOverflow, Bool.decide_or, ge_iff_le, Bool.or_comm]
  · simp only [BitVec.ssubOverflow, msb_iff, Bool.or_eq_true, decide_eq_true_eq]; omega
  · rw [Int.sub_eq_add_neg, BitVec.ofInt_add, BitVec.sub_eq_add_neg, BitVec.ofInt_neg]; simp

theorem elMul_eq {w : Nat} (h : 0 < w) (sat : Bool) (a b : BitVec w) : elMul sat a b = Claim.mul sat a b := by
  have ha := toInt_bounds h a; have hb := toInt_bounds h b
  have h2 : (0:Int) < 2^(w-1) := by positivity
  refine narrowS_sat h _ _ _ _ _ ?_ ?_ ?_
  · simp only [BitVec.smulOverflow, Bool.decide_or, ge_iff_le, Bool.or_comm]
  · simp only [BitVec.smulOverflow, Bool.or_eq_true, decide_eq_true_eq]
    intro hov
    have hne : a.toInt * b.toInt ≠ 0 := by omega
    have h0 : a.toInt ≠ 0 := left_ne_zero_of_mul hne
    have h1 : b.toInt ≠ 0 := right_ne_zero_of_mul hne
    rw [mul_neg_iff, bne_iff_ne, ne_eq, Bool.eq_iff_iff, msb_iff, msb_iff]
    omega
  · simp [BitVec.ofInt_mul]

theorem elNeg_eq {w : Nat} (h : 0 < w) (sat : Bool) (a : BitVec w) : elNeg sat a = Claim.neg sat a := by
  have ha := toInt_bounds h a
  have h2 : (0:Int) < 2^(w-1) := by positivity
  have := narrowS_sat h sat a.negOverflow false (0 - a.toInt) (-a) ?_ ?_ ?_
  · simpa [elNeg, Claim.neg, Claim.limit] using this
  · simp only [BitVec.negOverflow]; rw [Bool.eq_iff_iff]; simp; omega
  · simp [BitVec.negOverflow]; omega
  · apply BitVec.eq_of_toInt_eq; simp [BitVec.toInt_neg]

theorem elAbs_eq {w : Nat} (h : 0 < w) (sat : Bool) (a : BitVec w) : elAbs sat a = Claim.abs sat a := by
  have ha := toInt_bounds h a
  have h2 : (0:Int) < 2^(w-1) := by positivity
  have := narrowS_sat h sat a.negOverflow false a.toInt.natAbs (if a.msb then -a else a) ?_ ?_ ?_
  · simpa [elAbs, Claim.abs, Claim.limit] using this
  · rw [Bool.eq_iff_iff]
    simp only [BitVec.negOverflow, beq_iff_eq, decide_eq_true_eq]
    omega
  · simp
  · split
    · rename_i hm; have := (msb_iff a).1 hm
      apply BitVec.eq_of_toInt_eq
      rw [Int.ofNat_natAbs_of_nonpos (by omega)]; simp [BitVec.toInt_neg]
    · rename_i hm; rw [msb_iff] at hm
      rw [Int.natAbs_of_nonneg (by omega)]; simp

theorem int_emod_mul_ediv (v m n : Int) (hm : 0 < m) (hn : 0 < n) : v % (m * n) / m = v / m % n := by
  have h1 := Int.emod_add_mul_ediv v (m * n)
  have h2 := Int.emod_nonneg v (show m * n ≠ 0 by positivity)
  have h3 := Int.emod_lt_of_pos v (show 0 < m * n by positivity)
  generalize v % (m * n) = r at *
  generalize v / (m * n) = q at *
  subst h1
  rw [mul_assoc, Int.add_mul_ediv_left _ _ (by omega), Int.add_mul_emod_self_left, Int.emod_eq_of_lt]
  · exact Int.ediv_nonneg h2 (by omega)
  · exact Int.ediv_lt_of_lt_mul hm (by rwa [mul_comm])

theorem elMulhs_eq {w : Nat} (a b : BitVec w) : elMulhs a b = Claim.mulhs a b := by
  unfold elMulhs Claim.mulhs
  have hp : a.signExtend (2 * w) * b.signExtend (2 * w) = BitVec.ofInt (2 * w) (a.toInt * b.toInt) := by
    rw [BitVec.ofInt_mul]
    congr 1
  rw [hp]
  apply BitVec.eq_of_toNat_eq
  zify
  rw [BitVec.extractLsb'_toNat, BitVec.toNat_ofInt, BitVec.toNat_ofInt, Nat.shiftRight_eq_div_pow, Int.fdiv_eq_ediv_of_nonneg _ (by positivity)]
  have h1 : (0:Int) < 2 ^ w := by positivity
  push_cast
  rw [Int.toNat_of_nonneg (Int.emod_nonneg _ (by positivity)), Int.toNat_of_nonneg (Int.emod_nonneg _ (by positivity))]
  rw [two_mul, pow_add, int_emod_mul_ediv _ _ _ h1 h1, Int.emod_emod_of_dvd _ (dvd_refl _)]

theorem elMulhu_eq {w : Nat} (a b : BitVec w) : elMulhu a b = Claim.mulhu a b := by
  unfold elMulhu Claim.mulhu
  apply BitVec.eq_of_toNat_eq
  have ha := a.isLt; have hb := b.isLt
  have hab : a.toNat * b.toNat < 2 ^ (2 * w) := by
    rw [two_mul, pow_add]; exact Nat.mul_lt_mul'' ha hb
  have : 2 ^ w ≤ 2 ^ (2 * w) := Nat.pow_le_pow_right (by omega) (by omega)
  simp [Nat.shiftRight_eq_div_pow, Nat.mod_eq_of_lt (Nat.lt_of_lt_of_le ha this), Nat.mod_eq_of_lt (Nat.lt_of_lt_of_le hb this), Nat.mod_eq_of_lt hab]

theorem elMins_eq {w : Nat} (a b : BitVec w) : elMins a b = Claim.mins a b := by
  unfold elMins Claim.mins; simp only [BitVec.slt, decide_eq_true_eq]; split <;> split <;> first | rfl | omega

theorem elMaxs_eq {w : Nat} (a b : BitVec w) : elMaxs a b = Claim.maxs a b := by
  unfold elMaxs Claim.maxs; simp only [BitVec.slt, decide_eq_true_eq]
  rcases lt_trichotomy a.toInt b.toInt with h | h | h
  · simp [h, h.le]
  · simp [BitVec.eq_of_toInt_eq h]
  · simp [h.not_ge, not_lt.2 h.le]

theorem elMinu_eq {w : Nat} (a b : BitVec w) : elMinu a b = Claim.minu a b := by
  unfold elMinu Claim.minu; simp only [BitVec.ult, decide_eq_true_eq]; split <;> split <;> first | rfl | omega

theorem elMaxu_eq {w : Nat} (a b : BitVec w) : elMaxu a b = Claim.maxu a b := by
  unfold elMaxu Claim.maxu; simp only [BitVec.ult, decide_eq_true_eq]
  rcases lt_trichotomy a.toNat b.toNat with h | h | h
  · simp [h, h.le]
  · simp [BitVec.eq_of_toNat_eq h]
  · simp [h.not_ge, not_lt.2 h.le]

theorem elSar_eq {w : Nat} (a b : BitVec w) : elSar a b = Claim.sar a b := by
  unfold elSar Claim.sar shiftCount
  rw [Int.fdiv_eq_ediv_of_nonneg _ (by positivity), BitVec.sshiftRight, Int.shiftRight_eq_div_pow]
  norm_cast

theorem elRol_eq {w : Nat} (a b : BitVec w) : elRol a b = Claim.rol a b := by
  unfold elRol Claim.rol shiftCount
  rw [BitVec.rotateLeft_def]; simp

theorem elRor_eq {w : Nat} (a b : BitVec w) : elRor a b = Claim.ror a b := by
  unfold elRor Claim.ror shiftCount
  rw [BitVec.rotateRight_def]; simp

theorem elAddus_eq {w : Nat} (a b : BitVec w) : elAddus a b = Claim.addus a b := by
  unfold elAddus Claim.addus narrowU BitVec.uaddOverflow
  have ha := a.isLt; have hb := b.isLt
  have hp : 1 ≤ 2 ^ w := Nat.one_le_two_pow
  have e : ((2:Int) ^ w - 1) = ((2 ^ w - 1 : Nat) : Int) := by push_cast [hp]; rfl
  simp only [if_true, ge_iff_le, decide_eq_true_eq, e, ← Nat.cast_add]
  apply BitVec.eq_of_toNat_eq
  split
  · rw [min_eq_right (by exact_mod_cast (by omega)), max_eq_right (by exact_mod_cast Nat.zero_le _), BitVec.ofInt_natCast, BitVec.toNat_ofNat,
      Nat.mod_eq_of_lt (by omega), BitVec.toNat_allOnes]
  · rw [min_eq_left (by exact_mod_cast (by omega)), max_eq_right (by exact_mod_cast Nat.zero_le _), BitVec.ofInt_natCast, BitVec.toNat_ofNat, BitVec.toNat_add]

theorem elSubus_eq {w : Nat} (a b : BitVec w) : elSubus a b = Claim.subus a b := by
  unfold elSubus Claim.subus narrowU BitVec.ult
  have ha := a.isLt; have hb := b.isLt
  simp only [if_true, decide_eq_true_eq]
  have hp : (1:Int) ≤ 2 ^ w := by exact_mod_cast Nat.one_le_two_pow
  have ha' : (a.toNat : Int) < 2 ^ w := by exact_mod_cast ha
  split
  · rw [min_eq_left (by omega), max_eq_left (by omega)]; simp
  · rw [min_eq_left (by omega), max_eq_right (by omega)]
    apply BitVec.eq_of_toNat_eq
    rw [BitVec.toNat_sub_of_le (by simp [BitVec.le_def]; omega)]
    simp
    rw [Int.emod_eq_of_lt (by omega) (by omega)]; omega

theorem elPopc_fold {w : Nat} (a : BitVec w) (n : Nat) :
    (List.range n).foldl (fun v k => v + b2n (a.getLsbD k)) 0 = a.cpopNatRec n 0 := by
  induction n with
  | zero => simp
  | succ n ih =>
    rw [List.range_succ, List.foldl_append, ih, BitVec.cpopNatRec_succ]
    simp only [List.foldl_cons, List.foldl_nil]
    rw [BitVec.cpopNatRec_eq (acc := 0 + _)]
    cases a.getLsbD n <;> simp [b2n]

theorem elPopc_eq {w : Nat} (a : BitVec w) : elPopc a = a.cpop := by
  rw [elPopc, elPopc_fold]; rfl

theorem elFfs_eq {w : Nat} (a : BitVec w) : elFfs a = Claim.ffs a := by
  unfold elFfs Claim.ffs lowestSet
  by_cases h : a = 0
  · subst h
    have : (List.range w).find? (fun k => (0 : BitVec w).getLsbD k) = none := by simp
    rw [this]; simp
  · have h1 := BitVec.getLsbD_true_ctz_of_ne_zero (x := a) h
    have hlt : a.ctz.toNat < w := by
      by_contra hc; rw [BitVec.getLsbD_of_ge _ _ (by omega)] at h1; simp at h1
    have : (List.range w).find? (fun k => a.getLsbD k) = some a.ctz.toNat := by
      rw [List.find?_range_eq_some]
      refine ⟨h1, by simpa using hlt, fun j hj => by simp [BitVec.getLsbD_false_of_lt_ctz hj]⟩
    simp [this]; exact fun h' => absurd h' h

theorem elClz_eq {w : Nat} (a : BitVec w) : elClz a = a.clz := by
  unfold elClz
  by_cases h : a = 0
  · subst h
    have : (0#w).clz = ↑w := BitVec.clz_eq_iff_eq_zero.2 rfl
    simp [this]
  · have h1 := BitVec.two_pow_sub_clz_le_toNat_of_ne_zero (x := a) (Nat.pos_of_ne_zero fun hw => h (by subst hw; exact BitVec.of_length_zero)) h
    have h2 := BitVec.toNat_lt_two_pow_sub_clz (x := a)
    have hn : a.toNat ≠ 0 := by simpa [← BitVec.toNat_inj] using h
    have hw : 0 < w - a.clz.toNat := by
      by_contra hc; rw [show w - a.clz.toNat = 0 by omega] at h2; omega
    have : a.toNat.log2 = w - a.clz.toNat - 1 := by
      rw [Nat.log2_eq_iff hn]; refine ⟨by convert h1 using 2; omega, ?_⟩; rwa [show w - a.clz.toNat - 1 + 1 = w - a.clz.toNat by omega]
    rw [if_neg hn, this]
    apply BitVec.eq_of_toNat_eq
    rw [BitVec.toNat_ofNat, show w - 1 - (w - a.clz.toNat - 1) = a.clz.toNat by omega, Nat.mod_eq_of_lt a.clz.isLt]

theorem elBrev_fold {w : Nat} (a : BitVec w) (n i : Nat) (h : n ≤ w) (hi : i < w) :
    ((List.range n).foldl (fun v k => v + b2n (a.getLsbD k) * 2 ^ (w - 1 - k)) 0).testBit i =
      (decide (w - 1 - i < n) && a.getLsbD (w - 1 - i)) ∧ 
    ((List.range n).foldl (fun v k => v + b2n (a.getLsbD k) * 2 ^ (w - 1 - k)) 0) % 2 ^ (w - n) = 0 := by
  induction n with
  | zero => simp
  | succ n ih =>
    obtain ⟨ih1, ih2⟩ := ih (by omega)
    rw [List.range_succ, List.foldl_append]
    simp only [List.foldl_cons, List.foldl_nil]
    generalize (List.range n).foldl (fun v k => v + b2n (a.getLsbD k) * 2 ^ (w - 1 - k)) 0 = v at *
    obtain ⟨q, rfl⟩ := Nat.dvd_of_mod_eq_zero ih2
    have e : w - n = w - 1 - n + 1 := by omega
    rw [show w - (n+1) = w - 1 - n by omega]
    constructor
    · by_cases hi' : i = w - 1 - n
      · subst hi'
        rw [show w - 1 - (w - 1 - n) = n by omega] at *
        have h3 : (2 ^ (w - n) * q + b2n (a.getLsbD n) * 2 ^ (w - 1 - n)) = 2 ^ (w - 1 - n) * (2 * q + b2n (a.getLsbD n)) := by
          rw [e, pow_succ]; ring
        rw [h3, Nat.testBit_two_pow_mul]
        cases a.getLsbD n <;> simp [b2n]
      · have h3 : (decide (w - 1 - i < n + 1)) = decide (w - 1 - i < n) := by
          rw [decide_eq_decide]; omega
        rw [h3, ← ih1]
        cases a.getLsbD n
        · simp [b2n]
        · simp only [b2n, if_true, one_mul]
          rw [e, pow_succ, mul_assoc, ← Nat.mul_add_one, Nat.testBit_two_pow_mul, Nat.testBit_two_pow_mul]
          by_cases hge : w - 1 - n ≤ i
          · have : ∃ j, i - (w - 1 - n) = j + 1 := ⟨i - (w-1-n) - 1, by omega⟩
            obtain ⟨j, hj⟩ := this
            simp only [hge, hj, Nat.testBit_succ]; congr 2; omega
          · simp [hge]
    · apply Nat.mod_eq_zero_of_dvd
      rw [e, pow_succ]; exact Dvd.dvd.trans (b := 2 ^ (w - 1 - n)) (dvd_refl _) ⟨2 * q + b2n (a.getLsbD n), by ring⟩

theorem elBrev_eq {w : Nat} (a : BitVec w) : elBrev a = a.reverse := by
  apply BitVec.eq_of_getLsbD_eq
  intro i hi
  rw [BitVec.getLsbD_reverse, elBrev, BitVec.getLsbD_ofNat, (elBrev_fold a w i le_rfl hi).1, BitVec.getMsbD]
  simp [hi]; omega

theorem cat2_el (p q : BitVec 16) : ((p ++ q : BitVec 32).extractLsb' 0 16 = q) ∧ ((p ++ q : BitVec 32).extractLsb' 16 16 = p) := by
  constructor <;> apply BitVec.eq_of_getLsbD_eq <;> intro i hi <;>
    rw [BitVec.getLsbD_extractLsb', BitVec.getLsbD_append] <;> simp [hi]

theorem cat4_el (p q r t : BitVec 8) : ((p ++ q ++ r ++ t : BitVec 32).extractLsb' 0 8 = t) ∧ ((p ++ q ++ r ++ t : BitVec 32).extractLsb' 8 8 = r) ∧
  ((p ++ q ++ r ++ t : BitVec 32).extractLsb' 16 8 = q) ∧ ((p ++ q ++ r ++ t : BitVec 32).extractLsb' 24 8 = p) := by
  refine ⟨?_, ?_, ?_, ?_⟩ <;> apply BitVec.eq_of_getLsbD_eq <;> intro i hi <;>
    rw [BitVec.getLsbD_extractLsb'] <;> simp only [BitVec.getLsbD_append, hi, decide_true, Bool.true_and] <;> split_ifs <;> first | omega | (congr 1; omega)

theorem mapX2_el (f : BitVec 16 → BitVec 16 → BitVec 16) (x y : Word) (k : Nat) (hk : k < 2) :
    (mapX2 f x y).extractLsb' (16 * k) 16 = f (x.extractLsb' (16 * k) 16) (y.extractLsb' (16 * k) 16) :=
  match k, hk with
  | 0, _ => (cat2_el _ _).1
  | 1, _ => (cat2_el _ _).2

theorem mapX4_el (f : BitVec 8 → BitVec 8 → BitVec 8) (x y : Word) (k : Nat) (hk : k < 4) :
    (mapX4 f x y).extractLsb' (8 * k) 8 = f (x.extractLsb' (8 * k) 8) (y.extractLsb' (8 * k) 8) :=
  match k, hk with
  | 0, _ => (cat4_el _ _ _ _).1
  | 1, _ => (cat4_el _ _ _ _).2.1
  | 2, _ => (cat4_el _ _ _ _).2.2.1
  | 3, _ => (cat4_el _ _ _ _).2.2.2

end Sys2Proof.Machine
end

