-- ==== Sys2Proof/Laws/Memory.lean ====
section
/-! SUPPORT. Memory in its canonical form: what a read finds after a write, that every memory operation keeps the
form, that two memories of the form with equal bytes are equal, and that every operation of an L1 leaves at most one
byte for a key. -/

namespace Sys2Proof.Machine

/-! ## Bytes -/

/-- Below its first address, a memory in its form reads as zero. -/
theorem Memory.get_below (m : Memory) (lo a : Nat) (h : Memory.wfFrom lo m = true) (ha : a < lo) : Memory.get m a = 0 := by
  cases m with
  | nil => rfl
  | cons e es =>
    obtain ⟨k, v⟩ := e
    simp only [Memory.wfFrom, Bool.and_eq_true, decide_eq_true_eq] at h
    simp only [Memory.get]
    rw [if_pos (by omega)]

/-- A later start asks for more. -/
theorem Memory.wfFrom_mono (m : Memory) (lo lo' : Nat) (h : Memory.wfFrom lo m = true) (hl : lo' ≤ lo) :
    Memory.wfFrom lo' m = true := by
  cases m with
  | nil => rfl
  | cons e es =>
    obtain ⟨k, v⟩ := e
    simp only [Memory.wfFrom, Bool.and_eq_true, decide_eq_true_eq] at h ⊢
    exact ⟨⟨by omega, h.1.2⟩, h.2⟩

/-- A write of one byte keeps the form. -/
theorem Memory.wfFrom_set (m : Memory) (lo a : Nat) (v : Byte) (h : Memory.wfFrom lo m = true) (ha : lo ≤ a) :
    Memory.wfFrom lo (Memory.set m a v) = true := by
  induction m generalizing lo with
  | nil =>
    simp only [Memory.set]
    split <;> simp_all [Memory.wfFrom]
  | cons e es ih =>
    obtain ⟨k, w⟩ := e
    have h' := h
    simp only [Memory.wfFrom, Bool.and_eq_true, decide_eq_true_eq] at h
    obtain ⟨⟨h1, h2⟩, h3⟩ := h
    simp only [Memory.set]
    split
    · split
      · exact h'
      · simp only [Memory.wfFrom, Bool.and_eq_true, decide_eq_true_eq]
        exact ⟨⟨ha, by assumption⟩, ⟨by omega, h2⟩, h3⟩
    · split
      · split
        · exact Memory.wfFrom_mono _ _ _ h3 (by omega)
        · simp only [Memory.wfFrom, Bool.and_eq_true, decide_eq_true_eq]
          exact ⟨⟨ha, by assumption⟩, by subst_vars; exact h3⟩
      · simp only [Memory.wfFrom, Bool.and_eq_true, decide_eq_true_eq]
        exact ⟨⟨h1, h2⟩, ih (k + 1) h3 (by omega)⟩

/-- A write of one byte keeps the form. -/
theorem Memory.wf_set (m : Memory) (a : Nat) (v : Byte) (h : Memory.wf m = true) : Memory.wf (Memory.set m a v) = true :=
  Memory.wfFrom_set m 0 a v h (Nat.zero_le a)

/-- A byte reads as it was written, and every other byte as before. -/
theorem Memory.getFrom_set (m : Memory) (lo a b : Nat) (v : Byte) (h : Memory.wfFrom lo m = true) :
    Memory.get (Memory.set m a v) b = if b = a then v else Memory.get m b := by
  induction m generalizing lo with
  | nil =>
    simp only [Memory.set]
    by_cases hv : v = 0
    · rw [if_pos hv]; simp [Memory.get, hv]
    · rw [if_neg hv]
      by_cases hb : b = a
      · simp [Memory.get, hb]
      · simp [Memory.get, hb]
  | cons e es ih =>
    obtain ⟨k, w⟩ := e
    simp only [Memory.wfFrom, Bool.and_eq_true, decide_eq_true_eq] at h
    obtain ⟨⟨h1, h2⟩, h3⟩ := h
    have below := fun x (hx : x < k + 1) => Memory.get_below es (k + 1) x h3 hx
    simp only [Memory.set]
    split
    · split
      · by_cases hb : b = a
        · subst hb; subst_vars; simp [Memory.get, *]
        · simp [hb]
      · by_cases hb : b = a
        · subst hb; simp [Memory.get]
        · by_cases hl : b < a
          · have : b < k := by omega
            simp [Memory.get, hl, hb, this]
          · simp [Memory.get, hl, hb]
    · split
      · subst_vars
        split
        · by_cases hb : b = k
          · subst hb; subst_vars; simp [below b (by omega)]
          · by_cases hl : b < k
            · simp [Memory.get, hl, hb, below b (by omega)]
            · simp [Memory.get, hl, hb]
        · by_cases hb : b = k
          · subst hb; simp [Memory.get]
          · simp [Memory.get, hb]
      · have hs := ih (k + 1) h3
        by_cases hb : b < k
        · have : b ≠ a := by omega
          simp [Memory.get, hb, this]
        · by_cases hk : b = k
          · have : b ≠ a := by omega
            simp [Memory.get, hk]
            intro e; omega
          · simp [Memory.get, hb, hk, hs]

/-- A byte reads as it was written, and every other byte as before. -/
theorem Memory.get_set (m : Memory) (a b : Nat) (v : Byte) (h : Memory.wf m = true) :
    Memory.get (Memory.set m a v) b = if b = a then v else Memory.get m b := Memory.getFrom_set m 0 a b v h

/-- A write of a byte string keeps the form. -/
theorem Memory.wf_write (l : List Byte) (m : Memory) (a : Nat) (h : Memory.wf m = true) :
    Memory.wf (Memory.write m a l) = true := by
  induction l generalizing m a with
  | nil => exact h
  | cons b bs ih => exact ih _ _ (Memory.wf_set m a b h)

/-- The bytes written read as they were written, and every other byte as before. -/
theorem Memory.get_write (l : List Byte) (m : Memory) (a b : Nat) (h : Memory.wf m = true) :
    Memory.get (Memory.write m a l) b = if a ≤ b ∧ b < a + l.length then l.getD (b - a) 0 else Memory.get m b := by
  induction l generalizing m a with
  | nil => simp only [Memory.write, List.length_nil]; rw [if_neg (by omega)]
  | cons x xs ih =>
    simp only [Memory.write]
    rw [ih _ _ (Memory.wf_set m a x h), Memory.get_set m a b x h]
    simp only [List.length_cons]
    by_cases h1 : b = a
    · subst h1
      rw [if_neg (by omega), if_pos rfl, if_pos (by omega)]
      simp
    · by_cases h2 : a + 1 ≤ b ∧ b < a + 1 + xs.length
      · rw [if_pos h2, if_pos (by omega)]
        have : b - a = (b - (a + 1)) + 1 := by omega
        rw [this, List.getD_cons_succ]
      · rw [if_neg h2, if_neg h1, if_neg (by omega)]

/-- A read gives the bytes at its addresses. -/
theorem Memory.read_eq (m : Memory) (a n : Nat) : Memory.read m a n = (List.range n).map fun k => Memory.get m (a + k) := by
  induction n generalizing a with
  | zero => rfl
  | succ n ih =>
    rw [List.range_succ_eq_map, List.map_cons, List.map_map]
    simp only [Memory.read, ih (a + 1), Nat.add_zero]
    congr 1
    apply List.map_congr_left
    intro k _
    simp only [Function.comp]
    congr 1
    omega

/-- Memories of the form that start where they start and hold equal bytes are equal. -/
theorem Memory.extFrom (m m' : Memory) (lo : Nat) (h : Memory.wfFrom lo m = true) (h' : Memory.wfFrom lo m' = true)
    (he : ∀ a, Memory.get m a = Memory.get m' a) : m = m' := by
  induction m generalizing m' lo with
  | nil =>
    cases m' with
    | nil => rfl
    | cons e es =>
      obtain ⟨k, v⟩ := e
      simp only [Memory.wfFrom, Bool.and_eq_true, decide_eq_true_eq] at h'
      have := he k
      simp [Memory.get] at this
      exact absurd this.symm h'.1.2
  | cons e es ih =>
    obtain ⟨k, v⟩ := e
    have hh := h
    simp only [Memory.wfFrom, Bool.and_eq_true, decide_eq_true_eq] at h
    cases m' with
    | nil =>
      have := he k
      simp [Memory.get] at this
      exact absurd this h.1.2
    | cons e' es' =>
      obtain ⟨k', v'⟩ := e'
      have hh' := h'
      simp only [Memory.wfFrom, Bool.and_eq_true, decide_eq_true_eq] at h'
      have hk : k = k' := by
        rcases Nat.lt_trichotomy k k' with hl | hl | hl
        · have := he k
          simp [Memory.get, hl] at this
          exact absurd this h.1.2
        · exact hl
        · have := he k'
          simp [Memory.get, hl] at this
          exact absurd this.symm h'.1.2
      subst hk
      have hv : v = v' := by
        have := he k
        simpa [Memory.get] using this
      subst hv
      congr 1
      refine ih es' (k + 1) h.2 h'.2 fun a => ?_
      by_cases ha : a < k + 1
      · rw [Memory.get_below es _ a h.2 ha, Memory.get_below es' _ a h'.2 ha]
      · have := he a
        have h1 : ¬a < k := by omega
        have h2 : ¬a = k := by omega
        simpa [Memory.get, h1, h2] using this

/-- Memories of the form with equal bytes are equal data. -/
theorem Memory.ext_get (m m' : Memory) (h : Memory.wf m = true) (h' : Memory.wf m' = true)
    (he : ∀ a, Memory.get m a = Memory.get m' a) : m = m' := Memory.extFrom m m' 0 h h' he

/-! ## The L1 of a core -/

/-- A write-back keeps the form of memory. -/
theorem MemSys.wf_writeBack (m : MemSys) (p : L1Byte → Bool) (h : Memory.wf m.mem = true) :
    Memory.wf (m.writeBack p).mem = true := by
  unfold MemSys.writeBack
  generalize m.l1 = l
  simp only
  generalize m.mem = x at h ⊢
  induction l generalizing x with
  | nil => exact h
  | cons b bs ih =>
    simp only [List.foldl_cons]
    split
    · exact ih _ (Memory.wf_set _ _ _ h)
    · exact ih _ h

/-- An eviction keeps the form of memory. -/
theorem MemSys.wf_evict (m : MemSys) (p : L1Byte → Bool) (h : Memory.wf m.mem = true) :
    Memory.wf (m.evict p).mem = true := MemSys.wf_writeBack m p h

/-- Giving a line a way leaves memory as it is, and drops some bytes of the L1. -/
theorem MemSys.place_drops (m : MemSys) (u : Use) (line : Nat) :
    (m.place u line).mem = m.mem ∧ ∃ p, (m.place u line).l1 = (m.drop p).l1 := by
  unfold MemSys.place
  simp only
  split
  · exact ⟨rfl, fun _ => false, by simp [MemSys.drop, MemSys.note]⟩
  · split
    · exact ⟨rfl, fun _ => false, by simp [MemSys.drop]⟩
    · exact ⟨rfl, _, rfl⟩

/-- Giving a line a way keeps the form of memory. -/
theorem MemSys.wf_place (m : MemSys) (u : Use) (line : Nat) (h : Memory.wf m.mem = true) :
    Memory.wf (m.place u line).mem = true := by
  rw [(m.place_drops u line).1]; exact h

/-- An allocation keeps the form of memory. -/
theorem MemSys.wf_alloc (m : MemSys) (u : Use) (line : Nat) (h : Memory.wf m.mem = true) :
    Memory.wf (m.alloc u line).mem = true := MemSys.wf_place _ u line h

/-- A fill keeps the form of memory. -/
theorem MemSys.wf_fill (m : MemSys) (u : Use) (line : Nat) (h : Memory.wf m.mem = true) :
    Memory.wf (m.fill u line).mem = true := MemSys.wf_alloc m u line h

/-- A load keeps the form of memory. -/
theorem MemSys.wf_load (m : MemSys) (u : Use) (key n : Nat) (h : Memory.wf m.mem = true) :
    Memory.wf (m.load u key n).2.mem = true := by
  unfold MemSys.load
  simp only
  split
  · exact MemSys.wf_alloc m u _ h
  · exact MemSys.wf_fill _ u _ (MemSys.wf_alloc m u _ h)

/-- A store into the L1 keeps the form of memory. -/
theorem MemSys.wf_store (m : MemSys) (u : Use) (key tick : Nat) (l : List Byte) (h : Memory.wf m.mem = true) :
    Memory.wf (m.store u key tick l).mem = true := MemSys.wf_alloc m u _ h

/-- A release keeps the form of memory. -/
theorem MemSys.wf_release (m : MemSys) (core dev : Nat) (sc : Scope) (h : Memory.wf m.mem = true) :
    Memory.wf (m.release core dev sc).mem = true := by
  unfold MemSys.release
  split
  · exact MemSys.wf_writeBack m _ h
  · exact h

/-- A write-back over the fabric keeps the form of memory. -/
theorem wf_pushBack (s : State) (p : L1Byte → Bool) (h : Memory.wf s.ms.mem = true) :
    Memory.wf (s.pushBack p).ms.mem = true := MemSys.wf_writeBack _ _ h

/-- A write at the point of coherence keeps the form of memory. -/
theorem wf_pocWrite (s : State) (key : Nat) (l : List Byte) (h : Memory.wf s.ms.mem = true) :
    Memory.wf (s.pocWrite key l).ms.mem = true := Memory.wf_write l _ _ h

/-- A filter keeps the form, from its first address on. -/
theorem Memory.wfFrom_filter (m : Memory) (lo : Nat) (p : Host.Cell → Bool) (h : Memory.wfFrom lo m = true) :
    Memory.wfFrom lo (m.filter p) = true := by
  induction m generalizing lo with
  | nil => rfl
  | cons e es ih =>
    obtain ⟨k, v⟩ := e
    simp only [Memory.wfFrom, Bool.and_eq_true, decide_eq_true_eq] at h
    rw [List.filter_cons]
    split
    · simp only [Memory.wfFrom, Bool.and_eq_true, decide_eq_true_eq]
      exact ⟨h.1, ih _ h.2⟩
    · exact Memory.wfFrom_mono _ _ _ (ih _ h.2) (by omega)

/-- A memory that loses a run keeps the form. -/
theorem Memory.wf_dropRun (m : Memory) (a n : Nat) (h : Memory.wf m = true) : Memory.wf (Memory.dropRun m a n) = true :=
  Memory.wfFrom_filter m 0 _ h

/-- A copy of a run keeps the form. -/
theorem Memory.wf_copyRun (m : Memory) (src dst n : Nat) (h : Memory.wf m = true) :
    Memory.wf (Memory.copyRun m src dst n) = true := by
  unfold Memory.copyRun
  have h := Memory.wfFrom_filter m 0 (fun c => !decide (dst ≤ c.1 ∧ c.1 < dst + n)) h
  generalize m.filter (fun c => !decide (dst ≤ c.1 ∧ c.1 < dst + n)) = x at h ⊢
  generalize List.filter _ _ = l
  induction l generalizing x with
  | nil => exact h
  | cons c cs ih => exact ih _ (Memory.wf_set x _ _ h)

/-- A write of scratch keeps the form of scratch. -/
theorem wf_scrWrite (tm : Team) (off : Nat) (l : List Byte) (h : Memory.wf tm.scratch = true) :
    Memory.wf (tm.scrWrite off l).scratch = true := Memory.wf_write l _ _ h

/-- The keys of an L1. -/
def l1Keys (l : List L1Byte) : List (Nat × Nat) := l.map fun b => (b.core, b.key)

/-- A write-back keeps the keys. -/
theorem l1Keys_writeBack (m : MemSys) (p : L1Byte → Bool) : l1Keys (m.writeBack p).l1 = l1Keys m.l1 := by
  simp only [l1Keys, MemSys.writeBack, List.map_map]
  apply List.map_congr_left
  intro b _
  simp only [Function.comp]
  split <;> rfl

/-- Fewer bytes, still one for a key. -/
theorem l1Keys_filter (l : List L1Byte) (p : L1Byte → Bool) (h : (l1Keys l).Nodup) : (l1Keys (l.filter p)).Nodup :=
  List.Nodup.sublist (List.Sublist.map _ List.filter_sublist) h

/-- An eviction keeps the form of the L1. -/
theorem l1Keys_evict (m : MemSys) (p : L1Byte → Bool) (h : (l1Keys m.l1).Nodup) : (l1Keys (m.evict p).l1).Nodup :=
  l1Keys_filter _ _ (by rw [l1Keys_writeBack]; exact h)

/-- A drop keeps the form of the L1. -/
theorem l1Keys_drop (m : MemSys) (p : L1Byte → Bool) (h : (l1Keys m.l1).Nodup) : (l1Keys (m.drop p).l1).Nodup :=
  l1Keys_filter _ _ h

/-- A write-back over the fabric keeps the form of the L1. -/
theorem l1Keys_pushBack (s : State) (p : L1Byte → Bool) (h : (l1Keys s.ms.l1).Nodup) :
    (l1Keys (s.pushBack p).ms.l1).Nodup := by
  show (l1Keys (MemSys.writeBack _ _).l1).Nodup
  rw [l1Keys_writeBack]
  exact l1Keys_drop _ _ h

/-- An allocation keeps the form of the L1. -/
theorem l1Keys_alloc (m : MemSys) (u : Use) (line : Nat) (h : (l1Keys m.l1).Nodup) : (l1Keys (m.alloc u line).l1).Nodup := by
  unfold MemSys.alloc
  obtain ⟨-, p, h1⟩ := (m.drop fun b => b.core == u.core && lineOf b.key == line && b.dev != u.dev && !b.dirty).place_drops u line
  rw [h1]
  exact l1Keys_drop _ p (l1Keys_drop m _ h)

/-- A byte that is not found is not there. -/
theorem l1Find_none (m : MemSys) (core key : Nat) (h : (m.l1Find core key).isNone = true) : (core, key) ∉ l1Keys m.l1 := by
  intro hm
  obtain ⟨b, hb, he⟩ := List.mem_map.mp hm
  rw [Option.isNone_iff_eq_none] at h
  have := List.find?_eq_none.mp h b hb
  simp only [Prod.mk.injEq] at he
  simp [he.1, he.2] at this

/-- A fill keeps the form of the L1. -/
theorem l1Keys_fill (m : MemSys) (u : Use) (line : Nat) (h : (l1Keys m.l1).Nodup) :
    (l1Keys (m.fill u line).l1).Nodup := by
  unfold MemSys.fill
  have ha := l1Keys_alloc m u line h
  generalize m.alloc u line = x at ha
  simp only [l1Keys, List.map_append, List.map_map]
  rw [List.nodup_append]
  refine ⟨ha, ?_, ?_⟩
  · refine List.Nodup.map_on ?_ (List.Nodup.filter _ List.nodup_range)
    intro a _ b _ hab
    simp only [Function.comp, Prod.mk.injEq] at hab
    omega
  · intro a ha' b hb hab
    subst hab
    obtain ⟨k, hk, rfl⟩ := List.mem_map.mp hb
    exact l1Find_none x u.core (128 * line + k) (List.mem_filter.mp hk).2 ha'

/-- A store keeps the form of the L1. -/
theorem l1Keys_store (m : MemSys) (u : Use) (key tick : Nat) (l : List Byte) (h : (l1Keys m.l1).Nodup) :
    (l1Keys (m.store u key tick l).l1).Nodup := by
  unfold MemSys.store
  have ha := l1Keys_alloc m u (lineOf key) h
  generalize m.alloc u (lineOf key) = x at ha
  simp only [l1Keys, List.map_append, List.map_map]
  rw [List.nodup_append]
  refine ⟨l1Keys_filter _ _ ha, ?_, ?_⟩
  · have : (l.zipIdx.map ((fun b : L1Byte => (b.core, b.key)) ∘ fun e : Byte × Nat =>
        x.stored u key l.length tick (key + e.2) e.1)) = (List.range l.length).map fun k => (u.core, key + k) := by
      apply List.ext_getElem
      · simp
      · intro n h1 h2; simp [MemSys.stored]
    rw [this]
    exact List.nodup_range.map fun a b hab => by simpa using hab
  · intro a ha' b hb hab
    subst hab
    obtain ⟨c, hc, rfl⟩ := List.mem_map.mp ha'
    obtain ⟨e, he, heq⟩ := List.mem_map.mp hb
    have hl := (List.mem_zipIdx he).2.1
    have hf := (List.mem_filter.mp hc).2
    simp only [Function.comp, MemSys.stored, Prod.mk.injEq] at heq
    simp only [← heq.1, ← heq.2] at hf
    simp at hf
    omega

/-- A load keeps the form of the L1. -/
theorem l1Keys_load (m : MemSys) (u : Use) (key n : Nat) (h : (l1Keys m.l1).Nodup) :
    (l1Keys (m.load u key n).2.l1).Nodup := by
  unfold MemSys.load
  simp only
  split
  · exact l1Keys_alloc m u _ h
  · exact l1Keys_fill _ u _ (l1Keys_alloc m u _ h)

/-! ## Reset -/

/-- Reset memory lists nothing and has the form. -/
theorem reset_memWf : State.reset.memWf = true ∧ State.reset.l1Wf := ⟨rfl, List.nodup_nil⟩

/-- A fetch of a word that nothing has replaced since the launch was placed gives the word that stands there (R56). -/
theorem fetched_of_unchanged (s : State) (born key : Nat) (h : s.ms.pastWords born key = []) :
    s.fetched born key = BitVec.ofNat 32 (Memory.readNat s.ms.mem key 4) := by
  unfold State.fetched
  rw [h]

end Sys2Proof.Machine
end

