-- ==== Sys2Proof/Tests/Slice0.lean ====
section
/-! SUPPORT. The smoke test of well-formedness, decoding of words written out from the spec's encodings, single steps
on a small machine with results taken from the spec, and for every statement states and operands that meet its
hypotheses. -/

set_option Elab.async false

namespace Sys2Proof.Tests

open Sys2Proof.Machine

/-! ## A small machine -/

/-- The thread of the machine: it stands at its instruction at level S, with g0 to g127 zero. -/
def thr : Thread := placedThread 0 1 0

/-- It with its team and launch. -/
def ctx : Ctx := ⟨thr, placedTeam 0, placedLaunch 0⟩

/-- A machine with one thread, at ADD g8, g7, g7: device 0 in partition 0, whose page at 0x10000 holds a clause of
one word. -/
def home : State :=
  { State.reset with
    threads := [thr]
    teams := [placedTeam 0]
    launches := [placedLaunch 0]
    issuing := { Issue.idle with members := [2] }
    nextId := 3
    mgmt := [(0x98000000, 0x8000000100000000), (0x90000010, 1), (0x90000000, 0x8000000000000001)]
    ms := { State.reset.ms with
      tlb := [placedPage]
      mem := [(0x10001, 0xF0), (0x10002, 0x0F), (0x10004, 0xE0), (0x10005, 0x70), (0x10006, 0x40), (0x10007, 0x04)] } }

/-- The machine with its thread, team and launch changed. -/
def machine (c : Ctx) : State := ((home.setThread c.t).setTeam c.tm).setLaunch c.l

/-- The thread changed, with its team and launch. -/
def ctxOf (t : Thread) : Ctx := ⟨t, placedTeam 0, placedLaunch 0⟩

/-- The machine with its thread changed. -/
def at' (t : Thread) : State := machine (ctxOf t)

theorem home_cur : home.cur? = some ctx := rfl

/-- The thread meets operands within its 128 registers. -/
theorem home_ready {dst reads : List Blk} (h : firstBeyond 128 (dst ++ reads) = none) (p : thr.poisoned reads = none) :
    home.Ready ctx Mods.empty dst reads := ⟨home_cur, by decide +kernel, h, p⟩

/-- The thread meets the registers of a form without a prefix. -/
theorem home_ready' {regs : List Blk} (h : firstBeyond 128 regs = none) (p : thr.poisoned regs = none) :
    home.Ready' ctx regs := ⟨home_cur, h, p⟩

/-! ## Hypotheses met: instructions of one thread -/

/-- The thread meets each of these destinations and sources. -/
theorem ready_all (l : List (List Blk × List Blk))
    (h : (l.all fun e => firstBeyond 128 (e.1 ++ e.2) == none && thr.poisoned e.2 == none) = true) :
    ∀ e ∈ l, home.Ready ctx Mods.empty e.1 e.2 := by
  intro e he
  have := List.all_eq_true.mp h e he
  simp only [Bool.and_eq_true, beq_iff_eq] at this
  exact home_ready this.1 this.2

/-- The thread meets each of these lists of registers. -/
theorem ready_all' (l : List (List Blk))
    (h : (l.all fun e => firstBeyond 128 e == none && thr.poisoned e == none) = true) :
    ∀ e ∈ l, home.Ready' ctx e := by
  intro e he
  have := List.all_eq_true.mp h e he
  simp only [Bool.and_eq_true, beq_iff_eq] at this
  exact home_ready' this.1 this.2

/-- The changed thread is found. -/
theorem thread_at (t : Thread) (h : t.id = 2) : (at' t).thread? 2 = some t := by
  show (home.setThread t).thread? 2 = some t
  rw [thread?_setThread, if_pos h.symm, show home.thread? 2 = some thr from rfl]
  rfl

/-- The changed thread executes in the changed machine, with its changed team and launch. -/
theorem cur_machine (c : Ctx) (h : c.t.id = 2 ∧ c.t.team = 1 ∧ c.tm.id = 1 ∧ c.tm.launch = 0 ∧ c.l.id = 0) :
    (machine c).cur? = some c := by
  obtain ⟨h1, h2, h3, h4, h5⟩ := h
  have ht : (machine c).thread? 2 = some c.t := by
    show (home.setThread c.t).thread? 2 = some c.t
    rw [thread?_setThread, if_pos h1.symm, show home.thread? 2 = some thr from rfl]
    rfl
  have hm : (machine c).team? 1 = some c.tm := by
    show ((home.setThread c.t).setTeam c.tm).team? 1 = some c.tm
    rw [team?_setTeam, if_pos h3.symm, team?_setThread, show home.team? 1 = some (placedTeam 0) from rfl]
    rfl
  have hl : (machine c).launch? 0 = some c.l := by
    show (((home.setThread c.t).setTeam c.tm).setLaunch c.l).launch? 0 = some c.l
    rw [launch?_setLaunch, if_pos h5.symm, launch?_setTeam, launch?_setThread,
      show home.launch? 0 = some (placedLaunch 0) from rfl]
    rfl
  have hi : (machine c).issuing.members = [2] := by
    rfl
  unfold State.cur? State.ctx?
  rw [hi]
  simp only [ht, h2, hm, h4, hl]

/-- The changed thread executes in the changed machine. -/
theorem cur_at (t : Thread) (h : t.id = 2) (h' : t.team = 1) : (at' t).cur? = some (ctxOf t) :=
  cur_machine (ctxOf t) ⟨h, h', rfl, rfl, rfl⟩

theorem witness_IntegerRegisterForms :
    ∀ e ∈ [([one 127], [one 0, one 127]), ([one 127], [one 0]), ([pair 126], [one 0, one 127]),
        ([pair 126], [pair 0, pair 126]), ([pair 126], [pair 0])],
      home.Ready ctx Mods.empty e.1 e.2 := ready_all _ (by decide +kernel)

theorem witness_PackedIntegerForms :
    ∀ e ∈ [([one 127], [one 0, one 127]), ([one 127], [one 0])], home.Ready ctx Mods.empty e.1 e.2 :=
  ready_all _ (by decide +kernel)

theorem witness_ImmediateAndMoveForms :
    ∀ e ∈ [([one 127], [one 0]), ([pair 126], [pair 0]), ([one 127], [one 0, one 127]), ([one 127], []),
        ([pair 126], []), ([quad 124], [quad 0]), ([pair 126], [pair 0, one 127])],
      home.Ready ctx Mods.empty e.1 e.2 := ready_all _ (by decide +kernel)

theorem witness_MultiplyAddForms :
    ∀ e ∈ [([one 127], [one 0, one 1, one 127]), ([pair 126], [one 0, one 1, pair 126])],
      home.Ready ctx Mods.empty e.1 e.2 := ready_all _ (by decide +kernel)

theorem witness_CompareAndSelectForms :
    (∀ ty : CmpType, home.Ready ctx Mods.empty [] [ty.blk 0, ty.blk 126]) ∧
    (∀ ty : IntType, home.Ready ctx Mods.empty [] [ty.blk 126]) ∧
    CmpType.s32.float = false ∧ CmpType.f32.float = true ∧
    ∀ e ∈ [([one 127], [one 0, one 127]), ([pair 126], [pair 0, pair 126]), ([], []), ([one 127], []), ([], [one 127])],
      home.Ready ctx Mods.empty e.1 e.2 :=
  ⟨fun ty => by cases ty <;> exact home_ready (by decide +kernel) (by decide +kernel),
   fun ty => by cases ty <;> exact home_ready (by decide +kernel) (by decide +kernel), rfl, rfl,
   ready_all _ (by decide +kernel)⟩

theorem witness_FloatForms :
    ∀ e ∈ [([one 127], [one 0, one 127]), ([one 127], [one 0, one 1, one 127]), ([one 127], [one 0])],
      home.Ready ctx Mods.empty e.1 e.2 := ready_all _ (by decide +kernel)

theorem witness_ConversionForms :
    (∀ tf ff : Fmt, home.Ready ctx Mods.empty [tf.blk 126] (ff.blk 0 :: (if tf.width < 32 then [one 126] else []))) ∧
    ∀ e ∈ [([one 127], [eight 0, one 127]), ([eight 120], [one 0, one 127])], home.Ready ctx Mods.empty e.1 e.2 :=
  ⟨fun tf ff => by
    cases tf <;> cases ff <;> exact home_ready (by decide +kernel) (by decide +kernel),
   ready_all _ (by decide +kernel)⟩

/-- One half is an encoding of every format, one third lies between two in every mode, 2 to the 200 passes the greatest
magnitude with and without SAT, and 2 to the -200 is tiny, with and without FTZ. -/
theorem witness_RoundingTakesANeighbour :
    (∀ f ∈ [fp32, fp16, bf16, e4m3, e5m2],
      let val := fun k : Nat =>
        if k / 2 ^ f.mbits = 0 then k * 2 ^ (299 - f.bias - f.mbits)
        else (2 ^ f.mbits + k % 2 ^ f.mbits) * 2 ^ (298 + k / 2 ^ f.mbits - f.bias - f.mbits)
      let half := (f.roundMag rneEnv 0 false 1 2).1
      let third := (f.roundMag { rneEnv with mode := .rtz } 0 false 1 3).1
      val half * 2 = unit ∧ (val third * 3 < unit ∧ unit < val (third + 1) * 3) ∧ unit < val (2 ^ f.mbits) * 2 ^ 200 ∧
      ∀ mode ∈ [RMode.rne, .rtz, .rup, .rdn, .rna, .sr], ∀ sat ∈ [false, true],
        let env : REnv := { rneEnv with mode := mode, sat := sat }
        env.ftz = false ∧ (f.roundMag env 0 true 1 3).2.nx = true ∧ (f.roundMag env 0 true (2 ^ 200) 1).2.of = true ∧
          (f.roundMag env 0 true 1 (2 ^ 200)).2.uf = true) ∧
    (let env : REnv := { rneEnv with ftz := true }
     env.ftz = true ∧ ∀ f ∈ [fp32, fp16, bf16], (f.roundMag env 0 true 1 (2 ^ 200)).1 = 2 ^ (f.bits - 1)) := by
  decide +kernel

theorem witness_LaneClassOutcomes :
    home.cur? = some ctx ∧ (Instr.add Mods.empty 8 7 7).laneDst = some (Mods.empty, [one 8], []) ∧
    (at' { thr with alloc := 8 }).cur? = some (ctxOf { thr with alloc := 8 }) ∧
    (at' { thr with alloc := 8 }).on { thr with alloc := 8 } Mods.empty = true ∧
    firstBeyond 8 (Instr.add Mods.empty 8 7 7).blocks = some 8 :=
  ⟨home_cur, rfl, cur_at _ rfl rfl, by decide +kernel, by decide +kernel⟩

/-- A prefix that predicates the thread off. -/
def off : Mods := { Mods.empty with pre := some ⟨0, true, true, .rne, 0, false⟩ }

theorem witness_PredicatedOff :
    home.cur? = some ctx ∧ (Instr.add off 8 7 7).laneDst = some (off, [one 8], []) ∧ home.on ctx.t off = false := by
  exact ⟨home_cur, rfl, by decide +kernel⟩

/-- The thread with a level of LC0 and of LC1 whose end clause is its own, and so many iterations left. -/
def looping (n k : Nat) : Thread :=
  { thr with flow := { thr.flow with
      lc0 := ⟨0x10000, 0x10000, BitVec.ofNat 32 n⟩, lc1 := ⟨0x10000, 0x10000, BitVec.ofNat 32 k⟩ } }

/-- The thread on an Eddy core. -/
def eddied : Thread := { thr with place := .eddy 23 3 }

theorem witness_InstructionEnds :
    home.cur? = some ctx ∧
    (∀ c ∈ [ctxOf { thr with hdr := 0x000FF200 }],
      c.t.pc + BitVec.ofNat 56 (4 * Mods.empty.words) ≠ c.t.nextHeader) ∧
    (∀ t ∈ [looping 2 2, looping 1 2, looping 1 1, looping 0 0],
      t.pc + BitVec.ofNat 56 (4 * (Mods.empty.count + 1)) =
        t.cb + BitVec.ofNat 56 (4 * ((t.hdr.extractLsb' 9 3).toNat + 2))) ∧
    (let back := fun (t : Thread) (l : Loop) => l.stop = t.cb ∧ l.count ≠ 0 ∧ l.count ≠ 1
     back (looping 2 2) (looping 2 2).flow.lc0 ∧
     ¬back (looping 1 2) (looping 1 2).flow.lc0 ∧ back (looping 1 2) (looping 1 2).flow.lc1 ∧
     ¬back (looping 1 1) (looping 1 1).flow.lc0 ∧ ¬back (looping 1 1) (looping 1 1).flow.lc1) ∧
    (at' eddied).cur? = some (ctxOf eddied) ∧ eddied.place ≠ .home ∧ eddied.endsLoop (Mods.empty.count + 1) = false :=
  ⟨home_cur, by decide +kernel, by decide +kernel, by decide +kernel, cur_at _ rfl rfl, by decide +kernel,
    by decide +kernel⟩

/-- A result that is due now and one that is due later. -/
def pending : Thread :=
  { thr with pend := [⟨0, [(127, 1), (0, 2)], [(7, true), (0, true)], 1⟩, ⟨1, [(127, 3)], [], 0⟩] }

/-- An operation of the thread. -/
def operation (kind : OpKind) : Op := { Op.mk' 9 thr kind 0 with flags := 1 }

theorem witness_ResultsWritten :
    (at' pending).thread? 2 = some pending ∧ (0 : Nat) ≤ (at' pending).tick ∧ (at' pending).tick < 1 ∧
    ([127, 0] : List Nat).Nodup ∧ ([7, 0] : List Pred).Nodup ∧
    (let k := OpKind.trans [(127, 1)] 31
     ({ home with ops := [operation k] } : State).op? 9 = some (operation k)) ∧
    (let o := operation (.matrix [(2, [(127, 1), (0, 2)])] 31)
     ({ home with ops := [o, operation (.wb .dev 0)] } : State).op? 9 = some o ∧
       ([o, { operation (.wb .dev 0) with issue := 1 }].filter fun x => x.issue == o.issue) = [o] ∧
       ([2] : List Nat).Nodup ∧ ([127, 0] : List Nat).Nodup ∧ (home.thread? o.th).isSome) ∧
    home.thread? 2 = some thr :=
  ⟨thread_at _ rfl, by decide +kernel, by decide +kernel, by decide, by decide, rfl,
    ⟨rfl, rfl, by decide, by decide, rfl⟩, rfl⟩

/-- The thread with the divide-by-zero exception enabled. -/
def dzThread : Thread := { thr with fpcsr := BitVec.ofNat 32 (2 ^ 7) }

theorem witness_GeneratorAndTranscendentalForms :
    (∀ e ∈ [([one 127], [one 0, one 127]), ([one 127], [one 0])], home.Ready ctx Mods.empty e.1 e.2) ∧
    home.on ctx.t off = false ∧
    (let csr := home.csr thr
     csr.getLsbD 6 = false ∧ csr.getLsbD 7 = false ∧ csr.getLsbD 8 = false ∧ thr.flagRoom (hdrSets thr.hdr) = true) ∧
    (let csr := home.csr dzThread
     csrTraps csr = true ∧ fpTrap csr (FFlags.invalid true) = none ∧
     fpTrap csr (rcpOf rneEnv (.fin false 0)).2 = some .fpDivzero) :=
  ⟨ready_all _ (by decide +kernel), by decide +kernel, by decide +kernel, by decide +kernel⟩

/-- The thread at a depth of its return stack. -/
def depth (n : Nat) : Thread := { thr with flow := { thr.flow with depth := n } }

/-- The thread with a pair that holds the greatest canonical address, and one that holds the next. -/
def addresses : Thread :=
  thr.puts [(0, 0xFFFFFFFF), (1, 0x00FFFFFF), (2, 0), (3, 0x01000000)]

/-- The context of the thread in deterministic mode. -/
def detCtx : Ctx := ⟨thr, placedTeam 0, { placedLaunch 0 with det := true }⟩

/-- The modifiers of a branch with the EJECT hint. -/
def ejt : Mods := { Mods.empty with hint := some ⟨5, 0⟩ }

/-- The machine with a second thread in its group: the members that still execute, and those that did not branch. -/
def twoOf (members stayed : List Nat) : State :=
  { home with
    threads := [thr, { thr with id := 3, lane := 1 }]
    issuing := { Issue.idle with members := members, stayed := stayed } }

/-- It with 96 Eddy contexts for its partition on its die. -/
def shared : State := { twoOf [2] [3] with mgmt := (0x90000008, 0x6000000000) :: home.mgmt }

/-- The machine after its first thread has branched with the hint. -/
def branched (s : State) : State :=
  let u := s.commit ctx ejt 2 (ctx.t.jump (ctx.t.pc + BitVec.ofNat 56 (4 * ejt.count) + BitVec.ofInt 56 (4 * immS none 0#19)))
  { u with issuing := { u.issuing with taken := 2 :: u.issuing.taken } }

theorem witness_BranchAndCallForms_hint :
    ejt.sub = 5 ∧ ctx.t.place = .home ∧
    (∀ s ∈ [twoOf [2, 3] [], twoOf [2] [], twoOf [2] [3], shared], s.cur? = some ctx ∧ s.Ready' ctx [one 0, one 127]) ∧
    1 < (branched (twoOf [2, 3] [])).issuing.members.length ∧
    ((branched (twoOf [2] [])).issuing.members.length ≤ 1 ∧ (branched (twoOf [2] [])).issuing.stayed = []) ∧
    (machine detCtx).cur? = some detCtx ∧ detCtx.l.det = true ∧ ctx.l.det = false ∧
    (∀ s ∈ [twoOf [2] [3], shared], (branched s).issuing.members = [2] ∧ (branched s).issuing.taken = [2] ∧
      (branched s).issuing.stayed = [3] ∧ (branched s).issuing.trapped = [] ∧
      ∀ id ∈ [2, 3], ((branched s).ctx? id).map (fun x => x.tm.ejt) = some 2) ∧
    (let s := { twoOf [2] [3] with teams := [{ placedTeam 0 with ejt := 0 }] }
     s.cur?.map (fun c => c.t.id) = some 2 ∧ ((branched s).ctx? 3).map (fun x => x.tm.ejt) = some 0) ∧
    (branched (twoOf [2] [3])).eddyFree 0 0 = 0 ∧ (branched shared).eddyFree 0 0 = 96 ∧
    (branched shared).vdPart 0 = 0 ∧ coreDie 0 = 0 ∧ ((branched shared).thread? 2).isSome = true := by
  refine ⟨by decide +kernel, rfl, ?_, by decide +kernel, by decide +kernel, cur_machine _ ⟨rfl, rfl, rfl, rfl, rfl⟩, rfl, rfl,
    by decide +kernel, by decide +kernel, by decide +kernel, by decide +kernel, by decide +kernel, by decide +kernel,
    by decide +kernel⟩
  intro s hs
  simp only [List.mem_cons, List.not_mem_nil, or_false] at hs
  obtain rfl | rfl | rfl | rfl := hs <;> exact ⟨rfl, rfl, by decide +kernel, by decide +kernel⟩

theorem witness_BranchAndCallForms :
    home.Ready' ctx [one 0, one 127] ∧ (Mods.empty.sub ≠ 5 ∧ ctx.t.place = .home) ∧
    (Mods.sub { Mods.empty with hint := some ⟨5, 0⟩ } = 5 ∧ (.eddy 0 0 : Place) ≠ .home) ∧
    (home.pred ctx.t 0 = true ∧ home.pred ctx.t 1 = false) ∧
    (∀ n ∈ [0, 7, 8], (at' (depth n)).cur? = some (ctxOf (depth n))) ∧
    ((at' addresses).Ready' (ctxOf addresses) [pair 0] ∧ ((at' addresses).reg64 addresses 0).toNat < 2 ^ 56 ∧
      (at' addresses).Ready' (ctxOf addresses) [pair 2] ∧ 2 ^ 56 ≤ ((at' addresses).reg64 addresses 2).toNat) := by
  refine ⟨home_ready' (by decide +kernel) (by decide +kernel), by decide +kernel, by decide +kernel, by decide +kernel,
    fun n _ => cur_at _ rfl rfl, ⟨cur_at _ rfl rfl, by decide +kernel, by decide +kernel⟩, by decide +kernel,
    ⟨cur_at _ rfl rfl, by decide +kernel, by decide +kernel⟩, by decide +kernel⟩

/-- The thread with 5 in g0. -/
def five : Thread := thr.put 0 5

theorem witness_LoopForms :
    (at' five).Ready' (ctxOf five) [one 0] ∧ (at' five).reg32 five 0 ≠ 0 ∧
    home.Ready' ctx [one 0] ∧ home.reg32 ctx.t 0 = 0 ∧
    home.fetch 0 0 0 0 .s 0x10000 = .ok 0x000FF000 ∧
    (let s : State := { home with ms := { home.ms with tlb := [{ placedPage with leaf := 0x10007 }] } }
     s.fetch 0 0 0 0 .s 0x10000 = .fault ⟨0, 2, false⟩) := by
  refine ⟨⟨cur_at _ rfl rfl, by decide +kernel, by decide +kernel⟩, by decide +kernel,
    home_ready' (by decide +kernel) (by decide +kernel), by decide +kernel, by decide +kernel, by decide +kernel⟩

/-- The machine with a second thread of the group on an Eddy core. -/
def parted : State := { home with threads := [thr, { thr with id := 3, lane := 1, place := .eddy 0 0 }] }

/-- The machine whose team stops, with its thread asleep. -/
def stopping : Ctx := ⟨{ thr with wait := .sleep 9 true }, { placedTeam 0 with phase := .preempting }, placedLaunch 0⟩

theorem witness_WaitingForms :
    home.cur? = some ctx ∧ home.pred ctx.t 0 = true ∧ home.pred ctx.t 1 = false ∧ (∀ e x, ctx.t.place ≠ .eddy e x) ∧
    (let away := fun (s : State) (c : Ctx) => s.threads.any fun x =>
       x.team == c.t.team && x.grp == c.t.grp && x.id != c.t.id && x.place.context.isSome
     away home ctx = false ∧ parted.cur? = some ctx ∧ away parted ctx = true ∧ ctx.l.det = false ∧
       parted.tick < ctx.t.held.getD parted.tick + 4096 ∧
       (machine detCtx).cur? = some detCtx ∧ detCtx.l.det = true ∧
       (at' { thr with held := some 0 }).cur? = some (ctxOf { thr with held := some 0 }) ∧
       (0 : Nat) + (if Mods.sub { Mods.empty with hint := some ⟨2, 0⟩ } = 2 then 0 else 4096) ≤ home.tick) ∧
    (at' eddied).cur? = some (ctxOf eddied) ∧ eddied.place = .eddy 23 3 ∧
    immU none (0 : BitVec 19) % 2 ^ 32 = 0 ∧ immU none (BitVec.allOnes 19) % 2 ^ 32 ≠ 0 ∧
    (∀ t ∈ [{ thr with wait := .join 0 }, { thr with wait := .join 1 }, { thr with wait := .sleep 0 true },
        { thr with wait := .sleep 1 false }], (at' t).thread? 2 = some t ∧ (at' t).tick = 0) ∧
    ((machine stopping).thread? 2 = some stopping.t ∧ (machine stopping).team? 1 = some stopping.tm ∧
      stopping.tm.phase ≠ .running) ∧
    (∃ tm, home.team? thr.team = some tm ∧ tm.phase = .running) ∧
    home.thread? 2 = some thr ∧ (∀ e, thr.wait ≠ .join e) ∧ ∀ e b, thr.wait ≠ .sleep e b := by
  refine ⟨home_cur, by decide +kernel, by decide +kernel, fun e x h => (by cases h), ⟨by decide +kernel, rfl, by decide +kernel,
      rfl, by decide +kernel, cur_machine _ ⟨rfl, rfl, rfl, rfl, rfl⟩, rfl, cur_at _ rfl rfl, by decide +kernel⟩,
    cur_at _ rfl rfl, rfl, by decide +kernel, by decide +kernel, ?_, ⟨rfl, rfl, by decide⟩, ⟨_, rfl, rfl⟩, rfl,
    fun e h => (by cases h), fun e b h => (by cases h)⟩
  intro t ht
  simp only [List.mem_cons, List.not_mem_nil, or_false] at ht
  obtain rfl | rfl | rfl | rfl := ht <;> exact ⟨thread_at _ rfl, rfl⟩

theorem witness_ExitForm :
    home.cur? = some ctx ∧ home.pred ctx.t 1 = false ∧ home.pred ctx.t 0 ≠ false ∧ (∀ o ∈ home.ops, o.th ≠ ctx.t.id) ∧
    (let s : State := { home with ops := [operation (.vunpin 0)] }
     s.cur? = some ctx ∧ ∃ o ∈ s.ops, o.th = ctx.t.id) :=
  ⟨home_cur, by decide +kernel, by decide +kernel, by decide +kernel, home_cur, _, List.mem_singleton.mpr rfl, rfl⟩

/-! ## Hypotheses met: memory -/

/-- A team with 4 KiB of scratch that reads as zero but for one full granule, and a launch with private memory. -/
def scratchTeam : Team := { placedTeam 0 with scr := 1, full := [255] }

/-- A launch with a private window of 64 KiB. -/
def privateLaunch : Launch := { placedLaunch 0 with pvbase := 0x10000, pvsize := 0x10000 }

/-- The thread with a base address in its pair g4 and with its value in g8. -/
def based (a : Nat) : Thread := thr.puts [(4, BitVec.ofNat 32 a), (5, BitVec.ofNat 32 (a / 2 ^ 32)), (8, 7)]

/-- That thread, in a team with scratch. -/
def basedCtx (a : Nat) : Ctx := ⟨based a, scratchTeam, privateLaunch⟩

theorem based_cur (a : Nat) : (machine (basedCtx a)).cur? = some (basedCtx a) := cur_machine _ ⟨rfl, rfl, rfl, rfl, rfl⟩

/-- The machine with another leaf for its page. -/
def withLeaf (s : State) (leaf : DWord) : State := { s with ms := { s.ms with tlb := [{ placedPage with leaf := leaf }] } }

theorem witness_AddressRules :
    (0 : Nat) < 4 ∧ 3 % 4 ≠ 0 ∧ 2 ^ 56 % 4 = 0 ∧
    (0x1FFFC + 4 ≤ 2 ^ 56 ∧ home.translate 0 0 0 0x1FFFC ⟨.read, false, .s⟩ = .ok ⟨0x1FFFC, 16, false, false, false, false⟩ ∧
      0x1FFFC % 4096 + 4 ≤ 4096) ∧
    (let c := basedCtx 0
     let size := 4096 * c.tm.scr
     (size < 4096 + 4 ∧ 4092 + 4 ≤ size) ∧ (0 < c.tm.nteam ∧ 0 = c.tm.teamIdx ∧ 4092 = 2 ^ 21 * 0 + 4092) ∧
     (({ c.tm with nteam := 2 } : Team).teamIdx ≠ 1 ∧ (1 : Nat) < ({ c.tm with nteam := 2 } : Team).nteam ∧
       2 ^ 21 + 4092 = 2 ^ 21 * 1 + 4092 ∧ 4092 + 4 ≤ size ∧ size < 2 ^ 21 - 4 + 4) ∧
     (16 ≤ 16 ∧ 2 ^ 25 = 2 ^ 21 * 16 + 0 ∧ c.tm.nteam ≤ 1) ∧
     (c.l.pvsize.toNat < 65536 + 4 ∧ 65532 + 4 ≤ c.l.pvsize.toNat ∧
       (c.l.pvbase.toNat + c.linear * c.l.pvsize.toNat + 65532) % 2 ^ 64 = 0x1FFFC ∧ 0x1FFFC % 4096 + 4 ≤ 4096) ∧
     (let c : Ctx := { c with l := { c.l with pvbase := 0x00FFFFFFFFFFFFFE } }
      4 + 4 ≤ c.l.pvsize.toNat ∧ 2 ^ 56 < (c.l.pvbase.toNat + c.linear * c.l.pvsize.toNat + 4) % 2 ^ 64 + 4) ∧
     (let c : Ctx := { c with l := { c.l with pvbase := 0x10002 } }
      4092 + 4 ≤ c.l.pvsize.toNat ∧ (c.l.pvbase.toNat + c.linear * c.l.pvsize.toNat + 4092) % 2 ^ 64 = 0x10FFE ∧
        0x10FFE + 4 ≤ 2 ^ 56 ∧ 4096 < 0x10FFE % 4096 + 4 ∧
        home.translate 0 0 0 0x10FFE ⟨.read, false, .s⟩ = .ok ⟨0x10FFE, 16, false, false, false, false⟩ ∧
        home.translate 0 0 0 (0x10FFE + (4096 - 0x10FFE % 4096)) ⟨.read, false, .s⟩ =
          .ok ⟨0x11000, 16, false, false, false, false⟩)) := by decide +kernel

theorem witness_LoadAndStoreForms :
    ((machine (basedCtx 0x1FFFC)).Ready (basedCtx 0x1FFFC) Mods.empty [one 8] [pair 4] ∧
      (machine (basedCtx 0x1FFFC)).Ready (basedCtx 0x1FFFC) Mods.empty [] [one 8, pair 4]) ∧
    (let c := basedCtx 0x1FFFC
     let get := fun (s : State) kind a => s.access c .gl a 4 ⟨kind, false, c.t.level⟩
     let s := machine c
     ((s.reg64 c.t 4).toNat = 0x1FFFC ∧ get s .read 0x1FFFC = .ok (.mem 0x1FFFC false) false ∧
       get s .write 0x1FFFC = .ok (.mem 0x1FFFC false) false ∧ c.t.flagRoom (hdrSets c.t.hdr) = true ∧ c.l.det = false) ∧
     get s .read 0x1FFFD = .trap .misaligned 0x1FFFD ∧ get s .write 0x1FFFD = .trap .misaligned 0x1FFFD ∧
     get s .read 0x20000 = .miss 0x20000 ∧ get s .write 0x20000 = .miss 0x20000 ∧
     get (withLeaf s 0x10003) .write 0x1FFFC = .fault 0x1FFFC ⟨0, 2, false⟩ ∧
     get (withLeaf s (BitVec.ofNat 64 (2 ^ 62 + 5 * 2 ^ 50 + 0x1001F))) .read 0x1FFFC = .fault 0x1FFFC ⟨0, 4, false⟩ ∧
     get (withLeaf s 0x1005F) .write 0x1FFFC = .ok (.mem 0x1FFFC false) true ∧ c.group ≠ 1) :=
  ⟨⟨⟨based_cur _, by decide +kernel, by decide +kernel, by decide +kernel⟩,
    based_cur _, by decide +kernel, by decide +kernel, by decide +kernel⟩, by decide +kernel⟩

/-- The machine with its bank 31 a FIFO of device 0 that holds an entry. -/
def withFifo (s : State) : State := s.setBank { core := 0, num := 31, mode := .fifo, owner := 0, fifo := [2 ^ 127 + 5], draining := false }

/-- The thread inside a region. -/
def inside : Thread :=
  { based 4092 with region := some ⟨⟨0x10004, 0x10000, 0, 0, [], 1, thr.flow⟩, 0, false, 3, false, false⟩ }

theorem witness_GranuleAndAtomicForms :
    (machine (basedCtx 4092)).Ready (basedCtx 4092) Mods.empty [one 8] [one 4] ∧
    (machine (basedCtx 4092)).Ready (basedCtx 4092) Mods.empty [] [one 8, one 4] ∧
    (withFifo (machine (basedCtx 4092))).Ready (basedCtx 4092) Mods.empty [one 8] [] ∧
    (withFifo (machine (basedCtx 4092))).Ready (basedCtx 4092) Mods.empty [] [one 8] ∧
    (let c := basedCtx 4092
     (4092 % 4 = 0 ∧ 4092 + 4 ≤ 4096 * c.tm.scr) ∧ c.t.inRegion = false ∧ c.t.flagRoom (hdrSets c.t.hdr) = true ∧
     ((withFifo (machine c)).bank 0 31).mode = .fifo ∧ ((withFifo (machine c)).bank 0 31).owner = c.l.dev ∧
     ((machine c).bank 0 31).mode ≠ .fifo ∧
     (machine c).access c .sc 4092 4 ⟨.write, true, .s⟩ = .ok (.scr 1 4092) false) ∧
    (let c : Ctx := ⟨inside, scratchTeam, privateLaunch⟩
     c.t.inRegion = true ∧ (machine c).Ready c Mods.empty [one 8] [one 4] ∧ (machine c).Ready c Mods.empty [] [one 8, one 4]) := by
  refine ⟨⟨based_cur _, by decide +kernel, by decide +kernel, by decide +kernel⟩,
    ⟨based_cur _, by decide +kernel, by decide +kernel, by decide +kernel⟩,
    ⟨based_cur _, by decide +kernel, by decide +kernel, by decide +kernel⟩,
    ⟨based_cur _, by decide +kernel, by decide +kernel, by decide +kernel⟩, by decide +kernel, by decide +kernel,
    ⟨cur_machine _ ⟨rfl, rfl, rfl, rfl, rfl⟩, by decide +kernel, by decide +kernel, by decide +kernel⟩,
    ⟨cur_machine _ ⟨rfl, rfl, rfl, rfl, rfl⟩, by decide +kernel, by decide +kernel, by decide +kernel⟩⟩

theorem witness_CacheControlForms :
    (machine (basedCtx 0x1FFFF)).Ready (basedCtx 0x1FFFF) Mods.empty [] [pair 4] ∧
    (let c := basedCtx 0x1FFFF
     let s := machine c
     let want : XWant := ⟨.read, false, .s⟩
     c.t.flagRoom (hdrSets c.t.hdr) = true ∧
     (∃ s1 r, s.threadWalk c 0x1FFFF want = (s1, r)) ∧
     s.translate 0 0 0 0x1FFFF want = .ok ⟨0x1FFFF, 16, false, false, false, false⟩ ∧
     (∃ f, (withLeaf s (BitVec.ofNat 64 (2 ^ 62 + 5 * 2 ^ 50 + 0x1001F))).translate 0 0 0 0x1FFFF want = .fault f) ∧
     s.translate 0 0 0 0x20000 want = .miss ∧ (s.reg64 (based (2 ^ 56)) 4).toNat = 2 ^ 56) :=
  ⟨⟨based_cur _, by decide +kernel, by decide +kernel, by decide +kernel⟩, by decide +kernel, ⟨_, _, rfl⟩,
    by decide +kernel, ⟨⟨0, 4, false⟩, by decide +kernel⟩, by decide +kernel, by decide +kernel⟩

/-- The machine with one outstanding operation. -/
def having (s : State) (kind : OpKind) : State := { s with ops := [operation kind] }

/-- What holds for the completion of an operation of this kind: it is performed now, and memory is in its form. -/
def completes (s : State) (c : Ctx) (kind : OpKind) : Prop :=
  (having s kind).memWf = true ∧ (having s kind).Performs c (operation kind)

/-- Operations of these kinds complete. -/
theorem completes_all {s : State} {c : Ctx} (h : s.ctx? 2 = some c) (l : List OpKind)
    (h' : (s.memWf && (s.ms.l1.all fun b => !b.dirty || (!s.engineHeld b.dev b.key && !s.requestFails b.key)) &&
      l.all fun k => (having s k).opReady (operation k) && k.halves.isNone && ((having s k).atomMates (operation k)).isEmpty &&
        !(having s k).mustTravel c (operation k)) = true) : ∀ kind ∈ l, completes s c kind := by
  intro kind hk
  simp only [Bool.and_eq_true] at h'
  obtain ⟨⟨hw, hb⟩, hl⟩ := h'
  have h1 := List.all_eq_true.mp hl kind hk
  simp only [Bool.and_eq_true, Option.isNone_iff_eq_none, List.isEmpty_iff, Bool.not_eq_true'] at h1
  obtain ⟨⟨⟨hr, hh⟩, hm⟩, ht⟩ := h1
  refine ⟨hw, rfl, h, hr, rfl, hh, hm, ht, fun b hb' hd => ?_⟩
  have h2 := List.all_eq_true.mp hb b hb'
  simp only [hd, Bool.not_true, Bool.false_or, Bool.and_eq_true, Bool.not_eq_true'] at h2
  exact h2

/-- An L1 that holds one dirty byte and one clean byte of a line of device 0. -/
def withL1 (s : State) : State :=
  { s with ms := { s.ms with l1 := [⟨0, 0, 0x1FF80, 5, true, 0, false⟩, ⟨0, 0, 0x1FF81, 6, false, 0, false⟩] } }

/-- Its bytes are those of device 0 and of the package's own memory, and whole. -/
theorem withL1_own (s : State) : ∀ b ∈ (withL1 s).ms.l1, b.dev = 0 ∧ b.bad = false ∧ isRemote b.key = false := by
  intro b hb
  simp only [withL1, List.mem_cons, List.not_mem_nil, or_false] at hb
  obtain rfl | rfl := hb <;> exact ⟨rfl, rfl, by decide +kernel⟩

theorem withL1_clean (s : State) (key : Nat) : (withL1 s).lineClean (basedCtx 0) key :=
  fun b hb _ _ => ⟨(withL1_own s b hb).1, (withL1_own s b hb).2.1⟩

/-- The machine whose thread is in a team with scratch. -/
def scratchHome : State := machine (basedCtx 0)

theorem scratchHome_ctx : scratchHome.ctx? 2 = some (basedCtx 0) := rfl

theorem sees_scratch : scratchHome.sees (basedCtx 0) (.scr 1 4092) 4 [0, 0, 0, 0] :=
  show ∃ tm, scratchHome.team? 1 = some tm ∧ tm.scrBad 4092 4 = false ∧ _ from
  ⟨scratchTeam, rfl, by decide +kernel, by decide +kernel⟩

theorem sees_uncached : scratchHome.sees (basedCtx 0) (.mem 0x1FFFC true) 4 [0, 0, 0, 0] := by
  unfold State.sees
  exact ⟨by decide +kernel, by decide +kernel, by decide +kernel, by decide +kernel⟩

theorem sees_cached : (withL1 scratchHome).sees (basedCtx 0) (.mem 0x1FF81 false) 1 [6] := by
  unfold State.sees
  exact ⟨by decide +kernel, by decide +kernel, withL1_clean _ _, by decide +kernel⟩

theorem witness_LoadsComplete :
    (∀ kind ∈ [OpKind.load 127 4 .zero (.scr 1 4092) none, .load 127 4 .zero (.mem 0x1FFFC true) none,
        .ldv 124 16 0 0 0x1FFF0, .vpin 127 5 0, .vunpin 0], completes scratchHome (basedCtx 0) kind) ∧
    (∀ kind ∈ [OpKind.load 127 1 .sign8 (.mem 0x1FF81 false) (some .dev)],
      completes (withL1 scratchHome) (basedCtx 0) kind) ∧ scratchHome.ms.poisoned 0x1FFF0 16 = false ∧
    (let o := operation (.load 124 16 .zero (.mem 0x1000000000000 true) none)
     let s := { having scratchHome o.kind with nextId := 10 }
     s.op? 9 = some o ∧ s.ctx? 2 = some (basedCtx 0) ∧ s.opReady o = true ∧ o.planes = [] ∧ o.id < s.nextId ∧
       0x1000000000000 % 16 = 0 ∧ isHost 0x1000000000000 = true ∧ s.ms.poisoned 0x1000000000000 16 = false) :=
  ⟨completes_all scratchHome_ctx _ (by decide +kernel),
   completes_all (s := withL1 scratchHome) scratchHome_ctx [.load 127 1 .sign8 (.mem 0x1FF81 false) (some .dev)] (by decide +kernel),
   by decide +kernel, rfl, scratchHome_ctx, by decide +kernel, rfl, by decide +kernel, by decide +kernel,
   by decide +kernel, by decide +kernel⟩

theorem witness_StoreCompletes :
    (∀ kind ∈ [OpKind.store 4 7 (.scr 1 4092) none, .store 4 7 (.mem 0x1FFFC true) none],
      completes scratchHome (basedCtx 0) kind) ∧ scratchHome.team? 1 = some scratchTeam ∧
    isMgmt 0x1FFFC = false ∧ 0x1FFFC % 128 + 4 ≤ 128 ∧ (withL1 scratchHome).lineClean (basedCtx 0) 0x1FFFC ∧
    ∀ kind ∈ [OpKind.store 4 7 (.mem 0x1FFFC false) none], completes (withL1 scratchHome) (basedCtx 0) kind :=
  ⟨completes_all scratchHome_ctx _ (by decide +kernel), rfl, by decide +kernel, by decide, withL1_clean _ _,
   completes_all (s := withL1 scratchHome) scratchHome_ctx [.store 4 7 (.mem 0x1FFFC false) none] (by decide +kernel)⟩

/-- The machine whose device may fill way 15 of the memory-side cache. -/
def withWays (s : State) : State := { s with mgmt := (0x90000008, 0x8000) :: s.mgmt }

theorem witness_WriteBacksComplete :
    (∀ kind ∈ [OpKind.store 4 7 (.mem 0x1FFFC false) (some .clu), .wb .sys 0x1FF80, .inv .sys 0x1FF80,
        .wbinv .sys 0x1FF80, .wb .grp 0x1FF80, .prefetch none true, .prefetch (some 0x1FF80) true],
      completes (withL1 scratchHome) (basedCtx 0) kind) ∧
    (∀ kind ∈ [OpKind.prefetch (some 0x1FF80) false], completes (withL1 (withWays scratchHome)) (basedCtx 0) kind) ∧
    (withL1 scratchHome).l1Wf ∧ Scope.wide .clu = true ∧ Scope.wide .grp = false ∧
    (withL1 scratchHome).lineClean (basedCtx 0) 0x1FFFC ∧ (withL1 scratchHome).homeDirty 0 0 ∧
    isRemote 0x1FFFC = false ∧ isRemote (128 * lineOf 0x1FF80) = false ∧ isMgmt (128 * lineOf 0x1FF80) = false ∧ ∃ w < 16, bit ((withL1 (withWays scratchHome)).vdWays 0) w = true :=
  ⟨completes_all (s := withL1 scratchHome) scratchHome_ctx _ (by decide +kernel),
   completes_all (s := withL1 (withWays scratchHome)) scratchHome_ctx _ (by decide +kernel), by unfold State.l1Wf; decide +kernel, rfl, rfl, withL1_clean _ _,
   fun b hb _ _ _ => (withL1_own _ b hb).2.2, by decide +kernel, by decide +kernel, by decide +kernel, 15, by decide, by decide +kernel⟩

theorem witness_GranulesAndAtomicsComplete :
    (∀ kind ∈ [OpKind.ldfe 127 4 1 4092 true, .stfull 4 7 1 4088, .fifoPop 127 4 0 31, .fifoPush 4 7 0 31,
        .atom (some 127) .add false (.scr 1 4092) .team .rlx 1 0],
      completes (withFifo scratchHome) (basedCtx 0) kind) ∧
    scratchHome.team? 1 = some scratchTeam ∧ scratchTeam.scrBad 4092 4 = false ∧ scratchTeam.scrBad 4088 8 = false ∧
    (withFifo scratchHome).l1Wf :=
  ⟨completes_all (s := withFifo scratchHome) scratchHome_ctx _ (by decide +kernel), rfl, by decide +kernel, by decide +kernel,
   List.nodup_nil⟩

/-- Four bytes of the line that the L1 holds in part. -/
theorem sees_line (u : Bool) (l : List Byte) (h : l = if u then [0, 0, 0, 0] else [5, 6, 0, 0]) :
    (withL1 scratchHome).sees (basedCtx 0) (.mem 0x1FF80 u) 4 l := by
  subst h
  cases u
  · exact ⟨by decide +kernel, by decide +kernel, withL1_clean _ _, by decide +kernel⟩
  · exact ⟨by decide +kernel, by decide +kernel, by decide +kernel, by decide +kernel⟩

theorem witness_GranulesAndAtomicsComplete_memory :
    (∀ kind ∈ [OpKind.atom (some 127) .add false (.mem 0x1FF80 false) .dev .ar 1 0, .atom none .cas false (.mem 0x1FF80 true) .sys .acq 5 7,
        .atom (some 127) .fadd false (.mem 0x1FF80 false) .team .rel 1 0, .atom none .xchg false (.mem 0x1FF80 true) .grp .rlx 1 0],
      completes (withL1 scratchHome) (basedCtx 0) kind) ∧
    (withL1 scratchHome).l1Wf ∧ 0x1FF80 % 128 + 4 ≤ 128 ∧ isMgmt 0x1FF80 = false ∧
    (withL1 scratchHome).ms.poisoned 0x1FF80 4 = false ∧
    (∀ x ∈ (withL1 scratchHome).ms.l1, lineOf x.key = lineOf 0x1FF80 → x.bad = false) ∧
    Scope.wide .dev = true ∧ Scope.wide .team = false ∧
    ∀ u, (withL1 scratchHome).sees (basedCtx 0) (.mem 0x1FF80 u) 4 (if u then [0, 0, 0, 0] else [5, 6, 0, 0]) :=
  ⟨completes_all (s := withL1 scratchHome) scratchHome_ctx _ (by decide +kernel), by unfold State.l1Wf; decide +kernel, by decide,
   by decide +kernel, by decide +kernel, fun b hb _ => (withL1_own _ b hb).2.1, rfl, rfl, fun u => sees_line u _ rfl⟩

/-! ## Hypotheses met: fences, barriers, convergence registers and matrix instructions -/

/-- The small machine has its memory in form. -/
theorem home_wf : home.memWf = true ∧ home.l1Wf := ⟨by decide +kernel, List.nodup_nil⟩

/-- The machine with a dirty byte of another package's memory, whose device has no quota for it. -/
def awayDirty : State :=
  { home with
    mgmt := [(0x98000000, 0x8000000100000000), (0x90000000, 0x8000000000000001)]
    ms := { home.ms with l1 := [⟨0, 0, 2 ^ 50, 5, true, 0, false⟩] } }

theorem witness_FenceForms :
    home.Ready ctx Mods.empty [] [] ∧ home.memWf = true ∧ home.l1Wf ∧
    (∀ o ∈ home.ops, o.th = ctx.t.id → o.kind.isAccess = false) ∧ (∀ o ∈ home.ops, o.th = ctx.t.id → o.kind.isRead = false) ∧
    (∀ o ∈ home.ops, o.th = ctx.t.id → o.kind.writes = false) ∧
    (having home (.store 4 7 (.scr 1 0) none)).Ready ctx Mods.empty [] [] ∧
    ¬(∀ o ∈ (having home (.store 4 7 (.scr 1 0) none)).ops, o.th = ctx.t.id → o.kind.writes = false) ∧
    (having home (.load 1 4 .zero (.scr 1 0) none)).Ready ctx Mods.empty [] [] ∧
    ¬(∀ o ∈ (having home (.load 1 4 .zero (.scr 1 0) none)).ops, o.th = ctx.t.id → o.kind.isRead = false) ∧
    home.homeDirty 0 0 ∧ awayDirty.Ready ctx Mods.empty [] [] ∧ awayDirty.memWf = true ∧ awayDirty.l1Wf ∧
    Scope.wide .dev = true ∧ awayDirty.backHeld 0 0 = true :=
  ⟨home_ready (by decide +kernel) (by decide +kernel), home_wf.1, home_wf.2, by decide +kernel, by decide +kernel, by decide +kernel,
   ⟨home_cur, by decide +kernel, by decide +kernel, by decide +kernel⟩, by decide +kernel,
   ⟨home_cur, by decide +kernel, by decide +kernel, by decide +kernel⟩, by decide +kernel,
   fun b hb => absurd hb (List.not_mem_nil),
   ⟨home_cur, by decide +kernel, by decide +kernel, by decide +kernel⟩, by decide +kernel,
   by unfold State.l1Wf; decide +kernel, rfl, by decide +kernel⟩

/-- A thread with its team changed. -/
def ctxTm (t : Thread) (tm : Team) : Ctx := ⟨t, tm, placedLaunch 0⟩

theorem cur_tm (t : Thread) (tm : Team) (h : t.id = 2 ∧ t.team = 1 ∧ tm.id = 1 ∧ tm.launch = 0) :
    (machine (ctxTm t tm)).cur? = some (ctxTm t tm) := cur_machine _ ⟨h.1, h.2.1, h.2.2.1, h.2.2.2, rfl⟩

/-- A team of so many barriers whose barrier 15 is as given. -/
def barTeam (k : Nat) (b : Bar) : Team := { placedTeam 0 with nbar := k, bars := (placedTeam 0).bars.set 15 b }

theorem last_fits : firstBeyond 128 [one 127] = none := by decide +kernel

theorem last_clean : thr.poisoned [one 127] = none := by decide +kernel

theorem witness_BarrierForms_init :
    (∀ k b, (machine (ctxTm thr (barTeam k b))).cur? = some (ctxTm thr (barTeam k b))) ∧
    (∀ k b, (machine (ctxTm thr (barTeam k b))).Ready' (ctxTm thr (barTeam k b)) [one 127]) ∧
    (machine (ctxTm inside (barTeam 16 ⟨false, false, 0, 0⟩))).cur? = some (ctxTm inside (barTeam 16 ⟨false, false, 0, 0⟩)) ∧
    inside.inRegion = true ∧ thr.inRegion = false ∧
    (barTeam 15 ⟨false, false, 0, 0⟩).nbar ≤ (15 : Fin 16).val ∧ (15 : Fin 16).val < (barTeam 16 ⟨false, false, 0, 0⟩).nbar ∧
    BitVec.ofNat 12 (immU none 0 (n := 11)) = 0 ∧ BitVec.ofNat 12 (immU none 32 (n := 11)) = 32 ∧
    (barTeam 16 ⟨true, false, 1, 32⟩).bars[(15 : Fin 16)] = ⟨true, false, 1, 32⟩ ∧
    (barTeam 16 ⟨true, false, 1, 16⟩).bars[(15 : Fin 16)].arrived ≠ 0 ∧
    (barTeam 16 ⟨true, false, 0, 16⟩).bars[(15 : Fin 16)].arrived = 0 ∧
    (∀ t ∈ (machine (ctxTm thr (barTeam 16 ⟨true, false, 0, 16⟩))).threads, t.wait = .run) :=
  ⟨fun _ _ => cur_tm _ _ ⟨rfl, rfl, rfl, rfl⟩, fun _ _ => ⟨cur_tm _ _ ⟨rfl, rfl, rfl, rfl⟩, last_fits, last_clean⟩,
   cur_tm _ _ ⟨rfl, rfl, rfl, rfl⟩, rfl, rfl, by decide, by decide, by decide +kernel, by decide +kernel, rfl, by decide +kernel,
   by decide +kernel, by decide +kernel⟩

/-- The thread with an arrival record of barrier 15. -/
def arrived (a : Arrival) : Thread := { thr with arr := thr.arr.set 15 a }

/-- Two threads of one group, of which the executing one has the higher lane while the lower one waits for its own
accesses. -/
def behind : State :=
  { home with
    threads := [{ thr with lane := 1 }, { thr with id := 3, wait := .ops .arrival }]
    teams := [barTeam 16 ⟨true, false, 0, 2⟩] }

/-- A thread that waits at barrier 15, back from a save. -/
def returned : Thread := { thr with id := 3, lane := 1, wait := .barrier 15 1, entered := false }

theorem witness_BarrierForms_lanes :
    behind.cur? = some (ctxTm { thr with lane := 1 } (barTeam 16 ⟨true, false, 0, 2⟩)) ∧
    behind.lowerHeld { thr with lane := 1 } = true ∧ home.lowerHeld thr = false ∧
    (barTeam 16 ⟨true, false, 0, 2⟩).bars[(15 : Fin 16)].init = true ∧
    (machine (ctxTm eddied (barTeam 16 ⟨true, false, 0, 2⟩))).cur? = some (ctxTm eddied (barTeam 16 ⟨true, false, 0, 2⟩)) ∧
    eddied.inRegion = false ∧ eddied.place = .eddy 23 3 ∧ Instr.barSync Mods.empty 15 ≠ .barArr Mods.empty 15 ∧
    (let s : State := { machine (ctxTm thr (barTeam 16 ⟨true, false, 1, 2⟩)) with threads := [thr, returned] }
     s.thread? 3 = some returned ∧ returned.id ≠ thr.id ∧ returned.team = 1 ∧ returned.wait = .barrier 15 1 ∧
       returned.arr[(15 : Fin 16)].pending = false ∧ returned.entered = false ∧ thr.entered = true) :=
  ⟨rfl, by decide +kernel, by decide +kernel, by decide +kernel, cur_tm _ _ ⟨rfl, rfl, rfl, rfl⟩, rfl, rfl, nofun,
   rfl, by decide, rfl, rfl, by decide +kernel, rfl, rfl⟩

theorem witness_BarrierForms_arrive :
    (∀ a b, (machine (ctxTm (arrived a) (barTeam 16 b))).cur? = some (ctxTm (arrived a) (barTeam 16 b))) ∧
    thr.inRegion = false ∧ thr.place = .home ∧ (15 : Fin 16).val < (barTeam 16 ⟨false, false, 0, 0⟩).nbar ∧
    (arrived ⟨true, false, true⟩).arr[(15 : Fin 16)] = ⟨true, false, true⟩ ∧
    (arrived ⟨true, false, false⟩).arr[(15 : Fin 16)].done = false ∧
    (∀ o ∈ (machine (ctxTm thr (barTeam 16 ⟨true, false, 0, 2⟩))).ops, o.th = 2 → o.kind.isAccess = false) ∧
    (barTeam 16 ⟨true, false, 0, 2⟩).bars[(15 : Fin 16)].arrived + 1 ≠ (barTeam 16 ⟨true, false, 0, 2⟩).bars[(15 : Fin 16)].expect ∧
    (barTeam 16 ⟨true, false, 1, 2⟩).bars[(15 : Fin 16)].arrived + 1 = (barTeam 16 ⟨true, false, 1, 2⟩).bars[(15 : Fin 16)].expect ∧
    (arrived ⟨false, false, false⟩).wait = .run ∧
    (∀ t ∈ (machine (ctxTm thr (barTeam 16 ⟨true, false, 1, 2⟩))).threads, stepped (barTeam 16 ⟨true, false, 1, 2⟩) t = false) :=
  ⟨fun _ _ => cur_tm _ _ ⟨rfl, rfl, rfl, rfl⟩, rfl, rfl, by decide, rfl, rfl, by decide +kernel, by decide +kernel,
   by decide +kernel, rfl, by decide +kernel⟩

/-- A team whose convergence register 15 is as given. -/
def convTeam (v : Conv) : Team := { placedTeam 0 with convs := (placedTeam 0).convs.set 15 v }

theorem conv15 (v : Conv) : (convTeam v).convs[(15 : Fin 16)] = v := by
  show ((placedTeam 0).convs.set 15 v)[15] = v
  simp

/-- The thread may sign on register 15 of a team that has declared its lane. -/
theorem canSign (v : Conv) (dst reads : List Blk) (h0 : v.state = 1) (h1 : v.grp = 0) (h2 : v.declared.getLsbD 0 = true)
    (h3 : firstBeyond 128 (dst ++ reads) = none) (h4 : thr.poisoned reads = none) :
    (machine (ctxTm thr (convTeam v))).CanSign (ctxTm thr (convTeam v)) Mods.empty 15 dst reads where
  cur := cur_tm _ _ ⟨rfl, rfl, rfl, rfl⟩
  home := by intro e x h; cases h
  operands := fun _ => ⟨h3, h4⟩
  declared := by
    show (convTeam v).convs[(15 : Fin 16)].state ≠ 0
    rw [conv15, h0]
    decide
  grp := by
    show (convTeam v).convs[(15 : Fin 16)].grp.toNat = 0
    rw [conv15, h1]
    rfl
  member := by
    show (convTeam v).convs[(15 : Fin 16)].declared.getLsbD 0 = true
    rw [conv15, h2]
  free := .inl (by
    show (convTeam v).convs[(15 : Fin 16)].state = 1
    rw [conv15, h0])
  open_ := by
    show ¬((convTeam v).convs[(15 : Fin 16)].state = 2 ∧ _)
    rw [conv15, h0]
    simp

theorem witness_SigningForms :
    ((machine (ctxTm thr (convTeam ⟨1, 0, 3, 0, 0⟩))).CanSign (ctxTm thr (convTeam ⟨1, 0, 3, 0, 0⟩)) Mods.empty 15 [frag8 15] [frag8 15, frag 31 4] ∧
      ¬(ctxTm thr (convTeam ⟨1, 0, 3, 0, 0⟩)).completes 15) ∧
    (∀ v, (machine (ctxTm thr (convTeam v))).Ready' (ctxTm thr (convTeam v)) [one 127]) ∧
    (∀ v, (machine (ctxTm inside (convTeam v))).cur? = some (ctxTm inside (convTeam v))) ∧ inside.inRegion = true ∧
    thr.inRegion = false ∧
    (let v : Conv := (convTeam ⟨2, 0, 3, 1, 0x10008⟩).convs[(15 : Fin 16)]
     v.state = 2 ∧ v.grp.toNat = thr.grp ∧ v.declared.getLsbD thr.lane.val = true ∧ v.declared &&& ~~~v.signed ≠ 0 ∧ v.pc ≠ thr.pc) ∧
    (let v : Conv := (convTeam ⟨2, 0, 3, 3, 0x10004⟩).convs[(15 : Fin 16)]
     v.state = 2 ∧ v.declared &&& ~~~v.signed = 0) ∧
    (convTeam ⟨0, 0, 0, 0, 0⟩).convs[(15 : Fin 16)].state = 0 ∧
    (convTeam ⟨1, 63, 1, 0, 0⟩).convs[(15 : Fin 16)].grp.toNat ≠ thr.grp ∧
    (convTeam ⟨1, 0, 2, 0, 0⟩).convs[(15 : Fin 16)].declared.getLsbD thr.lane.val = false ∧
    (∀ q ∈ home.ops, q.th = thr.id → q.kind.isAccess = false) ∧ Mods.empty.pre = none := by
  refine ⟨⟨canSign _ _ _ rfl rfl (by decide) (by decide +kernel) (by decide +kernel), ?_⟩,
    fun _ => ⟨cur_tm _ _ ⟨rfl, rfl, rfl, rfl⟩, last_fits, last_clean⟩,
    fun _ => cur_tm _ _ ⟨rfl, rfl, rfl, rfl⟩, rfl, rfl, by decide +kernel, by decide +kernel, by decide +kernel,
    by decide +kernel, by decide +kernel, by decide +kernel, rfl⟩
  unfold Ctx.completes
  decide +kernel

/-- A machine whose only declared lane of register 15 is the thread's. -/
def alone : Ctx := ctxTm thr (convTeam ⟨1, 0, 1, 0, 0⟩)

/-- The thread after it has signed there. -/
def signer (op : SignOp) : Thread :=
  { thr with wait := .sign 15 ⟨op, true, none, 1⟩, held := none, lastIssue := 0, ready := 1, yielded := false }

theorem alone_unstepped : stepped alone.tm thr = false := by decide +kernel

theorem alone_signs (op : SignOp) :
    ((machine alone).signedBy alone Mods.empty 15 op).signersAre alone Mods.empty 15 op [(signer op, ⟨op, true, none, 1⟩)] := by
  refine ⟨rfl, by simp, ?_⟩
  intro g hg
  obtain rfl := List.mem_singleton.mp hg
  exact ⟨rfl, rfl, alone_unstepped, rfl, rfl, rfl, rfl⟩

theorem witness_GroupOperationCompletes :
    (machine alone).CanSign alone Mods.empty 15 [one 127] [one 0] ∧ alone.completes 15 ∧
    ((machine alone).signedBy alone Mods.empty 15 (.peers 127 0)).signersAre alone Mods.empty 15 (.peers 127 0)
      [(signer (.peers 127 0), ⟨.peers 127 0, true, none, 1⟩)] ∧
    fpTrap ((machine alone).csr (signer (.peers 127 0))) FFlags.clear = none :=
  ⟨canSign _ _ _ rfl rfl (by decide) (by decide +kernel) (by decide +kernel), by unfold Ctx.completes; decide +kernel,
   alone_signs _, by decide +kernel⟩

theorem witness_GroupResults :
    ∀ op ∈ [SignOp.xlane 127 0 .mirror true 31, .agreeP .all ⟨7, true⟩ 1, .agreeP .some ⟨7, true⟩ 1, .agreeP .same ⟨0, false⟩ 1,
        .agreeMask 127 ⟨0, false⟩, .agreeCount 127 ⟨0, false⟩, .peers 127 0, .peersAll 127 0 7, .reduce .reduce 127 0 7 .add false,
        .reduce .scan 127 0 7 .mins false, .reduce .scanx 127 0 7 .xor false, .xlane 127 0 .pick false 31,
        .reduce .scan 127 0 7 .add true],
      ((signer op, (⟨op, true, none, 1⟩ : Sign)) : Signer).2.op = op := fun _ _ => rfl

/-- A machine whose thread leads an election on register 15 while a thread of lane 1 sleeps there. -/
def sleeper : Thread := { thr with id := 3, lane := 1, wait := .asleep 15 7 1 }

/-- The context of the leader. -/
def leader : Ctx := ctxTm thr (convTeam ⟨2, 0, 3, 3, 0x10004⟩)

/-- The machine of the leader. -/
def elected : State := { machine leader with threads := [thr, sleeper] }

theorem witness_ConvergenceForms :
    ((machine alone).CanSign alone Mods.empty 15 [] [] ∧ alone.completes 15 ∧
      ∀ op, ((machine alone).signedBy alone Mods.empty 15 op).signersAre alone Mods.empty 15 op
        [(signer op, ⟨op, true, none, 1⟩)]) ∧
    thr.inRegion = false ∧ (∀ q ∈ home.ops, q.th = thr.id → q.kind.isAccess = false) ∧
    elected.cur? = some leader ∧ elected.sleepers 1 15 = [(sleeper, 7, 1)] ∧ elected.thread? 3 = some sleeper ∧
    (stepped leader.tm sleeper = false ∧ sleeper.entered = true) ∧ (∀ sg, thr.wait ≠ .sign 15 sg) ∧ (∀ q w, thr.wait ≠ .asleep 15 q w) ∧
    (let cv := leader.tm.convs[(15 : Fin 16)]
     cv.state = 2 ∧ cv.declared &&& ~~~cv.signed = 0 ∧ thr.grp = cv.grp.toNat ∧ cv.signed.getLsbD thr.lane.val = true) ∧
    alone.tm.convs[(15 : Fin 16)].state ≠ 2 := by
  refine ⟨⟨canSign _ _ _ rfl rfl (by decide) (by decide +kernel) (by decide +kernel), by unfold Ctx.completes; decide +kernel,
    alone_signs⟩, rfl, by decide +kernel, rfl, rfl, rfl, ⟨rfl, rfl⟩, ?_, ?_, by decide +kernel, by decide +kernel⟩
  · intro sg h
    cases h
  · intro q w h
    cases h

/-- The context of a thread that has signed a matrix instruction, a complete set. -/
def matrixCtx (op : SignOp) (w0 : Nat) : Ctx :=
  ctxTm { (signer op).put 124 (BitVec.ofNat 32 w0) with id := 2 } (convTeam ⟨2, 0, 1, 1, 0x10004⟩)

theorem witness_MatrixAndAccumulateForms :
    (∀ op w0, (machine (matrixCtx op w0)).ctx? 2 = some (matrixCtx op w0)) ∧
    (∀ op ∈ [SignOp.accmov 15 0, .mma 15 0 0 31 .e4m3 true], op.isMatrix = true) ∧
    (∀ op w0, (machine (matrixCtx op w0)).signersAre (matrixCtx op w0) Mods.empty 15 op
      [((matrixCtx op w0).t, ⟨op, true, none, 1⟩)]) ∧
    (let c := matrixCtx (.mma 15 0 0 31 .e4m3 true) 4
     c.tm.convs[(15 : Fin 16)].state = 2 ∧ c.tm.convs[(15 : Fin 16)].declared &&& ~~~c.tm.convs[(15 : Fin 16)].signed = 0 ∧
     c.t.flagRoom (hdrSets c.t.hdr) = true ∧
     (machine c).headerWords [(c.t, ⟨.mma 15 0 0 31 .e4m3 true, true, none, 1⟩)] (.mma 15 0 0 31 .e4m3 true) 0 = 4 ∧
     (headerOf (.mma 15 0 0 31 .e4m3 true)).isSome = true ∧ headerOf (.accmov 15 0) = none ∧
     (machine c).portNext 0 0 true ≤ (machine c).tick ∧ (machine c).productOpen ((machine c).rampRequest 0) = true) := by
  refine ⟨fun op w0 => rfl, by decide +kernel, fun op w0 => ⟨rfl, by simp, ?_⟩, by decide +kernel⟩
  intro g hg
  obtain rfl := List.mem_singleton.mp hg
  exact ⟨rfl, rfl, alone_unstepped, rfl, rfl, rfl, rfl⟩

theorem witness_C4ProductsAreExact :
    (∀ op ∈ [SignOp.mmaC4 15 0 0 31 false, .mma 15 0 0 31 .e4m3 false, .mma 15 0 0 31 .bf16 true, .mmaPart 15 0 0 31 .e5m2 true],
      (home.matrixResult [(signer op, ⟨op, true, none, 1⟩)] op fun _ => 0).2.isEmpty = false) ∧
    ((0 : Nat) % 4 = 0 ∧ 5 % 4 = 1 ∧ 2 % 4 = 2 ∧ 7 % 4 = 3) ∧
    (zeroTimesInf (.fin true 0) (.inf false) = true ∧ (FVal.nan true).isSnan = true ∧ sumOf false [.inf false, .inf true] = .nan false) := by
  decide +kernel

/-! ## Hypotheses met: versioned pages, regions, special registers and traps -/

/-- The directory entry of the machine's page: frame 0 holds step 4 and frame 1 step 9. -/
def entry : VEntry :=
  { idx := 0, dev := 0, big := false, fpa := 0x10000, vtimeout := 10
    frames := [(.valid, 4), (.valid, 9), (.empty, 0), (.empty, 0)], drops := 0, closing := none }

/-- The machine with its page versioned, and these pins. -/
def versioned (s : State) (l : List Pin) : State :=
  { withLeaf s 0x1003F with ver := { s.ver with dir := [entry], pins := l } }

/-- A thread whose pair g4 addresses the page and whose g8 names a step. -/
def asks (a st : Nat) : Thread := thr.puts [(4, BitVec.ofNat 32 a), (5, BitVec.ofNat 32 (a / 2 ^ 32)), (8, BitVec.ofNat 32 st)]

theorem asks_cur (a st : Nat) (l : List Pin) : (versioned (at' (asks a st)) l).cur? = some (ctxOf (asks a st)) :=
  show (at' (asks a st)).cur? = _ from cur_at (asks a st) rfl rfl

/-- The thread to which an installation has given a frame. -/
def given : Thread := { asks 0x1FFF0 9 with wait := .version 0 0x1FFF0 9 none false (some (1, 9)) }

/-- A thread that waits for no frame meets the page that its translation gives. -/
theorem meets_page {s : State} {c : Ctx} (a : Nat) (special : Bool) (off key : Nat) {e : VEntry} (h : s.waitEntry c.t = none)
    (h' : s.versioned c a special = .ok e off key) : s.meetsPage c a special e off key := by
  unfold State.meetsPage
  rw [h]
  exact h'

theorem witness_VersionedLoadForms_load :
    (∀ a st l, (versioned (at' (asks a st)) l).cur? = some (ctxOf (asks a st))) ∧
    firstBeyond 128 [VerWidth.b128.blk 124, pair 126, one 127] = none ∧ (asks 0 0).poisoned [pair 126, one 127] = none ∧
    ((home.reg64 (asks 0x10008 0) 4).toNat % VerWidth.b128.bytes ≠ 0) ∧
    ((home.reg64 (asks (2 ^ 56) 0) 4).toNat % VerWidth.b128.bytes = 0 ∧ 2 ^ 56 ≤ (home.reg64 (asks (2 ^ 56) 0) 4).toNat) ∧
    (versioned (at' (asks 0x1FFF0 9)) []).meetsPage (ctxOf (asks 0x1FFF0 9)) 0x1FFF0 true entry 0xFFF0 0x1FFF0 ∧
    (versioned home []).waitEntry thr = none ∧
    (let frame := fun (k : Nat) (x : Word) => entry.frames[k]? = some (.valid, x)
     frame 1 9 ∧ (∀ j < 4, frame j 9 → j = 1) ∧ (∀ k < 4, ¬frame k 5) ∧ (4 : Nat) ≤ 9 ∧
     entry.vtimeout ≠ 0xFFFFFFFF ∧ (at' (asks 0x1FFF0 10)).tick < 0 + entry.vtimeout) ∧
    (∀ a l u p g, (asks 0x1FFF0 10).wait ≠ .version entry.idx a l u p g) ∧
    (∃ p, [(⟨none, 1, 0, 0, 4, 1⟩ : Pin)].find? (fun q => q.of none 1 entry.idx) = some p ∧ p.count ≠ 0) ∧
    ((versioned (at' given) []).cur? = some (ctxOf given) ∧ (versioned (at' given) []).waitEntry given = some entry ∧
      given.given entry 9 = some (1, 9) ∧ thr.given entry 9 = none ∧ ∃ a l u p g, given.wait = .version entry.idx a l u p g) ∧
    ((asks 0x1FFF0 9).floor entry.idx 9 = 9 ∧ (asks 0x1FFF0 10).floor entry.idx 10 = 10) ∧
    (let x : XOk := ⟨0x1FFF0, 16, false, false, false, false⟩
     (at' (asks 0x1FFF0 9)).translate 0 0 0 0x1FFF0 ⟨.versioned, true, .s⟩ = .ok x ∧ x.ver = false) ∧
    (let s : State := { versioned (at' (asks 0x1FFF0 10)) [] with tick := 10 }
     0 + entry.vtimeout ≤ s.tick) := by
  refine ⟨asks_cur, by decide +kernel, by decide +kernel, by decide +kernel, by decide +kernel, meets_page _ _ _ _ rfl (by decide +kernel), rfl,
    by decide +kernel, ?_, ⟨_, rfl, by decide⟩, ⟨show (at' given).cur? = _ from cur_at given rfl rfl, rfl, by decide +kernel, rfl, _, _, _, _, _, rfl⟩, ⟨by decide +kernel, by decide +kernel⟩,
    ⟨by decide +kernel, rfl⟩, by decide +kernel⟩
  intro a l u p g h
  cases h

theorem witness_VersionedLoadForms_pin :
    (∀ a st l, (versioned (at' (asks a st)) l).cur? = some (ctxOf (asks a st))) ∧
    (asks 0 0).flagRoom (hdrSets (asks 0 0).hdr) = true ∧
    firstBeyond 128 [one 127, pair 4, one 8] = none ∧ (asks 0 0).poisoned [pair 4, one 8] = none ∧
    (versioned (at' (asks 0x1FFFF 4)) []).meetsPage (ctxOf (asks 0x1FFFF 4)) 0x1FFFF true entry 0xFFFF 0x1FFFF ∧
    (versioned (at' (asks 0x1FFFF 4)) []).meetsPage (ctxOf (asks 0x1FFFF 4)) 0x1FFFF false entry 0xFFFF 0x1FFFF ∧
    isRemote entry.idx = false ∧
    (∀ n ∈ [1, 2, 65534, 65535],
      [(⟨none, 1, 0, 0, 4, n⟩ : Pin)].find? (fun q => q.of none 1 0) = some ⟨none, 1, 0, 0, 4, n⟩) ∧
    ((asks 0 4).floor 0 4 = 4 ∧ (4 : Word).toNat < (5 : Word).toNat) ∧
    entry.frames[0]? = some (.valid, 4) ∧
    ({ entry with vtimeout := 0xFFFFFFFF }.vtimeout = 0xFFFFFFFF ∧ (asks 0x1FFFF 10).wait = .run) ∧
    (let many := (List.range 64).map fun k => (⟨none, 1, k + 1, 0, 4, 1⟩ : Pin)
     64 ≤ many.countP (fun p => p.src.isNone && p.team == 1 && p.count != 0) ∧ (∀ p ∈ many, ¬(p.of none 1 0) = true) ∧
     (many.drop 1).countP (fun p => p.src.isNone && p.team == 1 && p.count != 0) < 64) :=
  ⟨asks_cur, by decide +kernel, by decide +kernel, by decide +kernel, meets_page _ _ _ _ rfl (by decide +kernel),
   meets_page _ _ _ _ rfl (by decide +kernel), by decide +kernel, by decide,
   by decide +kernel, by decide, ⟨rfl, rfl⟩, by decide +kernel⟩

/-- The machine in a pod, its page a versioned page of member 0, this package being member 1. -/
def podPage (t : Thread) : State :=
  let s := withLeaf (at' t) (BitVec.ofNat 64 (2 ^ 62 + 0x1003F))
  { s with mgmt := (0x70000000, 0x300000001) :: s.mgmt }

/-- A page of another package, whatever that package answers for it, is met as a remote one. -/
theorem witness_VersionedLoadForms_remote (v : Nat) (steps : List (Option Word))
    (h : Config.homeEntry 0 (remoteKey 0 0x10000) = some (v, steps)) :
    (podPage (asks 0x1FFFF 4)).cur? = some (ctxOf (asks 0x1FFFF 4)) ∧
    ∃ e, (podPage (asks 0x1FFFF 4)).meetsPage (ctxOf (asks 0x1FFFF 4)) 0x1FFFF false e 0xFFFF (remoteKey 0 0x1FFFF) ∧
      isRemote e.idx = true ∧ [(⟨none, 1, e.idx, 0, 4, 1⟩ : Pin)].find? (fun q => q.of none 1 e.idx) = some ⟨none, 1, e.idx, 0, 4, 1⟩ := by
  obtain ⟨e, he, hi, hz⟩ : ∃ e, (podPage (asks 0x1FFFF 4)).homeEntry (remoteKey 0 0x10000) false = some e ∧
      e.idx = remoteKey 0 0x10000 ∧ e.big = false := by
    unfold State.homeEntry
    rw [show (podPage (asks 0x1FFFF 4)).freeCount = 0 from rfl, h]
    exact ⟨_, rfl, rfl, rfl⟩
  have hx : (podPage (asks 0x1FFFF 4)).translate 0 0 0 0x1FFFF ⟨.versioned, false, .s⟩ =
      .ok ⟨remoteKey 0 0x1FFFF, 16, false, false, true, true⟩ := by decide +kernel
  have hv : (podPage (asks 0x1FFFF 4)).ventryAt (remoteKey 0 0x1FFFF - 0x1FFFF % 2 ^ 16) 16 = some e := he
  refine ⟨show (at' (asks 0x1FFFF 4)).cur? = _ from cur_at (asks 0x1FFFF 4) rfl rfl, e, meets_page _ _ _ _ rfl ?_, ?_, ?_⟩
  · have hs : (0x1FFFF : Nat) % 2 ^ e.size = 0xFFFF := by
      unfold VEntry.size
      rw [hz]
      rfl
    show (match (podPage (asks 0x1FFFF 4)).translate 0 0 0 0x1FFFF ⟨.versioned, false, .s⟩ with
      | .miss => VAccess.other (.miss 0x1FFFF)
      | .fault f => .other (.fault 0x1FFFF f)
      | .ok x =>
        match x.ver, (podPage (asks 0x1FFFF 4)).ventryAt (x.key - 0x1FFFF % 2 ^ x.size) x.size with
        | true, some e => .ok e (0x1FFFF % 2 ^ e.size) x.key
        | _, _ => .other (.trap .versionPage (BitVec.ofNat 64 0x1FFFF))) = _
    simp only [hx, hv, hs]
  · rw [hi]
    decide +kernel
  · rw [hi]
    decide +kernel

/-- A context of the thread in a launch that is a worker at step 5. -/
def workerCtx (t : Thread) : Ctx := ⟨t, placedTeam 0, { placedLaunch 0 with worker := some ⟨3, 0, 5, 2, 1⟩ }⟩

/-- The machine of the worker, with a counted peer at step 4. -/
def working (t : Thread) : State :=
  let s := machine (workerCtx t)
  { s with ver := { s.ver with ptable := [⟨0, 3, 0, .counted, true, 5, 0⟩, ⟨1, 3, 1, .counted, false, 4, 0⟩] } }

theorem working_cur (t : Thread) (h : t.id = 2 ∧ t.team = 1) : (working t).cur? = some (workerCtx t) :=
  cur_machine _ ⟨h.1, h.2, rfl, rfl, rfl⟩

theorem witness_StepAdvance :
    (∀ st ∈ [5, 6, 7], (working (asks 0 st)).Ready' (workerCtx (asks 0 st)) [one 8]) ∧
    (working inside).Ready' (workerCtx inside) [one 8] ∧ inside.inRegion = true ∧ thr.inRegion = false ∧
    home.Ready' ctx [one 8] ∧ ctx.l.worker = none ∧
    (let near := fun st : Nat => ∀ e ∈ (working thr).ver.ptable, e.job = 3 → e.state = .counted → e.widx ≠ 0 →
       st ≤ e.step.toNat + 2
     (5 : Nat) ≤ 5 ∧ 5 < 6 ∧ near 6 ∧ 5 < 7 ∧ ¬near 7) ∧
    (∀ o ∈ (working thr).ops, o.th = 2 → o.kind.isAccess = false) ∧
    (working { thr with wait := .ops .announce }).cur? = some (workerCtx { thr with wait := .ops .announce }) ∧
    behind.lowerHeld { thr with lane := 1 } = true ∧ (working thr).lowerHeld thr = false ∧
    (∃ e, (working thr).pentry? 3 0 = some e ∧ e.step.toNat ≤ 6 ∧ e.state ≠ .left) ∧
    (working thr).homeDirty 0 0 ∧ (∃ e ∈ (working thr).ver.ptable, e.job = 3 ∧ e.isLocal = false) := by
  refine ⟨fun st hs => ?_, ⟨working_cur _ ⟨rfl, rfl⟩, by decide +kernel, by decide +kernel⟩, rfl,
    rfl, home_ready' (by decide +kernel) (by decide +kernel), rfl, by decide +kernel, by decide +kernel,
    working_cur _ ⟨rfl, rfl⟩, by decide +kernel, by decide +kernel, ⟨_, rfl, by decide, by decide⟩,
    fun b hb => absurd hb (List.not_mem_nil), by decide +kernel⟩
  simp only [List.mem_cons, List.not_mem_nil, or_false] at hs
  obtain rfl | rfl | rfl := hs <;> exact ⟨working_cur _ ⟨rfl, rfl⟩, by decide +kernel, by decide +kernel⟩

/-- The thread in a region that is to run as a restart. -/
def restarting : Thread := { thr with region := some ⟨⟨0x10004, 0x10000, 0, 0, [], 1, thr.flow⟩, 3, true, 9, false, false⟩ }

theorem witness_RegionForms :
    home.Ready' ctx (maskRegs 112 0xFFFF) ∧ ctx.t.region = none ∧
    (at' restarting).Ready' (ctxOf restarting) (maskRegs 127 1) ∧ restarting.inRegion = true ∧
    (at' inside).Ready' (ctxOf inside) (maskRegs 127 1) ∧ (inside.region.map fun g => g.restarting) = some false ∧
    (∀ o ∈ (at' restarting).ops, o.th = 2 → o.id < 9) ∧
    (∃ o ∈ (having (at' restarting) (.vunpin 0)).ops, o.th = 2 ∧ 9 ≤ o.id) := by
  refine ⟨home_ready' (by decide +kernel) (by decide +kernel), rfl,
    ⟨cur_at _ rfl rfl, by decide +kernel, by decide +kernel⟩, rfl, ⟨cur_at _ rfl rfl, by decide +kernel, by decide +kernel⟩,
    rfl, by decide +kernel, by decide +kernel⟩

/-- The thread in a deterministic launch whose token a group holds. -/
def tokenCtx (holder : Nat) : Ctx := ⟨thr, placedTeam 0, { placedLaunch 0 with det := true, holder := holder }⟩

/-- A machine whose holding group has passed, with another live group. -/
def passing : State :=
  { machine (tokenCtx 0) with threads := [{ thr with passed := true }, { thr with id := 3, grp := 1 }] }

theorem witness_TokenForms :
    (∀ k, (machine (tokenCtx k)).cur? = some (tokenCtx k)) ∧ home.cur? = some ctx ∧ thr.inRegion = false ∧
    ctx.l.det = false ∧ (tokenCtx 0).l.det = true ∧ (tokenCtx 0).linear / 32 = 0 ∧ (tokenCtx 1).linear / 32 ≠ 1 ∧
    (machine (tokenCtx 0)).memWf = true ∧ (machine (tokenCtx 0)).l1Wf ∧ (machine (tokenCtx 0)).homeDirty 0 0 ∧
    (∀ o ∈ (machine (tokenCtx 0)).ops, o.th = 2 → o.kind.isAccess = false) ∧
    (machine (tokenCtx 0)).launch? 0 = some (tokenCtx 0).l ∧ 0 ∉ (tokenCtx 0).l.skipped ∧
    (∃ p ∈ (machine (tokenCtx 0)).liveThreads 0, p.1.linear p.2.grp p.2.lane.val / 32 = 0 ∧ p.2.passed = false) ∧
    passing.launch? 0 = some (tokenCtx 0).l ∧
    (let live := passing.liveThreads 0
     let group := fun p : Team × Thread => p.1.linear p.2.grp p.2.lane.val / 32
     (∀ p ∈ live, group p = 0 → p.2.passed = true) ∧ 1 ∈ live.map group ∧ ∀ h ∈ live.map group, 0 < h → 1 ≤ h) := by
  refine ⟨fun k => cur_machine _ ⟨rfl, rfl, rfl, rfl, rfl⟩, home_cur, rfl, rfl, rfl, by decide +kernel, by decide +kernel,
    by decide +kernel, List.nodup_nil, fun b hb => absurd hb (List.not_mem_nil), by decide +kernel, rfl, by decide,
    by decide +kernel, rfl, by decide +kernel⟩

theorem witness_SpecialRegisterReads :
    home.cur? = some ctx ∧ (working thr).cur? = some (workerCtx thr) ∧
    (∀ k ∈ [(0x000 : BitVec 10), 0x010, 0x011, 0x027, 0x047, 0x08F, 0x0AF, 0x0BF, 0x0CF, 0x0DF, 0x107, 0x10F, 0x180],
      immU none k = k.toNat) ∧
    firstBeyond 128 [pair 126] = none ∧ firstBeyond 128 [one 127] = none ∧ sregWidth (immU none (0x3FF : BitVec 10)) = none :=
  ⟨home_cur, working_cur _ ⟨rfl, rfl⟩, by decide, by decide +kernel, by decide +kernel, by decide +kernel⟩

/-- The thread at level U. -/
def user : Thread := { thr with level := .u }

theorem witness_SpecialRegisterWrites :
    (∀ num ∈ [0x000, 0x00B, 0x00C, 0x010, 0x012, 0x013, 0x014, 0x01A, 0x027, 0x030, 0x047, 0x050, 0x08F, 0x0DF, 0x10F, 0x180],
      firstBeyond 128 [sregBlk num 126] = none ∧ thr.poisoned [sregBlk num 126] = none ∧
      immU none (BitVec.ofNat 10 num) = num ∧ (sregWidth num).isSome = true) ∧
    home.cur? = some ctx ∧ ctx.t.level ≠ .u ∧ ctx.t.inRegion = false ∧
    (at' user).cur? = some (ctxOf user) ∧ user.level = .u ∧ user.inRegion = false ∧
    (∀ num ∈ [0x01A, 0x040, 0x047, 0x080, 0x0DF, 0x100, 0x10F, 0x180],
      immU none (BitVec.ofNat 10 num) = num ∧ sregWidth num ≠ none) :=
  ⟨by decide +kernel, home_cur, by decide, rfl, cur_at _ rfl rfl, rfl, rfl, by decide +kernel⟩

/-- The machine with a trap vector for level S. -/
def vectored (s : State) : State := s.setReg (vdOff 0 0x18) 0x20000

/-- A team with a trap vector for level U. -/
def vectorTeam : Team := { placedTeam 0 with trapvec := 0x30000 }

theorem witness_TrapEntry :
    (machine ⟨user, vectorTeam, placedLaunch 0⟩).ctx? 2 = some ⟨user, vectorTeam, placedLaunch 0⟩ ∧
    (Cause.userTrap.user = true ∧ user.level = .u ∧ vectorTeam.trapvec ≠ 0 ∧ user.activeU = false) ∧
    (vectored home).ctx? 2 = some ctx ∧ Cause.brk.user = false ∧ ctx.t.activeS = false ∧ (vectored home).svec 0 ≠ 0 ∧
    home.ctx? 2 = some ctx ∧ home.svec 0 = 0 ∧ ctx.tm.phase = .running ∧
    (at' { thr with activeS := true }).ctx? 2 = some (ctxOf { thr with activeS := true }) :=
  ⟨rfl, by decide, rfl, by decide, rfl, by decide +kernel, rfl, by decide +kernel, rfl, rfl⟩

/-- The thread in a handler of level S that a trap at its word entered. -/
def handling : Thread :=
  { thr with activeS := true, frameS := { thr.frameS with xpc := 0x10004, orig := 0x10004, xcb := 0x10000, xcause := 256, xpred := 1 } }

theorem witness_TrapInstructions :
    home.cur? = some ctx ∧ ctx.t.activeS = false ∧ ctx.t.level ≠ .u ∧ (at' handling).cur? = some (ctxOf handling) ∧
    handling.activeS = true ∧ handling.frameS.xpc = handling.frameS.orig ∧ handling.frameS.xpc ≠ handling.frameS.xcb ∧
    (let lvl := Level.ofCode (bits handling.frameS.xcause.toNat 9 8)
     (at' handling).fetch 0 0 0 (max (ctxOf handling).l.born handling.born) lvl 0x10000 = .ok 0x000FF000 ∧ hdrBad 0x000FF000 = false ∧
     inClause 0x10004 0x10000 0x000FF000 = true ∧ (at' handling).chainWords (ctxOf handling) lvl 0x10004 3 = .ok 1) ∧
    (let f := { handling.frameS with xpc := 0x10000 }
     f.xpc ≠ f.orig) :=
  ⟨home_cur, rfl, by decide, cur_at _ rfl rfl, rfl, rfl, by decide, by decide +kernel, by decide⟩

/-- The handling thread with an open region whose access has failed. -/
def failed : Thread :=
  { handling with region := some ⟨⟨0x10004, 0x10000, 0, 0, [], 1, thr.flow⟩, 0, false, 3, false, false⟩, fails := [⟨3, 0x10004, true, false, none⟩] }

theorem witness_TrapInstructions_restart :
    (at' failed).cur? = some (ctxOf failed) ∧ failed.activeS = true ∧ failed.frameS.xpc = failed.frameS.orig ∧
    ((at' failed).returned failed).regionFails ≠ [] ∧ ((at' failed).returned failed).suspended = false ∧
    ((at' handling).returned handling).regionFails = [] :=
  ⟨cur_at _ rfl rfl, rfl, rfl, by decide +kernel, by decide +kernel, rfl⟩

/-- The machine of the token's holder, with a write-back that the quota holds. -/
def tokenHeld : State := { awayDirty with launches := [(tokenCtx 0).l] }

theorem witness_TokenForms_held :
    tokenHeld.launch? 0 = some (tokenCtx 0).l ∧ (tokenCtx 0).l.holder ∉ (tokenCtx 0).l.skipped ∧
    ∃ core ∈ tokenHeld.groupCores 0 0, tokenHeld.backHeld core 0 = true :=
  ⟨rfl, by decide, 0, by decide +kernel, by decide +kernel⟩

theorem witness_TrapEntry_mates :
    (let s : State := { home with threads := [thr, { thr with id := 3, lane := 1, trapAt := some (thr.issue, Cause.brk.code, .s) }] }
     ∃ x ∈ s.threads, x.lane.val = 1 ∧ x.id ≠ thr.id ∧ x.trapAt = some (thr.issue, Cause.brk.code, .s)) :=
  ⟨_, List.mem_cons_of_mem _ (List.mem_singleton.mpr rfl), rfl, by decide, rfl⟩

/-! ## Hypotheses met: engine commands -/

/-- A team whose thread leads register 15, with a page of scratch and barrier 15 initialised. -/
def tileTeam : Team :=
  { convTeam ⟨2, 0, 3, 3, 0x10004⟩ with scr := 1, nbar := 16, bars := (placedTeam 0).bars.set 15 ⟨true, false, 0, 2⟩ }

/-- The leader with a copy's description in g124 to g127. -/
def tiler (w : Nat) : Ctx :=
  ctxTm (thr.puts ((List.range 4).map fun k => (124 + k, BitVec.ofNat 32 (w / 2 ^ (32 * k))))) tileTeam

/-- Words of a linear copy. -/
def linearCopy (gaddr soff units : Nat) : Nat := gaddr + soff * 2 ^ 64 + units * 2 ^ 96

/-- A machine whose core holds the record of tensor 1. -/
def recorded (s : State) : State :=
  { s with ms := { s.ms with layout := [⟨some 0, 0, 0, 1, toBytes 8 (2 ^ 63) ++ toBytes 8 (128 * 2 ^ 32) ++ toBytes 48 0⟩] } }

theorem tiler_cur (w : Nat) : (machine (tiler w)).cur? = some (tiler w) := cur_machine _ ⟨rfl, rfl, rfl, rfl, rfl⟩

/-- The machine whose device has a page table: one leaf maps the low 32 GiB to the memory of member 1. -/
def podTable (s : State) : State :=
  let s := (s.pocWrite 0 (toBytes 8 0x8001)).pocWrite 0x8000 (toBytes 8 (2 ^ 62 + 2 ^ 50 + 0x1F))
  { s with mgmt := (0x98000010, 0) :: (0x70000000, 0x100000000) :: s.mgmt }

theorem witness_TileCopyAndCommandForms :
    (∀ w, (machine (tiler w)).cur? = some (tiler w)) ∧
    (∀ w ∈ [0, 2 ^ 128 - 1], firstBeyond 128 [quad 124] = none ∧ (tiler w).t.poisoned [quad 124] = none ∧
      (machine (tiler w)).regN (tiler w).t 124 4 = w) ∧
    inside.inRegion = true ∧ thr.inRegion = false ∧ thr.flagRoom (hdrSets thr.hdr) = true ∧
    (∀ n : Fin 16, isLeader (placedTeam 0) thr n = false) ∧ isLeader tileTeam thr 15 = true ∧ tileTeam.nbar = 16 ∧
    tileTeam.bars[(15 : Fin 16)].init = true ∧ tileTeam.bars[(14 : Fin 16)].init = false ∧
    (bits (2 ^ 56) 62 56 ≠ 0 ∧ bits (2 ^ 95) 95 85 ≠ 0) ∧
    (∀ w ∈ [linearCopy 0x1FFF1 0 1, linearCopy 0x1FFF0 1 1, linearCopy 0x1FFF0 4080 2, linearCopy 0x1FFF0 4080 1],
      bits w 62 56 = 0 ∧ bits w 95 85 = 0 ∧ bits w 127 116 = 0) ∧
    (0x1FFF1 % 16 ≠ 0 ∧ 4096 * tileTeam.scr < 4080 + 16 * 2 ∧ 4080 + 16 * 1 ≤ 4096 * tileTeam.scr) ∧
    ((home.eng.tcopies.all fun k => k.core != 0 || k.accepted) && decide (home.eng.tcopies.countP (fun k => k.core == 0 && k.accepted) < 64)) = true ∧
    (let s := recorded (machine (tiler 0))
     let k : TileCopy := (tileDesc (tiler 0) s.nextId 15 (2 ^ 116)).getD ⟨0, 0, 0, 0, 0, 0, .s, 0, false, 0, 0, 0, 0, 0, 0, 0, 0, 0, 0, 0, false⟩
     (match s.tileCheck k 4096 with
      | (_, .ok k') => k'.core == 0 && k'.tid == 1
      | (_, .error _) => false) = true ∧
     (match s.tileCheck { k with tid := 2 } 4096 with
      | (_, .error e) => decide (e = (.tileRecord, 2))
      | (_, .ok _) => false) = true ∧ s.layoutHeld 0 0 1 = false) ∧
    (podTable (machine (tiler 0))).layoutHeld 0 0 1 = true ∧
    ((home.reg64 (asks 0x1FFC1 0) 4).toNat % 64 ≠ 0 ∧ (home.reg64 (asks 0x1FFC0 0) 4).toNat % 64 = 0 ∧
     firstBeyond 128 [pair 4, sixteen 112] = none ∧ thr.poisoned [pair 4, sixteen 112] = none ∧
     (at' (asks 0x1FFC0 0)).resolve (ctxOf (asks 0x1FFC0 0)) .gl 0x1FFC0 64 ⟨.write, false, .s⟩ = .ok (.mem 0x1FFC0 false) false) ∧
    firstBeyond 128 [pair 126, pair 124] = none ∧ firstBeyond 128 [one 127, one 126, one 125] = none ∧
    (home.reg32 (thr.puts [(8, 256)]) 8).toNat = 256 ∧ (home.reg32 (thr.puts [(8, 255)]) 8).toNat = 255 := by
  refine ⟨tiler_cur, by decide +kernel, rfl, rfl, by decide +kernel, by decide +kernel, by decide +kernel, rfl,
    by decide +kernel, by decide +kernel, by decide +kernel, by decide +kernel, by decide +kernel, by decide +kernel,
    ?_, by decide +kernel, by decide +kernel, by decide +kernel, by decide +kernel, by decide +kernel, by decide +kernel⟩
  decide +kernel

/-- A descriptor of collective 9 of job 3 with its root at worker 0: one contribution of one element. -/
def collBytes (q : Nat) : List Byte :=
  toBytes 8 (3 * 2 ^ 16 + 9 * 2 ^ 32) ++ toBytes 8 (q * 2 ^ 32) ++ toBytes 8 0x10000 ++ toBytes 8 1 ++ toBytes 8 0x20000 ++
    toBytes 8 0x1FF40 ++ toBytes 16 0

/-- The machine of the worker with a descriptor in its page, a versioned page after it, and barrier 15 initialised. -/
def joining (q : Nat) (kind : Option OpKind) : State :=
  let c : Ctx := { workerCtx (asks 0x1FFC0 5) with tm := tileTeam }
  let s := (machine c).pocWrite 0x1FFC0 (collBytes q)
  { s with
    ms := { s.ms with tlb := [placedPage, { placedPage with va := 0x20000, leaf := 0x2003F }] }
    ops := kind.toList.map operation
    ver := { s.ver with
      dir := [{ entry with fpa := 0x20000 }], jobs := [⟨3, 2, 2, 0, 4096, [some (0, 0), some (1, 0)]⟩]
      ptable := [⟨0, 3, 0, .counted, true, 5, 0⟩, ⟨1, 3, 1, .counted, false, 4, 0⟩] } }

/-- Its context. -/
def joiner : Ctx := { workerCtx (asks 0x1FFC0 5) with tm := tileTeam }

theorem joining_cur (q : Nat) (kind : Option OpKind) : (joining q kind).cur? = some joiner := rfl

/-- The machine whose device has a quota for other packages, with no live plane. -/
def deadPlanes (s : State) : State := { s with mgmt := (0x90000038, 0x0001000000000000) :: (0x70000010, 0) :: s.mgmt }

theorem witness_CollectiveForm :
    (∀ q k, (joining q k).cur? = some joiner) ∧ firstBeyond 128 [pair 4, one 8] = none ∧
    joiner.t.poisoned [pair 4, one 8] = none ∧ inside.inRegion = true ∧ joiner.t.inRegion = false ∧
    (placedLaunch 0).worker = none ∧ joiner.l.worker = some ⟨3, 0, 5, 2, 1⟩ ∧ joiner.tm.nbar = 16 ∧
    joiner.tm.bars[(15 : Fin 16)].init = true ∧ joiner.tm.bars[(0 : Fin 16)].init = false ∧
    (home.reg64 (asks 0x1FFC1 0) 4).toNat % 64 ≠ 0 ∧ (home.reg64 (asks (2 ^ 56) 0) 4).toNat = 2 ^ 56 ∧
    (joining 1 none).resolve joiner .gl 0x1FFC0 64 ⟨.read, false, .s⟩ = .ok (.mem 0x1FFC0 false) false ∧
    (∃ o ∈ (joining 1 (some (.load 1 4 .zero (.scr 1 0) none))).ops, o.th = 2 ∧ o.kind.isAccess = true) ∧
    (∀ o ∈ (joining 1 none).ops, o.th = 2 → o.kind.isAccess = false) ∧ (joining 1 none).backHeld 0 0 = false ∧
    ((joining 1 none).engineSync 0 (2 ^ 50) 64).engineHeld 0 (2 ^ 50) = true ∧
    ((deadPlanes (joining 1 none)).engineSync 0 (2 ^ 50) 64).engineHeld 0 (2 ^ 50) = false ∧
    ((deadPlanes (joining 1 none)).engineSync 0 (2 ^ 50) 64).requestFails (2 ^ 50) = true ∧
    isRemote 0x1FFC0 = false ∧ (joining 1 none).ms.poisoned 0x1FFC0 64 = false ∧
    (let got := fun n => let s0 := (joining n none).engineSync 0 0x1FFC0 64
       let l := (List.range 64).map fun k => s0.byteAt (0x1FFC0 + k)
       (s0, l, parseDesc l 0 0 0x1FFC0 0 0 .s)
     let x : XOk := ⟨0x20000, 16, false, false, true, false⟩
     (got 2).1.translate 0 0 0 0x20000 ⟨.versioned, false, .s⟩ = .ok x ∧
     (got 2).1.descBad (got 2).2.1 (got 2).2.2 3 (some 16) = false ∧ (got 3).1.descBad (got 3).2.1 (got 3).2.2 3 (some 16) = true ∧
     (got 2).2.2.buf % 16 = 0 ∧ (got 2).2.2.mrbase % 64 = 0 ∧ (got 2).2.2.rpage = 0x20000 ∧
     (got 2).1.ventryAt 0x20000 16 = some { entry with fpa := 0x20000 } ∧ joiner.t.flagRoom (hdrSets joiner.t.hdr) = true ∧
     ((got 2).1.staged 3 9).length < 8 ∧ (got 2).1.descBad (got 2).2.1 (got 2).2.2 3 none = false ∧ (got 2).2.2.e ≤ 16384) ∧
    (let s : State := { joining 2 none with ms := { (joining 2 none).ms with tlb := [placedPage] } }
     s.translate 0 0 0 0x20000 ⟨.versioned, false, .s⟩ = .miss) := by
  refine ⟨joining_cur, by decide +kernel, by decide +kernel, rfl, rfl, rfl, rfl, rfl, by decide +kernel, by decide +kernel,
    by decide +kernel, by decide +kernel, by decide +kernel, by decide +kernel, by decide +kernel, by decide +kernel, ?_, ?_⟩ <;>
  decide +kernel

/-! ## Hypotheses met: places, clauses and teams -/

/-- The thread at the header of its clause. -/
def starting : Thread := { thr with entered := false, pc := 0x10000 }

/-- The machine with a header whose WAIT names flag 11, and one whose check fails. -/
def headed (s : State) (h : List Host.Cell) : State := { s with ms := { s.ms with mem := h } }

/-- The machine whose device has a page table that maps the low 32 GiB of addresses by one leaf. -/
def tabled (s : State) (leaf : Nat) : State :=
  let s := (s.pocWrite 0 (toBytes 8 0x8001)).pocWrite 0x8000 (toBytes 8 leaf)
  { s with mgmt := (0x98000010, 0) :: s.mgmt }

theorem witness_PlaceAndClauseEvents :
    (∀ p ∈ [Place.leaving 0 3 0, .leaving 0 3 1, .recallWanted 0 3, .returning 0 3 0, .eddy 0 3], (at' { thr with place := p }).thread? 2 = some { thr with place := p } ∧
      (at' { thr with place := p }).team? 1 = some (placedTeam 0)) ∧
    (∀ o ∈ home.ops, o.th = 2 → TeamPhase.running ≠ .running ∧ o.kind.withdrawable = true) ∧
    (∀ o ∈ (having home (.fifoPop 1 4 0 31)).ops, o.th = 2 → TeamPhase.preempting ≠ .running ∧ o.kind.withdrawable = true) ∧
    home.tick = 0 ∧ ({ home with tick := 1 } : State).tick = 1 ∧
    (let t := { thr with place := .leaving 0 3 0 }
     ∀ u ∈ (at' t).threads, u.issue = t.issue → u.lane < t.lane → u.place.unasked = false) ∧
    (let c := ctxTm { thr with place := .eddy 0 3 } { placedTeam 0 with phase := .preempting }
     (machine c).thread? 2 = some c.t ∧ (machine c).team? 1 = some c.tm ∧ c.tm.phase ≠ .running ∧ (machine c).chained 2 = false) ∧
    (at' starting).ctx? 2 = some (ctxOf starting) ∧ starting.entered = false ∧ starting.wait = .run ∧
    ((at' starting).fetch 0 0 0 0 .s 0x10000 = .ok 0xFF000 ∧ hdrBad 0xFF000 = false ∧ inClause 0x10000 0x10000 0xFF000 = true) ∧
    (let s := headed (at' starting) [(0x10001, 0xF0), (0x10002, 0x0F), (0x10003, 0x80)]
     s.fetch 0 0 0 0 .s 0x10000 = .ok 0x800FF000 ∧ hdrBad 0x800FF000 = false ∧ s.clauseRoom (ctxOf starting) 0x800FF000 = true ∧
      inClause 0x10000 0x10000 0x800FF000 = true ∧
      2 ^ 20 ≤ (0x800FF000 : Word).toNat ∧ 2 * starting.ready + (if starting.readyHalf then 1 else 0) ≤ 2 * s.tick) ∧
    (at' starting).clauseRoom (ctxOf starting) 0x000FF000 = true ∧
    (let t := { starting with flags := starting.flags.set 0 63 }
     let s := headed (at' t) [(0x10007, 0xC0)]
     s.fetch 0 0 0 0 .s 0x10000 = .ok 0 ∧ s.clauseRoom (ctxOf t) 0 = false ∧ hdrBad 0 = false) ∧
    (∀ k : Fin 12, starting.flags[k] = 0) ∧ ({ starting with flags := starting.flags.set 11 1 } : Thread).flags[(11 : Fin 12)] ≠ 0 ∧
    ((headed (at' starting) [(0x10000, 1)]).fetch 0 0 0 0 .s 0x10000 = .ok 1 ∧ hdrBad 1 = true ∧
      ∀ h, ((headed (at' starting) h).peers (ctxOf starting)).map (fun t => t.id) = [2]) ∧
    (let s := { at' starting with ms := { (at' starting).ms with tlb := [] } }
     s.fetch 0 0 0 0 .s 0x10000 = .miss) ∧
    (∀ kind sp, (at' { thr with wait := .walk 0x1FFFF kind sp }).ctx? 2 =
      some (ctxOf { thr with wait := .walk 0x1FFFF kind sp })) ∧
    ((tabled home 0x1F).walkRoot (some 0) 0 0x1FFFF = .ok ⟨0x1F, 3, 35, [(4, 47, 0x8001)]⟩ ∧
      (tabled home 0x1F).checkLeaf 0 0x1FFFF ⟨.read, false, .s⟩ 0x1F 3 35 = .ok ⟨0x1FFFF, 35, false, false, false, false⟩ ∧
      (tabled home 0x1F).checkLeaf 0 0x1FFFF ⟨.read, false, .u⟩ 3 3 35 = .error ⟨3, 2, false⟩ ∧
      home.walkRoot (some 0) 0 0x1FFFF = .error ⟨4, 0, false⟩ ∧
      (tabled home 0x80).walkRoot (some 0) 0 0x1FFFF = .error ⟨3, 0, true⟩) ∧
    ((0, 1) ∉ home.front.parked ∧
      let s : State := { home with front := { home.front with parked := [(0, 1)] } }
      (0, 0x1FFFF / 65536) ∈ s.front.parked) ∧
    (let s := withLeaf (at' starting) (BitVec.ofNat 64 (2 ^ 62 + 2 ^ 50 + 0x1001F))
     ({ s with mgmt := (0x70000000, 0x100000000) :: s.mgmt } : State).fetch 0 0 0 0 .s 0x10000 = .held) ∧
    (let t : Thread := { starting with wait := .past 2 }
     (at' t).ctx? 2 = some (ctxOf t) ∧ t.entered = false ∧ ∃ n, t.wait = .past n) ∧
    (let t : Thread := { thr with wait := .version 0 0x1FFFF 10 (some 0) true none }
     (versioned (at' t) []).thread? 2 = some t ∧ (versioned (at' t) []).ventry? 0 = some entry ∧
     ∀ j < 4, ∀ p, entry.frames[j]? = some p → p.1 = .valid → p.2.toNat < (t.floor entry.idx 10).toNat) := by
  refine ⟨fun p _ => ⟨rfl, rfl⟩, by decide, by decide +kernel, rfl, rfl, by decide +kernel,
    ⟨rfl, rfl, by decide, by decide +kernel⟩, rfl, rfl, rfl, by decide +kernel, by decide +kernel,
    by decide +kernel, by decide +kernel, by decide +kernel, by decide +kernel,
    ⟨by decide +kernel, by decide +kernel, fun h => ?_⟩, by decide +kernel, fun k sp => rfl,
    by decide +kernel, by decide +kernel, by decide +kernel, ⟨rfl, rfl, 2, rfl⟩, rfl, rfl, by decide +kernel⟩
  show ((at' starting).peers (ctxOf starting)).map (fun t => t.id) = [2]
  decide +kernel

/-- The thread with two failed words. -/
def failing : Thread := { thr with fails := [⟨7, 0x20000, false, false, none⟩, ⟨8, 0x10008, true, false, none⟩] }

/-- The thread in a region with so many retries, one of whose operations failed. -/
def retrying (n : Nat) : Thread :=
  { thr with region := some ⟨⟨0x10004, 0x10000, 0, 0, [(127, 5)], 1, thr.flow⟩, n, false, 7, false, false⟩, fails := [⟨7, 0x20000, false, false, none⟩] }

/-- A team that is going away. -/
def going (p : TeamPhase) : Team := { placedTeam 0 with phase := p }

/-- A partition one core of which holds 16 teams of the lowest priority, where a cluster of eight cores is to go. -/
def crowded : State :=
  { home with
    teams := (List.range 16).map fun n => { placedTeam 0 with id := n + 1, order := n }
    launches := [{ placedLaunch 0 with prio := 0 }, { placedLaunch 4 with prio := 7 }]
    front := { home.front with placements := [
      { id := 9, launch := 4, tree := 4, queue := none, desc := List.replicate 64 0, arg := 0, tbase := 0
        next := 0, nclu := 1, nteam := 8, ngrp := 1, cw := 2, ch := 4 }] } }

/-- A saved team. -/
def savedTeam : SavedTeam := { dev := 0, off := 0, team := placedTeam 0, threads := [thr], frozen := false }

/-- The machine while that team is away. -/
def away : State := { home with teams := [], threads := [], saved := [savedTeam], issuing := Issue.idle }

/-- The threads that fail and retry are found. -/
theorem retrying_at (n : Nat) : (at' (retrying n)).thread? 2 = some (retrying n) := thread_at _ rfl

theorem away_restores : away.restorable savedTeam = true ∧ away.restoreNow savedTeam = some (0, []) ∧
    away.saveBad savedTeam = false := ⟨by decide +kernel, by decide +kernel, by decide +kernel⟩

theorem leaves_now : (machine (ctxTm thr (going .preempting))).leavesNow (going .preempting) = true ∧
    (machine (ctxTm thr (going (.freezing 3 2)))).leavesNow (going (.freezing 3 2)) = true :=
  ⟨by decide +kernel, by decide +kernel⟩

theorem crowded_preempts : crowded.preempted 9 = some [16] ∧
    ((crowded.front.placements.find? fun x => x.id == 9).map fun p => p.launch) = some 4 ∧
    (crowded.launch? 4).isSome = true := by decide +kernel

theorem retrying_fails (n : Nat) : ∃ f ∈ (retrying n).fails, 7 ≤ f.op ∧ f.handler = false :=
  ⟨_, List.mem_singleton.mpr rfl, by decide, rfl⟩

theorem away_holds : (away.saved.find? fun x => x.team.id == 1) = some savedTeam ∧ away.team? 1 = none ∧
    ((away.threads ++ savedTeam.threads).map fun t => t.id).Nodup := ⟨rfl, rfl, by decide⟩

theorem witness_TeamEvents :
    ((at' failing).thread? 2 = some failing ∧ failing.wait = .run ∧ failing.region = none ∧
      failing.fails = [⟨7, 0x20000, false, false, none⟩, ⟨8, 0x10008, true, false, none⟩] ∧ (0x10008 : Nat) < 0x20000) ∧
    (let t := { failing with wait := .exiting }
     (at' t).thread? 2 = some t ∧ ∀ o ∈ (at' t).ops, o.th ≠ 2) ∧
    (∀ n ∈ [6, 7], (at' (retrying n)).thread? 2 = some (retrying n) ∧ (retrying n).activeU = false ∧ (retrying n).activeS = false ∧
      (retrying n).pend = [] ∧ (∀ o ∈ (at' (retrying n)).ops, o.th ≠ 2) ∧ ([(127, (5 : Word))].map Prod.fst).Nodup ∧
      ∃ f ∈ (retrying n).fails, 7 ≤ f.op ∧ f.handler = false) ∧
    (let s := machine (ctxTm thr (going .preempting))
     s.team? 1 = some (going .preempting) ∧ s.launch? 0 = some (placedLaunch 0) ∧ s.leavesNow (going .preempting) = true) ∧
    (let s := machine (ctxTm thr (going (.freezing 3 2)))
     s.team? 1 = some (going (.freezing 3 2)) ∧ s.leavesNow (going (.freezing 3 2)) = true) ∧
    ((away.saved.find? fun x => x.team.id == 1) = some savedTeam ∧ away.restorable savedTeam = true ∧
      away.restoreNow savedTeam = some (0, []) ∧ away.saveBad savedTeam = false ∧ away.team? 1 = none ∧
      ((away.threads ++ savedTeam.threads).map fun t => t.id).Nodup) ∧
    crowded.preempted 9 = some [16] ∧ ((crowded.front.placements.find? fun x => x.id == 9).map fun p => p.launch) = some 4 ∧
    (crowded.launch? 4).isSome = true := by
  refine ⟨⟨thread_at _ rfl, rfl, rfl, rfl, by decide⟩, ⟨thread_at _ rfl, fun o h => (List.not_mem_nil h).elim⟩,
    fun n _ => ⟨retrying_at n, rfl, rfl, rfl, fun o h => (List.not_mem_nil h).elim, by decide, retrying_fails n⟩,
    ⟨rfl, rfl, leaves_now.1⟩, ⟨rfl, leaves_now.2⟩,
    ⟨away_holds.1, away_restores.1, away_restores.2.1, away_restores.2.2, away_holds.2.1, away_holds.2.2⟩,
    crowded_preempts.1, crowded_preempts.2.1, crowded_preempts.2.2⟩

/-! ## Hypotheses met: versions, workers, queues and launches -/

/-- The machine with page tables that map 0x10000 plainly, and 0x20000 and 0x30000 as versioned pages, of which the
second ends at the end of the partition's memory. -/
def mapped (s : State) : State :=
  [(0, 0x8001), (0x8000, 0x9001), (0x9000, 0xA001), (0xA000, 0xB001), (0xB008, 0x1001F), (0xB010, 0x2003F), (0xB018, 0x3FFF003F)].foldl
    (fun s e => s.pocWrite e.1 (toBytes 8 e.2)) { s with mgmt := (0x98000010, 0) :: s.mgmt }

/-- A queue of a device at priority 7. -/
def packetQueue (dev : Nat) (priv : Bool) : Queue :=
  { id := 5, dev := dev, num := 0, cblock := 0x18000, base := 0x14000, log2 := 4, prio := 7, priv := priv, kmax := 0
    rdidx := 2 ^ 32 - 1, wait := .idle }

/-- The bytes of a packet whose SEQ is 0xFFFF: values at offsets. -/
def packet (l : List (Nat × Nat)) : List Byte := toBytes 64 (l.foldl (fun n e => n + e.2 * 2 ^ (8 * e.1)) 0xFFFF0000)

/-- The machine with a queue whose head is a packet. -/
def serving (q : Queue) (l : List Byte) : State :=
  let s := (mapped home).pocWrite (0x14000 + 64 * 15) l
  { s with front := { s.front with queues := [q] } }

/-- The front end serves a packet. -/
theorem serves {s : State} {q : Queue} {l : List Byte} {ty : Nat}
    (h : s.frontPick = some q ∧ s.head q = .ready l false ∧ field l 0 1 = ty ∧ typeAllowed q ty = true) : s.Serves q l ty :=
  ⟨h.1, h.2.1, h.2.2.1, h.2.2.2⟩

/-- The machine with a directory. -/
def withDir (s : State) (l : List VEntry) (i : List Install) : State := { s with ver := { s.ver with dir := l, installs := i } }

/-- The versioned page at 0x20000 in the directory. -/
def page2 : VEntry := { entry with fpa := 0x20000 }

/-- An installation of a step. -/
def installing (step : Nat) (frame : Option Nat) : Install := ⟨6, 0, step, List.replicate 16384 7, frame, 0, false, 0⟩

/-- A VCREATE or VDESTROY packet. -/
def pagePacket (ty va n : Nat) : List Byte := packet [(0, ty), (8, va), (16, n)]

theorem serves_vcreate : ∀ va ∈ [0x10000, 0x20000, 0x2FFFF, 0x30000], ∀ n ∈ [3, 4],
    (serving (packetQueue 0 true) (pagePacket 0x10 va n)).Serves (packetQueue 0 true) (pagePacket 0x10 va n) 0x10 :=
  fun va hv n hn => serves <| by revert va n; decide +kernel

theorem witness_VersionEvents_pages :
    (∀ va ∈ [0x10000, 0x20000, 0x2FFFF, 0x30000], ∀ n ∈ [3, 4],
      (serving (packetQueue 0 true) (pagePacket 0x10 va n)).Serves (packetQueue 0 true) (pagePacket 0x10 va n) 0x10) ∧
    (let q := packetQueue 0 true
     let s := fun va => serving q (pagePacket 0x10 va 4)
     let l := pagePacket 0x10 0x2FFFF 4
     (flagsBad l = false ∧ zeroBytes l 4 8 = true ∧ zeroBytes l 17 20 = true ∧ zeroBytes l 28 56 = true ∧ field l 16 1 = 4) ∧
     field (pagePacket 0x10 0x2FFFF 3) 16 1 = 3 ∧
     (s 0x10000).verLeaf 0 0x10000 = none ∧ (s 0x30000).verLeaf 0 0x30000 = some (0x3FFF0000, 16) ∧
     (s 0x30000).framesOk 0 0x3FFF0000 16 4 = false ∧ (s 0x2FFFF).verLeaf 0 0x2FFFF = some (0x20000, 16) ∧
     (s 0x2FFFF).framesOk 0 0x20000 16 4 = true ∧ (s 0x2FFFF).ventryAt 0x20000 16 = none ∧
     (withDir (s 0x2FFFF) [page2] []).ventryAt 0x20000 16 = some page2 ∧
     (withDir (s 0x2FFFF) [entry] []).ventryAt 0x20000 16 = none ∧
     ∀ e ∈ (withDir (s 0x2FFFF) [entry] []).ver.dir, e.idx = 0) ∧
    (let q := packetQueue 0 true
     let l := pagePacket 0x11 0x2FFFF 0
     let s := withDir (serving q l) [page2] [installing 9 none]
     s.Serves q l 0x11 ∧ s.queue? 5 = some q ∧ flagsBad l = false ∧ zeroBytes l 4 8 = true ∧ zeroBytes l 16 56 = true ∧
     s.verLeaf 0 (field l 8 8) = some (0x20000, 16) ∧ s.ventryAt 0x20000 16 = some page2 ∧ s.ventry? 0 = some page2 ∧
     isRemote page2.idx = false) ∧
    (let e : VEntry := { entry with closing := some 5 }
     let s := withDir home [e] []
     s.ventry? 0 = some e ∧ e.closing ≠ none ∧ s.pageBusy 0 = false ∧ (∀ t ∈ s.threads, t.wait = .run) ∧
       let s' : State := { s with ver := { s.ver with waits := [⟨1, 0x10000, .vpin 1 9, 0, 9, none⟩] } }
       s'.ventry? 0 = some e ∧ s'.pageBusy 0 = false ∧ ∃ w ∈ s'.ver.waits, w.entry = e.idx) := by
  refine ⟨serves_vcreate, by decide +kernel, ⟨serves (by decide +kernel), by decide +kernel⟩, by decide +kernel⟩

/-- A page whose frames are resident but for the third. -/
def paged (l : List (FState × Word)) (i : Install) (pins : List Pin) (tick : Nat) : State :=
  let s := withDir home [{ entry with fpa := 0x20000, frames := l }] [i]
  { s with tick := tick, ver := { s.ver with pins := pins } }

theorem witness_VersionEvents_installs :
    (∀ l tick, ∀ f ∈ [none, some 3], (paged l (installing 9 f) [] tick).memWf = true ∧
      (paged l (installing 9 f) [] tick).install? 6 = some (installing 9 f) ∧
      (paged l (installing 9 f) [] tick).ventry? 0 = some { entry with fpa := 0x20000, frames := l } ∧
      (paged l (installing 9 f) [] tick).ver.installs = [installing 9 f]) ∧
    (∀ p ∈ [((FState.valid, (9 : Word)) : FState × Word)], (installing 9 none).step ≤ p.2.toNat) ∧
    (∀ p ∈ [((FState.valid, (8 : Word)) : FState × Word)], p.2.toNat < (installing 9 none).step) ∧
    (([(.valid, 8), (.empty, 0), (.empty, 0)] : List (FState × Word))[1]? = some (.empty, 0)) ∧
    (let s := paged [(.valid, 4), (.valid, 8)] (installing 9 none) [⟨none, 1, 0, 1, 8, 1⟩] 0
     s.frameHeld 0 0 = false ∧ s.frameHeld 0 1 = true) ∧
    (let x : VEntry := { entry with fpa := 0x20000, frames := [(.valid, 8), (.valid, 9)] }
     let t : Thread := { thr with wait := .version 0 0x20000 9 none true none }
     let s := { paged x.frames (installing 9 (some 1)) [] 0 with threads := [t] }
     isRemote 0 = false ∧ s.thread? 2 = some t ∧ (∃ m, s.team? t.team = some m ∧ m.phase = .running) ∧
       x.frameFor t 9 = some (1, 9) ∧ x.qualifying 9 = some (1, 9) ∧ x.qualifying 10 = none) ∧
    (let l := paged [(.valid, 8)] (installing 9 none) [⟨none, 1, 0, 0, 8, 1⟩] 0
     l.frameHeld 0 0 = true ∧ (8 : Word).toNat < 9) ∧
    (∀ least ∈ [(9 : Word), 10],
      let w : PeerWait := ⟨1, 0x20000, .vpin 1 least, 0, least, none⟩
      w.entry = 0 ∧ w.req = .vpin 1 w.least ∧ [w].length < 65536) ∧
    ([installing 9 none].map fun x => x.id).Nodup ∧
    ((installing 9 none).stalled = false ∧ (installing 9 none).since + entry.vtimeout < (paged [] (installing 9 none) [] 11).tick) := by
  refine ⟨fun l tick f _ => ⟨by show home.memWf = true; exact home_wf.1, rfl, rfl, rfl⟩, by decide, by decide, rfl,
    by decide +kernel, ⟨by decide +kernel, rfl, ⟨_, rfl, rfl⟩, by decide +kernel, by decide +kernel, by decide +kernel⟩, by decide +kernel,
    fun _ _ => ⟨rfl, rfl, (by decide : 1 < 65536)⟩, by decide, by decide⟩

/-- An XLINV packet of the range of the machine's page. -/
def xlinvPacket : List Byte := packet [(0, 0x13), (8, 0x10000), (16, 0x10000)]

theorem witness_VersionEvents_xlinv :
    (let q := packetQueue 0 true
     let s := serving q xlinvPacket
     s.Serves q xlinvPacket 0x13 ∧ s.queue? 5 = some q ∧ flagsBad xlinvPacket = false ∧ zeroBytes xlinvPacket 4 8 = true ∧
     zeroBytes xlinvPacket 26 56 = true ∧ field xlinvPacket 24 2 = 0 ∧ field xlinvPacket 8 8 % 65536 = 0 ∧
     field xlinvPacket 16 8 % 65536 = 0) ∧
    (let q : Queue := { packetQueue 0 true with wait := .invalidating 7 0 }
     let i : Inval := ⟨7, 0, 0x10000, 0x20000, [8]⟩
     let t := fun va => ({ thr with wait := .replay va } : Thread)
     let s := fun va => ({ at' (t va) with front := { home.front with queues := [q], invals := [i] } } : State)
     ∀ va ∈ [0x10000, 0x1FFFF, 0x20000],
       (s va).front.invals.find? (fun x => x.id == 7) = some i ∧ (∀ k ∈ i.waits, ∀ o ∈ (s va).ops, o.id ≠ k) ∧
       (s va).front.queues = [q] ∧ (s va).thread? 2 = some (t va) ∧ (s va).ctx? 2 = some (ctxOf (t va))) := by
  refine ⟨⟨serves (by decide +kernel), by decide +kernel⟩, fun va _ => ⟨rfl, fun _ _ o h => (List.not_mem_nil h).elim, rfl, rfl, rfl⟩⟩

theorem witness_VersionEvents_used :
    (let o := operation (.load 1 4 .zero (.mem 0x10000 false) none)
     let s := having home o.kind
     o ∈ s.ops ∧ placedPage ∈ s.ms.tlb ∧ placedPage.dev = 0 ∧ placedPage.va < 0x10000 + 0x10000 ∧
       0x10000 < placedPage.va + 2 ^ placedPage.size ∧ s.usedEntry placedPage o = true ∧ s.usedDropped 0 [] o = true) :=
  ⟨List.mem_singleton.mpr rfl, List.mem_singleton.mpr rfl, rfl, by decide +kernel, by decide +kernel, by decide +kernel,
   by decide +kernel⟩

/-- A launch packet for one team of one group with its code at 0x10000. -/
def launchPacket (n : Nat) : List Byte := packet [(0, 1), (4, 7), (5, 15), (8, 0x10000), (24, n), (28, 1)]

/-- A WORKER packet for worker 1 of two, with its peers at 0x15000 and its descriptor at 0x16000. -/
def workerPacket (idx : Nat) : List Byte :=
  packet [(0, 0x12), (8, 0x16000), (16, 3), (18, idx), (20, 2), (22, 2), (24, 5), (28, 1024), (32, 0x15000)]

/-- The machine whose queue's head is that packet. -/
def workerHome (d : List Byte) : State := (serving (packetQueue 0 true) (workerPacket 1)).pocWrite 0x16000 d

/-- A counted peer of the progress table, elsewhere, that has reached step 5. -/
def peer (st : PState) : PEntry := ⟨1, 3, 1, st, false, 5, 0⟩

/-- The machine that holds it, at the tick. -/
def peered (st : PState) (tick : Nat) : State :=
  { working thr with
    tick := tick
    ver := { home.ver with jobs := [⟨3, 2, 2, 0, 1024, [some (0, 0), some (1, 0)]⟩], ptable := [⟨0, 3, 0, .counted, true, 5, 0⟩, peer st] } }

/-- That machine with a quota for messages. -/
def quotaed (st : PState) (tick : Nat) : State :=
  let s := peered st tick
  { s with mgmt := (0x90000038, 0x0001000100000000) :: s.mgmt }

/-- A WORKER packet whose peers stand in the memory of another member. -/
def farWorker : List Byte :=
  packet [(0, 0x12), (8, 0x16000), (16, 3), (18, 1), (20, 2), (22, 2), (24, 5), (28, 1024), (32, 0x40000)]

/-- The machine whose queue's head is that packet. -/
def farTable : State :=
  let s := (serving (packetQueue 0 true) farWorker).pocWrite 0xB020 (toBytes 8 (2 ^ 62 + 2 ^ 50 + 0x1F))
  { s with mgmt := (0x70000000, 0x100000000) :: s.mgmt }

theorem witness_WorkerEvents :
    (let d := launchPacket 1
     let l := workerPacket 1
     let table := [List.replicate 16 0, List.replicate 16 0]
     (workerHome d).Serves (packetQueue 0 true) l 0x12 ∧ flagsBad l = false ∧ zeroBytes l 4 8 = true ∧ zeroBytes l 23 24 = true ∧
     zeroBytes l 40 56 = true ∧ field l 20 2 = 2 ∧ field l 18 2 = 1 ∧ field l 28 4 = 1024 ∧
     (workerHome d).readPeers 0 (field l 32 8) 2 = .ok table ∧ (∀ x ∈ table, (workerHome d).peerBad x = false) ∧
     (workerHome d).vread 0 (field l 8 8) 64 .s = .ok d ∧ (workerHome d).vheld 0 (field l 32 8) 32 .read .s = false ∧
     (workerHome d).vheld 0 (field l 8 8) 64 .read .s = false ∧
     (workerHome d).workerStatus 0 3 1 2 2 5 1024 (peersBut 1 (table.map (workerHome d).peerOf)) d = 0 ∧
     (workerHome d).workerStatus 0 3 1 2 2 5 1024 (peersBut 1 (table.map (workerHome d).peerOf)) (launchPacket 0) = 3) ∧
    (farTable.Serves (packetQueue 0 true) farWorker 0x12 ∧ farTable.vheld 0 (field farWorker 32 8) 32 .read .s = true) ∧
    ((∀ p ∈ (peered .counted 0).peerPackages 3, (peered .counted 0).msgHeld 0 p.1 = true) ∧
      (peered .counted 0).peerPackages 3 = [(1, 0)] ∧ ∀ p ∈ (quotaed .counted 0).peerPackages 3, (quotaed .counted 0).msgHeld 0 p.1 = false) ∧
    ((peered .counted 0).ver.jobs.find? fun j => j.job == 3) = some ⟨3, 2, 2, 0, 1024, [some (0, 0), some (1, 0)]⟩ ∧
    (∀ st tick, (peered st tick).pentry? 3 1 = some (peer st) ∧ (peered st tick).ver.ptable.find? (fun x => x.idx == 1) = some (peer st)) ∧
    (∀ t ∈ [1024 * 1024, 1025 * 1024], (peered .counted t).silence 3 = 1024 ∧
      (((peered .counted t).silence 3 < (BitVec.ofNat 32 (t / 1024) - (peer .counted).heard).toNat) ↔ t = 1025 * 1024)) ∧
    (∀ t, (peered .counted t).launch? 0 = some (workerCtx thr).l) ∧ (workerCtx thr).l.worker = some ⟨3, 0, 5, 2, 1⟩ ∧
    (1 + (peered .counted 0).silence 3 * 128 = 131073) ∧
    (∃ e ∈ (peered .counted 0).ver.ptable, e.job = 3 ∧ e.isLocal = false) ∧
    (∀ st : Word, (working { thr with wait := .step st }).ctx? 2 = some (workerCtx { thr with wait := .step st })) ∧
    ¬∃ e ∈ ({ home with ver := { home.ver with ptable := [⟨0, 3, 0, .counted, true, 5, 0⟩] } } : State).ver.ptable,
      e.job = 3 ∧ e.isLocal = false := by
  refine ⟨⟨serves (by decide +kernel), by decide +kernel⟩, ⟨serves (by decide +kernel), by decide +kernel⟩, by decide +kernel, rfl,
    fun st tick => ⟨rfl, rfl⟩, ?_, fun t => rfl, rfl, rfl,
    by decide, fun st => rfl, by decide⟩
  intro t ht
  simp only [List.mem_cons, List.not_mem_nil, or_false] at ht
  obtain rfl | rfl := ht <;> decide +kernel

/-- The machine with device 0 in Lull, and its AUTOWAKE bit set. -/
def lulled (st : Nat) : State :=
  let s := (serving (packetQueue 0 true) (packet [(0, 2)])).setReg (vdOff 0 0x08) 1
  s.setReg (vdOff 0 0) (BitVec.ofNat 64 (2 ^ 63 + st * 2 ^ 32))

/-- A COPY packet of 16 bytes, and a QCREATE packet. -/
def copyPacket (dst : Nat) : List Byte := packet [(0, 3), (8, 0x1FFE0), (16, dst), (24, 16)]

/-- A QCREATE packet that names a control block. -/
def qcreatePacket (cb : Nat) : List Byte := packet [(0, 0x14), (8, cb), (16, 7)]

/-- The machine whose queue of the physical function has a packet at its head. -/
def pfServing (l : List Byte) : State := serving (packetQueue 1024 true) l

/-- The mapped machine with the page at 0x40000 in the memory of another member. -/
def farMap (s : State) : State :=
  let s := s.pocWrite 0xB020 (toBytes 8 (2 ^ 62 + 2 ^ 50 + 0x1F))
  { s with mgmt := (0x70000000, 0x100000000) :: s.mgmt }

theorem serves_far : (farMap (serving (packetQueue 0 true) (qcreatePacket 0x40000))).Serves (packetQueue 0 true)
    (qcreatePacket 0x40000) 0x14 := serves (by decide +kernel)

theorem serves_nop : ∀ b ∈ [0, 2 ^ 7], (serving (packetQueue 0 false) (packet [(0, 2), (55, b)])).Serves (packetQueue 0 false)
    (packet [(0, 2), (55, b)]) 0x02 := fun b hb => serves <| by revert b; decide +kernel

theorem serves_copy : ∀ dst ∈ [0x1FFF0, 0x1FFE0, 0x1FFF1], (pfServing (copyPacket dst)).Serves (packetQueue 1024 true)
    (copyPacket dst) 0x03 := fun b hb => serves <| by revert b; decide +kernel

theorem serves_qcreate : ∀ cb ∈ [0x15000, 0x15001], (serving (packetQueue 0 true) (qcreatePacket cb)).Serves (packetQueue 0 true)
    (qcreatePacket cb) 0x14 := fun b hb => serves <| by revert b; decide +kernel

theorem witness_QueueEvents :
    (let s := pfServing (packet [(0, 2)])
     s.queue? 5 = some (packetQueue 1024 true) ∧ s.memWf = true ∧ physMem 0x1FFF0 16 = true) ∧
    (∀ st ∈ [1, 3], (lulled st).queueOf 0 0 = some (packetQueue 0 true) ∧ (lulled st).vdState 0 = st ∧
      ((lulled st).reg (vdOff 0 0x08)).getLsbD 0 = true) ∧
    (let good := fun v : Word => decide (1 ≤ (v - (packetQueue 0 true).kmax).toNat ∧ (v - (packetQueue 0 true).kmax).toNat < 2 ^ 31)
     good 1 = true ∧ good 0x7FFFFFFF = true ∧ good 0 = false ∧ good 0x80000000 = false) ∧
    (∀ t, let q : Queue := { packetQueue 0 true with wait := .stopped 0 }
      let s : State := { home with tick := t, front := { home.front with queues := [q] } }
      s.queue? 5 = some q ∧ (0 + 12500 ≤ s.tick ↔ 12500 ≤ t)) ∧
    (let s := serving (packetQueue 0 true) (toBytes 64 2)
     s.queue? 5 = some (packetQueue 0 true) ∧ s.head (packetQueue 0 true) = .stop ∧
       (match s.slotRead (packetQueue 0 true) with
         | .ok _ => true
         | .error _ => false) = true) ∧
    (let q : Queue := { packetQueue 0 true with base := 0x40000 }
     let s := deadPlanes (farMap (serving q (toBytes 64 2)))
     s.queue? 5 = some q ∧ s.head q = .stop ∧ (match s.slotRead q with
       | .ok _ => false
       | .error _ => true) = true) ∧
    (let q := packetQueue 0 false
     let l := pagePacket 0x10 0x20000 2
     (serving q l).frontPick = some q ∧ (serving q l).head q = .ready l false ∧ typeAllowed q (field l 0 1) = false) ∧
    ((∀ b ∈ [0, 2 ^ 7], (serving (packetQueue 0 false) (packet [(0, 2), (55, b)])).Serves (packetQueue 0 false)
        (packet [(0, 2), (55, b)]) 0x02) ∧ zeroBytes (packet [(0, 2), (55, 0)]) 4 56 = true ∧
      zeroBytes (packet [(0, 2), (55, 2 ^ 7)]) 4 56 = false) ∧
    ((∀ dst ∈ [0x1FFF0, 0x1FFE0, 0x1FFF1], (pfServing (copyPacket dst)).Serves (packetQueue 1024 true) (copyPacket dst) 0x03) ∧
      (let l := copyPacket 0x1FFF0
       flagsBad l = false ∧ zeroBytes l 4 8 = true ∧ zeroBytes l 28 32 = true ∧ zeroBytes l 40 56 = true ∧
       field l 8 8 + field l 24 4 ≤ field l 16 8) ∧ 0x1FFF1 % 16 ≠ 0 ∧ ¬(0x1FFE0 + 16 ≤ 0x1FFE0)) ∧
    ((∀ cb ∈ [0x15000, 0x15001], (serving (packetQueue 0 true) (qcreatePacket cb)).Serves (packetQueue 0 true) (qcreatePacket cb) 0x14) ∧
      (let l := qcreatePacket 0x15000
       let s := serving (packetQueue 0 true) l
       flagsBad l = false ∧ zeroBytes l 4 8 = true ∧ field l 16 1 = 7 ∧ zeroBytes l 17 18 = true ∧ zeroBytes l 20 56 = true ∧
       field l 8 8 % 64 = 0 ∧ field l 18 2 = 0 ∧ s.vdExists 0 = true ∧ s.vheld 0 0x15000 64 .read .s = false ∧
       (farMap s).vheld 0 0x40000 64 .read .s = true ∧ s.vread 0 0x15000 64 .s = .ok (List.replicate 64 0) ∧
       blockBad (List.replicate 64 0) = false ∧ s.front.queues.length < 4096 ∧ s.freeNum 0 false = some 1 ∧
       s.freeNum 0 true = some 63) ∧ 0x15001 % 64 ≠ 0) := by
  refine ⟨by decide +kernel, by decide +kernel, by decide +kernel, fun t => ⟨rfl, Iff.rfl⟩, by decide +kernel, by decide +kernel,
    by decide +kernel, ⟨serves_nop, by decide +kernel⟩, ⟨serves_copy, by decide +kernel⟩, ⟨serves_qcreate, by decide +kernel⟩⟩

/-- A cluster that waits for placement. -/
def waiting : Placement :=
  { id := 9, launch := 0, tree := 0, queue := none, desc := launchPacket 1, arg := 5, tbase := 0, next := 0, nclu := 1, nteam := 1
    ngrp := 1, cw := 1, ch := 1 }

/-- The machine with it. -/
def placing : State := { home with front := { home.front with placements := [waiting] } }

/-- The machine whose descriptor of a SPAWN lies at 0x15000. -/
def spawning (d : List Byte) (kind : OpKind) : State := having ((mapped home).pocWrite 0x15000 d) kind

/-- The descriptor's bytes, with a TBASE. -/
def spawnBytes (n tbase : Nat) : List Byte := launchPacket n |>.take 56 |> (· ++ toBytes 8 tbase)

theorem serves_launch : ∀ n ∈ [0, 1], (serving (packetQueue 0 false) (launchPacket n)).Serves (packetQueue 0 false) (launchPacket n) 0x01 :=
  fun b hb => serves <| by revert b; decide +kernel

theorem witness_LaunchEvents :
    ((∀ n ∈ [0, 1], (serving (packetQueue 0 false) (launchPacket n)).Serves (packetQueue 0 false) (launchPacket n) 0x01) ∧
      (serving (packetQueue 0 false) (launchPacket 0)).launchStatus 0 (launchPacket 0) = 3 ∧
      (serving (packetQueue 0 false) (launchPacket 1)).launchStatus 0 (launchPacket 1) = 0) ∧
    (placing.front.placements.find? (fun x => x.id == 9) = some waiting ∧ placing.launch? 0 = some (placedLaunch 0) ∧
      placing.served 0 = true ∧ placing.restoreFirst (placedLaunch 0) = false ∧
      placing.placementFit (placedLaunch 0) waiting = some [(0, [(0, 1)], [(8, 0)])] ∧ placing.carving 0 = false) ∧
    (∀ desc ∈ [0, 0x15000, 0x40000], let s := spawning (spawnBytes 1 32) (.spawn desc 5 7)
      let s0 := ((s.releaseAt ctx .dev).endOp (operation (.spawn desc 5 7))).syncRange 0 0 desc (if desc = 0 then 0 else 64) .s
      s.op? 9 = some (operation (.spawn desc 5 7)) ∧ s.ctx? 2 = some ctx ∧ s.forkWaits (operation (.spawn desc 5 7)) = false ∧
      s.laneAhead (operation (.spawn desc 5 7)) = false ∧ s.vheld 0 desc 64 .read .s = false ∧
      (desc = 0x40000 → s0.spawnRead ctx.l desc = none) ∧
      (desc = 0x15000 → s0.spawnRead ctx.l desc = some (spawnDesc ctx.l.packet (spawnBytes 1 32), 32))) ∧
    (let s := spawning (spawnBytes 1 32) (.spawn 0x15000 5 7)
     let d := spawnDesc (placedLaunch 0).packet (spawnBytes 1 32)
     s.spawnStatus (placedLaunch 0) d 32 = 0 ∧ s.spawnStatus (placedLaunch 0) d 31 = 6) ∧
    (let o := operation (.spawn 0 5 7)
     let s : State := { home with ops := [{ operation (.store 4 7 (.mem 0x10000 false) none) with id := 8 }, o] }
     s.op? 9 = some o ∧ s.ctx? 2 = some ctx ∧ s.forkWaits o = true) ∧
    (let l : Launch := { placedLaunch 0 with counter := 0 }
     let s : State := { awayDirty with launches := [l] }
     s.memWf = true ∧ s.l1Wf ∧ s.launch? 0 = some l ∧ ∃ k ∈ l.cores, s.backHeld k l.dev = true) ∧
    (∀ k ∈ (placedLaunch 0).cores, (withL1 home).backHeld k 0 = false) ∧
    (let l : Launch := { placedLaunch 0 with counter := 0 }
     let s : State := { withL1 home with launches := [l] }
     s.memWf = true ∧ s.l1Wf ∧ s.launch? 0 = some l ∧ l.started = true ∧ ∃ b ∈ s.ms.l1, b.dev = 0 ∧ b.core ∈ l.cores ∧ b.dirty = true) := by
  refine ⟨⟨serves_launch, by decide +kernel, by decide +kernel⟩,
    ⟨rfl, rfl, by decide +kernel, by decide +kernel, by decide +kernel, by decide +kernel⟩, ?_, by decide +kernel, ⟨rfl, rfl, by decide +kernel⟩,
    ⟨by decide +kernel, by unfold State.l1Wf; decide +kernel, rfl, by decide +kernel⟩, by decide +kernel,
    ⟨home_wf.1, by unfold State.l1Wf; decide +kernel, rfl, rfl, by decide +kernel⟩⟩
  intro desc hd
  refine ⟨rfl, rfl, by revert desc; decide +kernel, by revert desc; decide +kernel, by revert desc; decide +kernel,
    by revert desc; decide +kernel, by revert desc; decide +kernel⟩

/-! ## Hypotheses met: engines and collectives -/

/-- A linear copy into scratch of the machine's team, and the operation of the thread that waits for its place. -/
def copying (acc : Bool) : TileCopy :=
  { id := 9, op := 9, th := 2, team := 1, core := 0, dev := 0, level := .s, br := 15, out := false, soff := 4080, tid := 0
    gaddr := 0x1FFF0, units := 1, row0 := 0, col0 := 0, rows := 0, cols := 0, shape := 0, base := 0, pitch := 0, accepted := acc }

/-- The thread that waits for that place. -/
def waiter : Thread := { thr with wait := .accept 9 1 }

/-- The machine with that copy. -/
def copier (acc : Bool) : State :=
  let s := mapped (machine (ctxTm (if acc then thr else waiter) tileTeam))
  { s with ops := if acc then [] else [operation (.tcopy 9)], eng := { s.eng with tcopies := [copying acc] } }

/-- A queue copy of 16 bytes of the physical function. -/
def queueCopying (dst : Nat) : QueueCopy := ⟨7, 5, 1024, 0x1FFE0, dst, 16, 0, 0⟩

/-- The bytes of a BINREL descriptor of one entry: the queue's slot at 0x14000, bin 255. -/
def binBytes (loff : Nat) : List Byte := toBytes 16 1 ++ toBytes 16 (0x14000 + 255 * 2 ^ 80 + loff * 2 ^ 88 + 4 * 2 ^ 96)

/-- The machine with such a descriptor at 0x15000 and a held packet in the slot. -/
def releasing (loff : Nat) : State :=
  let s := ((mapped home).pocWrite 0x15000 (binBytes loff)).pocWrite 0x14000 [2, 4]
  { having s (.binrel 0x15000) with front := { home.front with queues := [packetQueue 0 false] } }

/-- The machine with a QPUT whose control block lies at 0x15000. -/
def putting (claimed : Option Nat) : State :=
  having ((mapped home).pocWrite 0x15000 (toBytes 64 (3 + 3 * 2 ^ 64 + 0x14000 * 2 ^ 128))) (.qput 0x15000 (packet [(0, 2)]) claimed)

/-- The machine with a bank in a mode. -/
def carving (b m : Nat) (b' : Bank) : State := (having home (.carve 127 0 b m)).setBank b'

theorem witness_EngineEvents :
    ((copier false).tcopy? 9 = some (copying false) ∧ (copier false).op? 9 = some (operation (.tcopy 9)) ∧
      (copier false).ctx? 2 = some (ctxTm waiter tileTeam) ∧ stepped tileTeam waiter = false ∧ waiter.entered = true ∧ (copying false).accepted = false ∧
      (∀ x ∈ (copier false).eng.tcopies, x = copying false) ∧
      ((copier false).eng.tcopies.map fun x => x.id).Pairwise (· < ·) ∧
      (copier false).eng.tcopies.countP (fun x => x.core == 0 && x.accepted) < 64) ∧
    ((copier true).tcopy? 9 = some (copying true) ∧ (copier true).copyWaits (copying true) = false ∧
      (copier true).team? 1 = some tileTeam ∧ (∃ t ∈ (copier true).threads, t.team = 1) ∧
      (copier true).segmentKey (copying true) 0x1FFF0 = .ok 0x1FFF0 ∧ isMgmt 0x1FFF0 = false ∧ isRemote 0x1FFF0 = false ∧ 0x1FFF0 % 16 = 0 ∧
      (copier true).ms.poisoned 0x1FFF0 16 = false ∧ (copier true).ms.l1 = [] ∧ (copier true).memWf = true ∧
      tileTeam.bars[(15 : Fin 16)].arrived + 1 ≠ tileTeam.bars[(15 : Fin 16)].expect) ∧
    (∀ dst ∈ [0x1FFF0, 0x1FFD0], let s : State := { home with eng := { home.eng with qcopies := [queueCopying dst] } }
      s.memWf = true ∧ s.eng.qcopies.find? (fun x => x.id == 7) = some (queueCopying dst) ∧ s.copyReady (queueCopying dst) = true ∧
      (∀ i < 1, physMem (0x1FFE0 + 16 * i) 16 = true ∧ physMem (dst + 16 * i) 16 = true ∧ s.ms.poisoned (0x1FFE0 + 16 * i) 16 = false) ∧
      (0x1FFE0 + 16 ≤ dst ∨ dst + 16 ≤ 0x1FFE0)) ∧
    ((having home (.bin 127 5)).op? 9 = some (operation (.bin 127 5)) ∧ (having home (.bin 127 5)).thread? 2 = some thr) ∧
    (∀ loff ∈ [52, 53], let s := releasing loff
      let s0 := ((s.releaseAt ctx .dev).endOp (operation (.binrel 0x15000))).binSync 0 0 0x15000 .s
      s.op? 9 = some (operation (.binrel 0x15000)) ∧ s.ctx? 2 = some ctx ∧ s.forkWaits (operation (.binrel 0x15000)) = false ∧
      s.laneAhead (operation (.binrel 0x15000)) = false ∧ s.binHeld 0 0x15000 .s = false ∧
      (loff = 53 → s0.binEntries 0 0x15000 .s = .error (0x15000, 7, 0)) ∧
      (loff = 52 → s0.binEntries 0 0x15000 .s = .ok [⟨0x14000, 0, 255, 52, 4⟩])) ∧
    ((putting none).op? 9 = some (operation (.qput 0x15000 (packet [(0, 2)]) none)) ∧
      (putting none).qputReady ctx (operation (.qput 0x15000 (packet [(0, 2)]) none)) = true ∧
      (putting (some 3)).qputReady ctx (operation (.qput 0x15000 (packet [(0, 2)]) (some 3))) = true ∧
      (putting none).ctx? 2 = some ctx ∧
      (let o := operation (.qput 0x40000 (packet [(0, 2)]) none)
       (farMap (having (mapped home) o.kind)).qputReady ctx o = false) ∧
      (match (putting none).eread 0 0 0x15000 8 .s with
       | (s1, .ok l) => decide (ofBytes l = 3) && (s1.ewrite 0 0 0x15000 (toBytes 8 4) .s).2.isNone
       | (_, .error _) => false) = true ∧
      (match ((putting (some 3)).eread 0 0 0x15000 64 .s).2 with
       | .ok b => decide (field b 8 8 + 2 ^ (field b 24 8 % 256) = 4)
       | .error _ => false) = true) ∧
    (∀ b ∈ [0, 31, 32], ∀ m ∈ [2, 3], ∀ b', (carving b m b').op? 9 = some (operation (.carve 127 0 b m)) ∧
      (carving b m b').ctx? 2 = some ctx) ∧
    ((carving 31 2 ⟨0, 31, .fifo, 1, [], false⟩).carveAhead (operation (.carve 127 0 31 2)) 0 = false ∧
      (operation (.carve 127 0 31 2)).due ≤ home.tick ∧ (carving 31 2 ⟨0, 31, .fifo, 1, [], false⟩).carveHeld 0 31 = false ∧
      ((carving 31 2 ⟨0, 31, .fifo, 1, [], false⟩).bank 0 31).owner ≠ 0 ∧ ((carving 31 2 ⟨0, 31, .fifo, 0, [], false⟩).bank 0 31).mode = modeOf 2 ∧
      ((carving 31 2 ⟨0, 31, .scratch, 0, [], false⟩).bank 0 31).mode ≠ modeOf 2 ∧
      (carving 31 2 ⟨0, 31, .scratch, 0, [], false⟩).bankUsed 0 31 = false ∧
      (({ carving 8 2 ⟨0, 8, .scratch, 0, [], false⟩ with teams := [{ placedTeam 0 with units := [(8, 0)] }] } : State).bankUsed 0 8 = true) ∧
      ((carving 0 2 ⟨0, 31, .scratch, 0, [], false⟩).bank 0 0).mode = .cache ∧
      (∃ j < 32, j ≠ 0 ∧ ((carving 0 2 ⟨0, 31, .scratch, 0, [], false⟩).bank 0 j).mode = .cache) ∧
      (let s := ((List.range 8).foldl (fun s k => s.setBank ⟨0, k, .scratch, 0, [], false⟩) home).setBank ⟨0, 31, .cache, 0, [], false⟩
       ∀ j < 32, (s.bank 0 j).mode = .cache → j = 31)) := by
  refine ⟨⟨rfl, rfl, rfl, by decide +kernel, rfl, rfl, ?_, by decide +kernel, by decide +kernel⟩,
    ⟨rfl, by decide +kernel, rfl, ⟨thr, List.mem_singleton.mpr rfl, rfl⟩, by decide +kernel, by decide +kernel, by decide +kernel, by decide,
      by decide +kernel, rfl, by decide +kernel, by decide +kernel⟩,
    ?_, ⟨rfl, rfl⟩, ?_,
    ⟨rfl, by decide +kernel, by decide +kernel, rfl, by decide +kernel, by decide +kernel, by decide +kernel⟩, fun b _ m _ b' => ⟨rfl, rfl⟩, by decide +kernel⟩
  · intro x hx
    exact List.mem_singleton.mp hx
  · intro dst hd
    exact ⟨home_wf.1, rfl, by revert dst; decide +kernel, by revert dst; decide +kernel, by revert dst; decide +kernel⟩
  · intro loff hl
    exact ⟨rfl, rfl, by revert loff; decide +kernel, by revert loff; decide +kernel, by revert loff; decide +kernel,
      by revert loff; decide +kernel, by revert loff; decide +kernel⟩

/-- The machine whose mailbox core runs an image. -/
def booted (s : State) : State := { s with penen := { s.penen with image0 := some ⟨1, 0, 9, []⟩ } }

/-- It with a bank in a mode. -/
def served (b : Bank) : State := (booted home).setBank b

theorem witness_EngineEvents_firmware :
    (booted home).masterRuns 0 = true ∧ ({ booted home with penen := { (booted home).penen with frozen := [0] } } : State).masterRuns 0 = false ∧
    (booted home).carving 0 = false ∧ (booted (having home (.carve 127 0 31 2))).carving 0 = true ∧ (booted home).carveHeld 0 31 = false ∧
    ({ awayDirty with ms := { awayDirty.ms with lines := [⟨0, 0, lineOf (2 ^ 50), 31, .normal⟩] } } : State).carveHeld 0 31 = true ∧
    (booted home).vdExists 0 = true ∧ (booted home).vdExists 1 = false ∧ (booted home).corePart 0 = some ((booted home).vdPart 0) ∧
    (booted home).corePart 511 ≠ some ((booted home).vdPart 0) ∧
    ((served ⟨0, 31, .fifo, 1, [], false⟩).bank 0 31).owner ≠ 0 ∧ ((served ⟨0, 31, .fifo, 0, [], false⟩).bank 0 31).mode = modeOf 2 ∧
    ((served ⟨0, 31, .scratch, 0, [], false⟩).bank 0 31).mode ≠ modeOf 2 ∧ (served ⟨0, 31, .scratch, 0, [], false⟩).bankUsed 0 31 = false ∧
    (∃ j < 32, j ≠ 0 ∧ ((served ⟨0, 31, .scratch, 0, [], false⟩).bank 0 j).mode = .cache) := by decide +kernel

/-- The descriptor of collective 9 at a worker of job 3, of one contribution in a quorum of two: the root is worker 0. -/
def collDesc (member t : Nat) : CollDesc :=
  { dev := 0, launch := 0, addr := 0x1FFC0, job := 3, cid := 9, root := 0, mode := false, k := 0, d := 2, q := 2, t := t
    buf := 0x1FFF0, e := 1, rpage := 0x20000, mrbase := 0x15000, logm := 0, member := member, entry := 0, level := .s }

/-- A staged step. -/
def staged (id : Nat) (acc : Bool) : Stage :=
  ⟨id, collDesc 1 1, 5, id, 2, 1, 0, 15, [], false, true, acc⟩

/-- The root after step 4. -/
def root (opened : List (Nat × Nat)) (fresh : List Entry) : Root :=
  ⟨collDesc 0 1, 4, opened, fresh, [], [(0, 5)], 0, 0, false, none⟩

/-- The machine of worker idx of job 3 with these stages and roots. -/
def colls (idx : Nat) (stages : List Stage) (roots : List Root) (known : List CollDesc) : State :=
  { mapped home with
    launches := [{ placedLaunch 0 with worker := some ⟨3, idx, 5, 2, 1⟩ }]
    ver := { home.ver with jobs := [⟨3, 2, 2, 0, 4096, [some (0, 0), some (1, 0)]⟩] }
    coll := { home.coll with stages := stages, roots := roots, known := known } }

/-- A contribution of a member to a step. -/
def contribution (member step q : Nat) : Contribution := ⟨3, 9, q, 1, 2, 0, false, member, step, [7]⟩

/-- A result of step 5. -/
def result5 : StepResult := ⟨3, 9, 5, 0, 0, 2, 0, 0, 0, 0, [], [7]⟩

/-- The machine in replay, with the record of step 5 that names both workers; the contribution of worker 1 has not
arrived. -/
def replaying (policy : Nat) : State :=
  let s := (colls 0 [] [root [(5, 0)] [⟨0, 5, 0, [7], 0⟩]] []).pocWrite 0x15000 (toBytes 64 (5 * 2 ^ 32 + 2 ^ 175) ++ toBytes 8 (2 ^ 32))
  { s.setReg (vdOff 0 0x90) (BitVec.ofNat 64 (1 + 2 * policy)) with tick := 1024 }

theorem witness_CollectiveEvents :
    (∀ idx ∈ [0, 1], let s := colls idx [staged 9 true] [] []
      s.stage? 9 = some (staged 9 true) ∧ s.stageReady (staged 9 true) = true ∧ s.rootHere (collDesc 1 1) = (idx == 0) ∧
      (match s.eread 0 0 0x1FFF0 4 .s with
       | (_, .ok _) => true
       | (_, .error _) => false) = true ∧
      (match s.eread 0 0 0x40000 4 .s with
       | (_, .ok _) => false
       | (_, .error _) => true) = true) ∧
    ((staged 9 true).sent = true ∧ (colls 1 [staged 9 true] [] []).unsent (staged 9 true) = false ∧
     ({ staged 9 true with sent := false } : Stage).sent = false ∧
     (let s := colls 1 [staged 9 true] [] []
      let a := s.peerAddr 3 0
      ({ s with heldMsgs := [(0, a.1, .contribution a.1 a.2 (staged 9 true).message)] } : State).unsent (staged 9 true) = true) ∧ (let s := colls 1 [staged 9 true] [] []
       ∀ x ∈ s.coll.stages, x.desc.job = 3 → x.desc.cid = 9 → x.accepted = true) ∧
     (let s := colls 1 [staged 9 true, staged 10 false] [] []
      s.coll.stages.find? (fun x => !x.accepted && x.desc.job == 3 && x.desc.cid == 9) = some (staged 10 false) ∧
      ∀ y ∈ s.coll.stages, y.id = 10 → y = staged 10 false)) ∧
    (let r := root [] []
     let s := colls 0 [] [r] []
     s.rootOf 3 9 = some r ∧
     r.high + 8 = ((12 : Nat) : Int) ∧ (∀ m ∈ [0, 1], (contribution m 12 2).q = r.desc.q ∧ r.desc.t = 1 ∧ r.desc.d = 2 ∧ r.desc.k = 0 ∧
       r.desc.e = (contribution m 12 2).data.length) ∧ r.desc.q ≠ (contribution 1 5 3).q ∧
     (0, 5) ∈ r.seen ∧ (1, 5) ∉ r.seen ∧ (1, 4) ∉ r.seen ∧ (r.high + 1 - ((3 : Nat) : Int)).toNat = 2 ∧ (r.high + 1 - ((2 : Nat) : Int)).toNat = 3) ∧
    (∀ fresh tick, let r := root [(5, 0), (6, 0)] fresh
      let s : State := { colls 0 [] [r] [] with tick := tick }
      s.rootOf 3 9 = some r ∧ r.high < 2 ^ 32 - 1 ∧ (5, 0) ∈ r.opened ∧ (∀ e ∈ r.opened, e = (5, 0) ∨ 5 < e.1)) ∧
    ((colls 0 [] [root [(5, 0)] []] []).replays (root [(5, 0)] []) = false) ∧
    ((List.countP (fun e : Entry => e.step == 5) [⟨0, 5, 0, [7], 0⟩]) < 2 ∧ 2 ≤ List.countP (fun e : Entry => e.step == 5) [⟨0, 5, 0, [7], 0⟩, ⟨1, 5, 0, [7], 0⟩] ∧
      (0 + 1 * 1024 ≤ 1024) ∧ ¬(0 + 1 * 1024 ≤ 1023)) ∧
    ((colls 0 [] [] []).members 3 = [0] ∧ (colls 0 [] [] []).jobN 3 = 2 ∧
      (colls 0 [] [] [collDesc 0 1]).resultDesc 0 result5 = some (collDesc 0 1) ∧ (colls 0 [] [] []).resultDesc 0 result5 = none ∧
      ((colls 0 [] [] []).coll.results.filter fun x => x.1 == 0 && x.2.job == 3 && x.2.cid == 9).length < 8) ∧
    (∀ p ∈ [0, 1], let s := replaying p
      let r := root [(5, 0)] [⟨0, 5, 0, [7], 0⟩]
      s.rootOf 3 9 = some r ∧ s.missing r = some ([(0, 0), (1, 0)], 0) ∧ (s.parting r 5 2 0 0).goesOn r = (p == 1)) := by
  refine ⟨?_, by decide +kernel, by decide +kernel, fun fresh tick => ⟨rfl, show (4 : Int) < 2 ^ 32 - 1 by decide, List.mem_cons_self .., by simp [root]⟩,
    by decide +kernel, by decide +kernel, by decide +kernel, ?_⟩
  · intro idx hi
    exact ⟨rfl, by revert idx; decide +kernel, by revert idx; decide +kernel, by revert idx; decide +kernel,
      by revert idx; decide +kernel⟩
  · decide +kernel

/-! ## Hypotheses met: host, fabric, firmware, power -/

/-- The machine with an export window over its memory, which member 1 may write. -/
def exporting : State := (home.setReg 0xA0004100 (BitVec.ofNat 64 (2 ^ 63 + 2 ^ 62 + 2 ^ 50))).setReg 0xA0004108 0x10000

/-- A load of the thread that waits for an answer until tick 5. -/
def remoteLoad : Op := { operation (.load 127 4 .zero (.mem (2 ^ 50) true) none) with deadline := some 5, planes := [7] }

/-- The machine with that load, at a tick. -/
def asking (tick : Nat) : State := { home with ops := [remoteLoad], tick := tick }

theorem witness_HostAndFabricEvents :
    ((withL1 home).memWf = true ∧ (withL1 home).l1Wf ∧
      (∀ a ∈ (withL1 home).ms.l1, ∀ b ∈ (withL1 home).ms.l1, a.dirty = true → b.dirty = true → a = b) ∧
      (∀ b ∈ (withL1 home).ms.l1, isRemote b.key = false) ∧ (∃ b ∈ awayDirty.ms.l1, awayDirty.engineHeld b.dev b.key = true) ∧
      (∃ b ∈ (withL1 home).ms.l1, b.core = 0 ∧ lineOf b.key = lineOf 0x1FF81 ∧ b.dirty = true) ∧
      (∃ b ∈ (withL1 home).ms.l1, b.core = 0 ∧ lineOf b.key = 1023 ∧ b.dirty = true) ∧
      (let s := { home with ms := { home.ms with l1 := [⟨0, 0, 0x1000000000080, 5, true, 0, false⟩] } }
       ∃ b ∈ s.ms.l1, lineOf b.key = lineOf (0x1000000000000 + 0x80))) ∧
    (isMgmt 0x1FFF0 = false ∧ reservedPa 0x1FFF0 = false ∧ (0x1FFF0 : Nat) < 0x80000000000 ∧ home.ms.poisoned 0x1FFF0 16 = false ∧
      ({ home with ms := { home.ms with poison := [0x1FFF] } } : State).ms.poisoned 0x1FFF0 16 = true ∧
      reservedPa 0x7FFFFFFFFFF = true ∧ isMgmt 0x7FFFFFFFFFF = false ∧ isMgmt 0x20000A0003008 = true ∧
      (∀ r ∈ [RemoteReq.load 16, .store 16 5], exporting.remoteOk 1 0x1FFF0 r = true) ∧
      exporting.remoteOk 2 0x1FFF0 (.load 16) = false) ∧
    (let s := (mapped home).setReg (vdOff 0 0x58) 0x10000
     s.memServed 0 = true ∧ s.regField (vdOff 0 0x58) 55 0 + (2 ^ 36 + 0xFFF0) % 2 ^ 36 = 0x1FFF0 ∧
     s.memServed 1 = false ∧
     (match s.vread 0 0x1FFF0 16 .s with
      | .ok _ => true
      | .error _ => false) = true ∧ (s.vwrite 0 0x1FFF0 (toBytes 16 5) .s).2 = none) ∧
    (∀ tick, (asking tick).op? 9 = some remoteLoad ∧ (asking tick).ctx? 2 = some ctx ∧ remoteLoad.deadline = some 5 ∧
      remoteLoad.held = false ∧ (asking tick).inOrder remoteLoad = true) ∧
    ((0x8100 : Nat) % 65536 = 0x8100 ∧ (0x80FF : Nat) % 65536 = 0x8000 + 0xFF ∧ (0x7FF8 : Nat) % 65536 = 8 * 4095 ∧
      (0x7FFC : Nat) % 65536 < 0x8000 ∧ (0x7FFC : Nat) % 65536 % 8 ≠ 0) ∧
    (7 ∈ remoteLoad.planes ∧ remoteLoad.deadline ≠ some 0 ∧ 6 ∉ remoteLoad.planes ∧ (∀ key l1, remoteLoad.kind ≠ .prefetch key l1)) ∧
    (let o := { remoteLoad with held := true }
     let s : State := { deadPlanes home with ops := [o], pending := some ⟨0, [8]⟩ }
     (∀ x ∈ s.ops, x.id ∉ [8]) ∧ o.planes ≠ [] ∧ s.ctx? o.th = some ctx ∧ s.noQuota ctx.l.dev = false ∧ s.heldWrites = [] ∧ s.heldHost = []) ∧
    (home.pending = none ∧
      (let s : State := { asking 0 with pending := some ⟨0, [9]⟩ }
       s.pending = some ⟨0, [9]⟩ ∧ ∃ o ∈ s.ops, o.id ∈ [9]) ∧
      (let s : State := { home with pending := some ⟨0, [9]⟩ }
       s.pending = some ⟨0, [9]⟩ ∧ ∀ o ∈ s.ops, o.id ∉ [9])) ∧
    ((1023 : Nat) < 1024 ∧ isMgmt 0x1FFF0 = false ∧ (mgmtBase + 0xA0003001) % 8 ≠ 0) ∧
    (home.thread? 2 = some thr ∧ (127 : Reg).val < thr.alloc ∧ scratchHome.team? 1 = some scratchTeam ∧
      16 * 255 < 4096 * scratchTeam.scr ∧ nearOrFar 0x1FFF0 = true ∧
      (∀ b ∈ home.ms.l1, b.core = 0 ∧ lineOf b.key = lineOf 0x1FF81 → b.dirty = false)) := by
  refine ⟨⟨home_wf.1, by unfold State.l1Wf; decide +kernel, ?_, fun b hb => (withL1_own home b hb).2.2, by decide +kernel, by decide +kernel,
      by decide +kernel, by decide +kernel⟩, by decide +kernel, by decide +kernel,
    fun tick => ⟨rfl, rfl, rfl, rfl, by show (asking 0).inOrder remoteLoad = true; decide +kernel⟩, by decide +kernel,
    ⟨by decide, by decide, by decide, fun key l1 h => (by cases h)⟩, ⟨by decide +kernel, by decide, rfl, by decide +kernel, rfl, rfl⟩,
    ⟨rfl, ⟨rfl, by decide +kernel⟩, ⟨rfl, by decide +kernel⟩⟩, by decide +kernel,
    ⟨rfl, by decide +kernel, rfl, by decide +kernel, by decide +kernel, fun b hb => absurd hb (List.not_mem_nil)⟩⟩
  decide +kernel

/-- The machine whose device 0 is in Lull with its segments powered off. -/
def segmentsOff : State :=
  { home with mgmt := (0x90000010, 1) :: home.mgmt, lull := [{ dev := 0, wakeTick := 0, idleSince := 0, fifos := [], reserve := some 0 }] }

theorem witness_HostAndFabricEvents_off :
    segmentsOff.poweredOff 0x1FFF0 = true ∧ isMgmt 0x1FFF0 = false ∧ home.poweredOff 0x1FFF0 = false ∧
    (let s := farMap ((mapped home).setReg (vdOff 0 0x58) 0x40000)
     s.memServed 0 = true ∧ s.vheld 0 (s.regField (vdOff 0 0x58) 55 0 + 0 % 2 ^ 36) 16 .read .s = true) ∧
    (home.vheld 0 0x10000 16 .read .s = false) ∧ remoteLoad.kind.access? = some (.mem (2 ^ 50) true, 4) ∧
    (∃ dst n ext loc acq, remoteLoad.kind = .load dst n ext loc acq) := by
  refine ⟨by decide +kernel, by decide +kernel, by decide +kernel, by decide +kernel, by decide +kernel, rfl, _, _, _, _, _, rfl⟩

theorem witness_HostAndFabricEvents_masters :
    (agentMaster .penen = some 0 ∧ agentMaster (.packet 5) = some 6 ∧ agentMaster .pf = none ∧ agentMaster (.vf 1023) = none) ∧
    ((booted home).masterRuns 0 = true ∧ (booted home).masterRuns 6 = true) ∧
    ({ booted home with penen := { (booted home).penen with frozen := [6] } } : State).masterRuns 6 = false ∧
    (let s := (booted home).setReg 0xA0000100 (BitVec.ofNat 64 (2 ^ 63))
     isHost 0x1000000000FF8 = true ∧ 0x1000000000FF8 % 8 = 0 ∧ s.inHceil 0xFF8 0xFFF = true ∧ s.inHceil 0x1000 0x1007 = false ∧ s.memWf = true) ∧
    (isMgmt 0x1FFF0 = false ∧ isHost 0x1FFF0 = false) ∧
    (home.regField 0xA0000000 5 0 = 60 ∧ (60 : Nat) < bits (BitVec.ofNat 64 (61 * 2 ^ 26) : DWord).toNat 31 26 ∧
      bits (BitVec.ofNat 64 (60 * 2 ^ 26) : DWord).toNat 31 26 = 60) := by decide +kernel

theorem witness_HostAndFabricEvents_caches :
    (let s : State := { home with ms := { home.ms with layout := [⟨none, 3, 0, 1, []⟩] } }
     ∃ e ∈ s.ms.layout, e.core = none ∧ e.die = 3) ∧
    (∀ d, let s : State := { home with ms := { home.ms with msc := [⟨lineOf 0x1FFF0, 15, .normal, d⟩] } }
      s.ms.msc.find? (fun l => l.line == lineOf 0x1FFF0) = some ⟨lineOf 0x1FFF0, 15, .normal, d⟩) :=
  ⟨⟨_, List.mem_singleton.mpr rfl, rfl, rfl⟩, fun d => by simp⟩

/-- The machine with a command in the mailbox, and host memory below 64 KiB open to firmware. -/
def commanded (l : List Byte) : State :=
  let s := ((home.setReg 0xA0000100 (BitVec.ofNat 64 (2 ^ 63))).setReg 0xA0000108 0xF000).pocWrite 0x100000000FFC8 [1]
  { s with penen := { s.penen with command := some l, image0 := some ⟨1, 0, 9, []⟩, image1 := none } }

/-- The bytes of a command: values at offsets. -/
def command (l : List (Nat × Nat)) : List Byte := toBytes 64 (l.foldl (fun n e => n + e.2 * 2 ^ (8 * e.1)) 0)

/-- A command that passes is a command that waits. -/
theorem commands {s : State} {l : List Byte} {code : Nat}
    (h : s.penen.command = some l ∧ s.masterRuns 0 = true ∧ field l 0 1 = code ∧ s.commandOk l = true) : s.Commands l code :=
  ⟨h.1, h.2.1, h.2.2.1, h.2.2.2⟩

theorem formed : ∀ l ∈ [command [(0, 1), (8, 47), (16, 0xFFC0)], command [(0, 1), (8, 0), (16, 0)], command [(0, 2), (8, 1023)],
      command [(0, 2), (8, 0)], command [(0, 3), (8, 0)], command [(0, 3), (8, 1)], command [(0, 4), (40, 0xF000)],
      command [(0, 5), (8, 0), (16, 255)], command [(0, 6)], command [(0, 7), (8, 19)], command [(0, 7), (8, 20)],
      command [(0, 7), (8, 60)], command [(0, 7), (8, 61)], command [(0, 8), (8, 0x1FFC0)]],
    (commanded l).Commands l (field l 0 1) := fun l h => commands ⟨rfl, rfl, rfl, by revert l; decide +kernel⟩

/-- The version of a state block is two bytes. -/
theorem version_fits (room : Nat) (p : List Byte) : field (stateBlock room p) 0 2 ≤ 65535 := by
  have h : ∀ l : List Byte, ofBytes l < 256 ^ l.length := by
    intro l
    induction l with
    | nil => exact Nat.one_pos
    | cons b l ih =>
      have := b.isLt
      simp only [ofBytes, List.length_cons, Nat.pow_succ]
      omega
  refine Nat.le_of_lt_succ (Nat.lt_of_lt_of_le (h _) ?_)
  have hl : (((stateBlock room p).drop 0).take 2).length ≤ 2 := by simp
  exact Nat.le_trans (Nat.pow_le_pow_right (by decide) hl) (by decide)

/-- The machine whose firmware has begun to destroy device 0. -/
def ending (s : State) : State := { s with penen := { s.penen with ending := some 0 } }

theorem witness_MailboxEvents :
    (∀ l ∈ [command [(0, 1), (8, 47), (16, 0xFFC0)], command [(0, 1), (8, 0), (16, 0)], command [(0, 2), (8, 1023)],
      command [(0, 2), (8, 0)], command [(0, 3), (8, 0)], command [(0, 3), (8, 1)], command [(0, 4), (40, 0xF000)],
      command [(0, 5), (8, 0), (16, 255)], command [(0, 6)], command [(0, 7), (8, 19)], command [(0, 7), (8, 20)],
      command [(0, 7), (8, 60)], command [(0, 7), (8, 61)], command [(0, 8), (8, 0x1FFC0)]],
    (commanded l).Commands l (field l 0 1)) ∧
    (let l := command [(0, 9)]
     (commanded l).penen.command = some l ∧ (commanded l).masterRuns 0 = true ∧ (commanded l).commandOk l = false) ∧
    (let s := commanded (command [])
     s.partRefused 47 (s.hostRead 0xFFC0 64) = false ∧ s.partRefused 0 (s.hostRead 0 64) = true ∧
     s.createRefused 1023 0 0 = false ∧ s.createRefused 0 0 0 = true ∧ s.vdExists 0 = true ∧ s.vdExists 1 = false ∧ s.memWf = true ∧
     imageOk (s.hostRead 0 255) = false ∧ s.penen.image (!s.penen.bank) = none ∧ s.regField 0xA0000000 5 0 = 60 ∧
     s.destroyBegins 0 = true ∧ (ending s).destroyBegins 0 = false ∧ (ending s).destroyWaits 0 = true ∧
     (let e := ending { s with threads := [], teams := [], launches := [] }
      e.destroyBegins 0 = false ∧ e.destroyWaits 0 = false) ∧
     s.queueOf 1024 0 = none ∧ s.ms.poisoned 0x1FFC0 64 = false ∧ blockBad (s.pocRead 0x1FFC0 64) = false) ∧
    (∀ room p, let i : Image := ⟨0, 0, 65535, []⟩
      i.lo ≤ field (stateBlock room p) 0 2 ∧ field (stateBlock room p) 0 2 ≤ i.hi) ∧
    (∀ room p, field (stateBlock room p) 0 2 < 65536) ∧
    (home.penen.heldWakes = [] ∧ home.penen.frozen = [] ∧ (booted home).masterRuns 0 = true ∧ (booted home).penen.handover = none ∧
      (let s : State := booted { home with penen := { home.penen with handover := some 0 } }
       s.masterRuns 0 = true ∧ s.penen.handover ≠ none) ∧
      (let s : State := booted { home with penen := { home.penen with handover := some 0, frozen := [0] } }
       s.penen.handover = some 0 ∧ s.penen.frozen ≠ [] ∧ s.masterRuns 0 = false) ∧ (0 + 125000000 ≤ 125000000)) :=
  ⟨formed, by decide +kernel, by decide +kernel, fun room p => ⟨Nat.zero_le _, version_fits room p⟩,
   fun room p => Nat.lt_succ_of_le (version_fits room p), by decide +kernel⟩

/-- The bytes of an image without a body. -/
def imageBytes : List Byte := toBytes 256 0x4E454E50

/-- Its command. -/
def stageCommand : List Byte := command [(0, 5), (8, 0), (16, 256)]

/-- The machine with them. -/
def stagingHome : State := (commanded stageCommand).pocWrite 0x1000000000000 imageBytes

theorem image_shape : (decide (256 ≤ imageBytes.length ∧ field imageBytes 0 4 = 0x4E454E50 ∧
    field imageBytes 12 4 = (imageBytes.drop 256).length) && zeroBytes imageBytes 176 256) = true := by decide +kernel

/-- An image of bytes of this shape passes when its digest, its signatures and its SVN do, which is Config's to say. -/
theorem witness_MailboxEvents_image :
    stagingHome.Commands stageCommand 5 ∧ stagingHome.hostRead (field stageCommand 8 8) (field stageCommand 16 4) = imageBytes ∧
      ((Config.sm3 (imageBytes.drop 256) == (imageBytes.drop 16).take 32) = true →
        Config.vendorSigned (imageBytes.take 48) ((imageBytes.drop 48).take 64) = true →
        Config.ownerSigned (imageBytes.take 48) ((imageBytes.drop 112).take 64) = true →
        decide (Config.fusedSvn ≤ field imageBytes 4 4) = true → imageOk imageBytes = true) := by
  refine ⟨commands ⟨rfl, rfl, by decide +kernel, by decide +kernel⟩, by decide +kernel, fun h1 h2 h3 h4 => ?_⟩
  have h := image_shape
  rw [Bool.and_eq_true] at h
  unfold imageOk
  simp only [Bool.and_eq_true]
  exact ⟨⟨⟨⟨h, h1⟩, h2⟩, h3⟩, h4⟩

/-- The machine with device 0 in a state, its thread and its team gone or not, and IDLET of one unit. -/
def deviceIn (st : Nat) (gone : Bool) : State :=
  let s := home.setReg (vdOff 0 0) (BitVec.ofNat 64 (2 ^ 63 + st * 2 ^ 32 + 1))
  if gone then { s with threads := [], teams := [], tick := 1250, lull := [⟨0, 0, 0, [], none⟩] } else s

theorem witness_PowerAndLullEvents :
    (∀ st ∈ [1, 2, 3, 4], ∀ g ∈ [true, false], (deviceIn st g).vdExists 0 = true ∧ (deviceIn st g).vdState 0 = st ∧
      (deviceIn st g).wakesHeld = false ∧ (deviceIn st g).memWf = true) ∧
    ((deviceIn 1 false).team? 1 = some (placedTeam 0) ∧ (deviceIn 1 false).launch? 0 = some (placedLaunch 0) ∧
      (placedTeam 0).phase = .running) ∧
    (deviceIn 1 true).idleLong 0 = true ∧ (deviceIn 1 false).idleLong 0 = false ∧ (deviceIn 2 true).collapsed 0 = true ∧
    (deviceIn 4 true).woken 0 = true ∧
    ({ home with penen := { home.penen with handover := some 0 } } : State).wakesHeld = true ∧
    (home.power.trip1 = false ∧ 50 * home.power.pcap = 3000 ∧ 450 * home.power.pcap = 27000) ∧
    (∀ level tick, let r : Ramp := ⟨0, level, 0, 0, 0⟩
      let s : State := { home with tick := tick, power := { home.power with ramps := [r] } }
      s.ramp? 0 = some r ∧ s.rampInterval = home.rampInterval) ∧
    (0 + home.rampInterval / 8 = 10000 ∧ 10000 < 10000 + 1250 ∧ max 0 (10000 + 1250) + home.rampInterval / 8 = 21250) ∧
    home.launch? 0 = some (placedLaunch 0) ∧ home.halt = false ∧ ({ home with halt := true } : State).halt = true := by
  refine ⟨by decide +kernel, ⟨rfl, rfl, rfl⟩, by decide +kernel, by decide +kernel, by decide +kernel, by decide +kernel,
    by decide +kernel, by decide +kernel, fun level tick => ⟨rfl, rfl⟩, by decide +kernel, rfl, rfl, rfl⟩

/-- The machine whose device 0 of class W4 collapses, with a FIFO bank. -/
def collapsing : State :=
  let s := (deviceIn 2 true).setReg (vdOff 0 0) (BitVec.ofNat 64 (2 ^ 63 + 2 * 2 ^ 32 + 3 * 2 ^ 40 + 1))
  s.setBank ⟨0, 31, .fifo, 0, [5], false⟩

theorem witness_PowerAndLullEvents_collapse :
    collapsing.vdExists 0 = true ∧ collapsing.collapsed 0 = true ∧ collapsing.memWf = true ∧ collapsing.partAsleep 0 = true ∧
    2 ≤ collapsing.vdClass 0 ∧ (deviceIn 2 true).vdClass 0 < 2 ∧ (collapsing.bank 0 31).mode = .fifo ∧ (collapsing.bank 0 31).owner = 0 ∧
    collapsing.bank 0 31 ∈ collapsing.ms.banks ∧ (collapsing.ms.banks.map fun b => (b.core, b.num)).Nodup := by decide +kernel

theorem witness_PowerAndLullEvents_energy :
    (let used := [(0, 0, 5), (0, 4, 3), (1, 0, 2)]
     let s : State := { home with power := { home.power with cycles := used, lines := used } }
     let here := used.filter fun x => x.1 == 0
     s.launch? 0 = some (placedLaunch 0) ∧ s.power.cycles = used ∧ s.power.lines = used ∧ (here.map fun x => x.2.1).Nodup ∧
       (0, 0, 5) ∈ used) ∧
    (deviceIn 3 false).vdState 0 = 3 ∧
    (let r : Ramp := ⟨0, 3, 0, 0, 9000⟩
     let s : State := { home with tick := 10000, power := { home.power with ramps := [r] } }
     s.ramp? 0 = some r ∧ 0 < r.level ∧ r.level < 8 ∧ s.tick < max r.lastIssue r.asked + 1250 ∧ r.lastMove + s.rampInterval / 8 ≤ s.tick ∧
       max r.lastMove (9000 + 1250) + s.rampInterval / 8 ≤ 20250) := by decide +kernel

/-- A machine in hand-over whose state block is all zeros, with an image that takes versions from lo. -/
def blockHome (lo : Nat) : State :=
  { home with penen := { home.penen with handover := some 0, image0 := some ⟨1, lo, 9, []⟩ } }

/-- A wrong version makes the block wrong; a right one is good when Config gives its bytes the digest in its head. -/
theorem witness_MailboxEvents_block :
    (blockHome 1).masterRuns 0 = true ∧ (blockHome 1).penen.handover ≠ none ∧ (blockHome 1).blockGood = false ∧
    (Config.sm3 [] = List.replicate 32 0 → (blockHome 0).blockGood = true) := by
  refine ⟨by decide +kernel, by decide, by decide +kernel, fun h => ?_⟩
  have h1 : (blockHome 0).pocRead ((blockHome 0).regField 0xA0004010 49 16 * 65536) 64 = List.replicate 64 0 := by decide +kernel
  unfold State.blockGood
  show (decide _ && (Config.sm3 _ == _)) = true
  rw [h1]
  have h2 : ∀ a, (blockHome 0).pocRead a (field (List.replicate 64 0) 4 4 - 64) = [] := fun a => by
    rw [show field (List.replicate 64 0) 4 4 - 64 = 0 by decide]
    rfl
  rw [h2, h]
  decide

/-! ## Decoding: a word of every encoded row, its operand fields all different -/

/-- No modifiers. -/
def m : Mods := Mods.empty

/-- A word decodes to an instruction. -/
abbrev decodes (l : List (Nat × Instr)) : Prop := ∀ e ∈ l, decodeTableWord 32 e.1 = some e.2

theorem test_decode_integer_1 : decodes [
 (0x04820600, .add m 16 32 48), (0x04820601, .sub m 16 32 48), (0x04820602, .mul m 16 32 48),
    (0x04820603, .mulhs m 16 32 48), (0x04820604, .mulhu m 16 32 48), (0x04820605, .mins m 16 32 48),
    (0x04820606, .minu m 16 32 48), (0x04820607, .maxs m 16 32 48), (0x04820608, .maxu m 16 32 48),
    (0x04820609, .and m 16 32 48), (0x0482060A, .or m 16 32 48), (0x0482060B, .xor m 16 32 48),
    (0x0482060C, .andn m 16 32 48), (0x0482060D, .shl m 16 32 48), (0x0482060E, .shr m 16 32 48),
    (0x0482060F, .sar m 16 32 48), (0x04820610, .rol m 16 32 48), (0x04820611, .ror m 16 32 48),
    (0x04820012, .clz m 16 32), (0x04820013, .ffs m 16 32), (0x04820014, .popc m 16 32), (0x04820015, .brev m 16 32),
    (0x04820016, .abs m 16 32), (0x04820017, .neg m 16 32), (0x04820618, .addus m 16 32 48),
    (0x04820619, .subus m 16 32 48), (0x0482061A, .mulws m 16 32 48), (0x0482061B, .mulwu m 16 32 48),
    (0x08820600, .addX2 m 16 32 48), (0x08820601, .subX2 m 16 32 48), (0x08820602, .mulX2 m 16 32 48),
    (0x08820603, .mulhsX2 m 16 32 48), (0x08820604, .mulhuX2 m 16 32 48), (0x08820605, .minsX2 m 16 32 48),
    (0x08820606, .minuX2 m 16 32 48), (0x08820607, .maxsX2 m 16 32 48), (0x08820608, .maxuX2 m 16 32 48),
    (0x08820609, .andX2 m 16 32 48), (0x0882060A, .orX2 m 16 32 48), (0x0882060B, .xorX2 m 16 32 48),
    (0x0882060C, .andnX2 m 16 32 48), (0x0882060D, .shlX2 m 16 32 48), (0x0882060E, .shrX2 m 16 32 48),
    (0x0882060F, .sarX2 m 16 32 48), (0x08820610, .rolX2 m 16 32 48), (0x08820611, .rorX2 m 16 32 48),
    (0x08820012, .clzX2 m 16 32), (0x08820013, .ffsX2 m 16 32)] := by decide +kernel

theorem test_decode_integer_2 : decodes [
 (0x08820014, .popcX2 m 16 32), (0x08820015, .brevX2 m 16 32), (0x08820016, .absX2 m 16 32),
    (0x08820017, .negX2 m 16 32), (0x08820618, .addusX2 m 16 32 48), (0x08820619, .subusX2 m 16 32 48),
    (0x0C820600, .addX4 m 16 32 48), (0x0C820601, .subX4 m 16 32 48), (0x0C820602, .mulX4 m 16 32 48),
    (0x0C820603, .mulhsX4 m 16 32 48), (0x0C820604, .mulhuX4 m 16 32 48), (0x0C820605, .minsX4 m 16 32 48),
    (0x0C820606, .minuX4 m 16 32 48), (0x0C820607, .maxsX4 m 16 32 48), (0x0C820608, .maxuX4 m 16 32 48),
    (0x0C820609, .andX4 m 16 32 48), (0x0C82060A, .orX4 m 16 32 48), (0x0C82060B, .xorX4 m 16 32 48),
    (0x0C82060C, .andnX4 m 16 32 48), (0x0C82060D, .shlX4 m 16 32 48), (0x0C82060E, .shrX4 m 16 32 48),
    (0x0C82060F, .sarX4 m 16 32 48), (0x0C820610, .rolX4 m 16 32 48), (0x0C820611, .rorX4 m 16 32 48),
    (0x0C820012, .clzX4 m 16 32), (0x0C820013, .ffsX4 m 16 32), (0x0C820014, .popcX4 m 16 32),
    (0x0C820015, .brevX4 m 16 32), (0x0C820016, .absX4 m 16 32), (0x0C820017, .negX4 m 16 32),
    (0x0C820618, .addusX4 m 16 32 48), (0x0C820619, .subusX4 m 16 32 48), (0x10820600, .add64 m 16 32 48),
    (0x10820601, .sub64 m 16 32 48), (0x10820602, .mul64 m 16 32 48), (0x10820603, .mulhs64 m 16 32 48),
    (0x10820604, .mulhu64 m 16 32 48), (0x10820605, .mins64 m 16 32 48), (0x10820606, .minu64 m 16 32 48),
    (0x10820607, .maxs64 m 16 32 48), (0x10820608, .maxu64 m 16 32 48), (0x10820609, .and64 m 16 32 48),
    (0x1082060A, .or64 m 16 32 48), (0x1082060B, .xor64 m 16 32 48), (0x1082060C, .andn64 m 16 32 48),
    (0x1082060D, .shl64 m 16 32 48), (0x1082060E, .shr64 m 16 32 48), (0x1082060F, .sar64 m 16 32 48)] := by decide +kernel

theorem test_decode_integer_3 : decodes [
 (0x10820610, .rol64 m 16 32 48), (0x10820611, .ror64 m 16 32 48), (0x10820012, .clz64 m 16 32),
    (0x10820013, .ffs64 m 16 32), (0x10820014, .popc64 m 16 32), (0x10820015, .brev64 m 16 32),
    (0x10820016, .abs64 m 16 32), (0x10820017, .neg64 m 16 32), (0x10820618, .addus64 m 16 32 48),
    (0x10820619, .subus64 m 16 32 48), (0x14820003, .addi m 16 32 3), (0x14820203, .muli m 16 32 3),
    (0x14820403, .andi m 16 32 3), (0x14820603, .ori m 16 32 3), (0x14820803, .xori m 16 32 3),
    (0x14820A03, .shli m 16 32 3), (0x14820C03, .shri m 16 32 3), (0x14820E03, .sari m 16 32 3),
    (0x18820003, .addi64 m 16 32 3), (0x18820203, .muli64 m 16 32 3), (0x18820403, .andi64 m 16 32 3),
    (0x18820603, .ori64 m 16 32 3), (0x18820803, .xori64 m 16 32 3), (0x18820A03, .shli64 m 16 32 3),
    (0x18820C03, .shri64 m 16 32 3), (0x18820E03, .sari64 m 16 32 3), (0x1C820194, .bfez m 16 32 3 5),
    (0x1C820195, .bfes m 16 32 3 5), (0x1C820196, .bfi m 16 32 3 5), (0x20800003, .movi m 16 3),
    (0x20800203, .movdi m 16 3), (0x20820403, .leai m 16 32 3), (0x20820600, .mov m 16 32),
    (0x20820800, .movd m 16 32), (0x20820A00, .movq m 16 32), (0x24820603, .leas m 16 32 48 3),
    (0x24820607, .leaz m 16 32 48 3), (0x28820600, .mad m 16 32 48), (0x28820601, .madws m 16 32 48),
    (0x28820602, .madwu m 16 32 48), (0x28820603, .dp4s m 16 32 48), (0x28820604, .dp4u m 16 32 48),
    (0x319040A4, .cmp m 3 16 32 .ge .u32), (0x35905402, .cmpImm m 3 16 .ge .u32 2),
    (0x3882060F, .sel m 16 32 48 3 true true), (0x3DDA8000, .pand m 3 5 true 2 true),
    (0x3DDA9000, .por m 3 5 true 2 true), (0x3DDAA000, .pxor m 3 5 true 2 true)] := by decide +kernel

theorem test_decode_integer_4 : decodes [
 (0x3C003200, .p2g m 16), (0x3C004200, .g2p m 16)] := by decide +kernel

theorem test_decode_control : decodes [
 (0x41C00001, .bra m 3 true 1), (0x41C80001, .call m 3 true 1), (0x44900005, .loop m true 16 5),
    (0x45800000, .lbrk m true), (0x49C10000, .jmp m 3 true 16), (0x49C90000, .calli m 3 true 16),
    (0x49D00000, .ret m 3 true), (0x4DC00000, .join m 3 true), (0x4DC80000, .yield m 3 true),
    (0x4DD00001, .sleep m 3 true 1), (0x4DD80000, .exit m 3 true), (0x50104003, .beq m 16 32 3),
    (0x50904003, .bne m 16 32 3), (0x51104003, .blt m 16 32 3), (0x51904003, .bge m 16 32 3),
    (0x52104003, .bltu m 16 32 3), (0x52904003, .bgeu m 16 32 3)] := by decide +kernel

theorem test_decode_float : decodes [
 (0x60820600, .fadd m 16 32 48), (0x60820601, .fsub m 16 32 48), (0x60820602, .fmul m 16 32 48),
    (0x60820603, .fma m 16 32 48), (0x60820604, .fmin m 16 32 48), (0x60820605, .fmax m 16 32 48),
    (0x60820606, .fminnum m 16 32 48), (0x60820607, .fmaxnum m 16 32 48), (0x60820008, .fabs m 16 32),
    (0x60820009, .fneg m 16 32), (0x6082000A, .fclass m 16 32), (0x6082060B, .fcopysign m 16 32 48),
    (0x6082060C, .fscale m 16 32 48), (0x64820610, .faddX2 m 16 32 48 .bf16), (0x64820611, .fsubX2 m 16 32 48 .bf16),
    (0x64820612, .fmulX2 m 16 32 48 .bf16), (0x64820613, .fmaX2 m 16 32 48 .bf16),
    (0x64820614, .fminX2 m 16 32 48 .bf16), (0x64820615, .fmaxX2 m 16 32 48 .bf16),
    (0x64820016, .fabsX2 m 16 32 .bf16), (0x64820017, .fnegX2 m 16 32 .bf16), (0x64820618, .dot2 m 16 32 48 .bf16),
    (0x68820000, .rcp m 16 32), (0x68820001, .rsq m 16 32), (0x68820002, .sqrt m 16 32), (0x68820003, .ex2 m 16 32),
    (0x68820004, .lg2 m 16 32), (0x68820005, .sin m 16 32), (0x68820006, .cos m 16 32), (0x68820007, .tanh m 16 32),
    (0x68820608, .div m 16 32 48), (0x80820356, .cvt m 16 32 .e4m3 .s8 1 2), (0x84820600, .qc4 m 16 32 48),
    (0x84820601, .dqc4 m 16 32 48)] := by decide +kernel

theorem test_decode_group : decodes [
 (0x88820600, .rand m 16 32 48), (0x88820601, .randf m 16 32 48), (0x90820E12, .xlane m 16 32 .mirror true 1 2),
    (0x94018A01, .agreeAll m ⟨1, true⟩ 5 1), (0x94018A41, .agreeSome m ⟨1, true⟩ 5 1),
    (0x94018A81, .agreeSame m ⟨1, true⟩ 5 1), (0x948180C5, .agreeMask m 16 ⟨1, true⟩ 5),
    (0x94820103, .peers m 16 32 3), (0x94820745, .peersAll m 16 32 3 5), (0x94818185, .agreeCount m 16 ⟨1, true⟩ 5),
    (0x98820742, .gred m 16 32 3 .and false 2), (0x9C820742, .gscan m 16 32 3 .and false 2),
    (0x9C820752, .gscanx m 16 32 3 .and false 2)] := by decide +kernel

theorem test_decode_matrix : decodes [
 (0xA0CA1167, .mma m 3 5 1 2 .e5m2 3 true), (0xA4CA116A, .mmaPart m 3 5 1 2 .e5m2 true 5),
    (0xA8CA1126, .mmaC4 m 3 5 1 2 true 3), (0xACD42240, .scacc m 3 5 1 2 4), (0xACD40011, .accmov m 3 5 1),
    (0xACC00052, .acczero m 3 5), (0xACD40013, .accadd m 3 5 1)] := by decide +kernel

theorem test_decode_memory : decodes [
 (0xB0820EB0, .ld m 16 32 .pv .s8 48), (0xB4820CB0, .st m 16 32 .pv .b16 48),
    (0xB8820E90, .ldAcq m 16 32 .pv .s8 .team), (0xB8820C98, .stRel m 16 32 .pv .b16 .team),
    (0xBC8200C5, .ldfe m 16 32 .b64 5), (0xBC8202C5, .ldfec m 16 32 .b64 5), (0xBC8204C5, .stfull m 16 32 .b64 5),
    (0xBC8006C5, .ldfifo m 16 .b64 5), (0xBC8008C5, .stfifo m 16 .b64 5), (0xC0010003, .pfL1 m 16 3),
    (0xC0810003, .pfMsc m 16 3), (0xC1310005, .wb m .dev 16 5), (0xC1B10005, .inv m .dev 16 5),
    (0xC2310005, .wbinv m .dev 16 5), (0xC88203AB, .atom m 16 32 .maxs true .sc .clu .ar),
    (0xCC8203A8, .red m 16 32 .maxs true .sc .clu .rlx)] := by decide +kernel

theorem test_decode_sync : decodes [
 (0xD1800000, .fence m .dev), (0xD1900000, .fenceAcq m .dev), (0xD1A00000, .fenceRel m .dev),
    (0xD1B00000, .tlfence m .dev), (0xD4C40005, .barInitImm m 3 5), (0xD4C08000, .barInitReg m 3 16),
    (0xD4C80000, .barArr m 3), (0xD4D00000, .barWait m 3), (0xD4D80000, .barSync m 3),
    (0xD4E40005, .cvdeclImm m 3 5), (0xD4E08000, .cvdeclReg m 3 16), (0xD4E80000, .cvsync m 3),
    (0xD4F00005, .elect m 3 5), (0xD4F80000, .release m 3), (0xD8820601, .ldvMin m 16 32 48 .b64),
    (0xD8820605, .ldvAt m 16 32 48 .b64), (0xD8820608, .vpin m 16 32 48), (0xD801000C, .vunpin m 16)] := by decide +kernel

theorem test_decode_system : decodes [
 (0xDC100000, .stepAdv m 16), (0xDC900003, .rgnB m 16 3), (0xDD000000, .rgnE m), (0xE0000000, .tkwait m),
    (0xE0800000, .tkpass m), (0xE4800300, .tcopy m 16 3), (0xE4820020, .qput m 16 32), (0xE4820340, .coll m 16 32 3),
    (0xE4820060, .spawn m 16 32), (0xE8820600, .bin m 16 32 48), (0xE8010004, .binrel m 16),
    (0xE8820608, .carve m 16 32 48), (0xEC800060, .mfs m 16 3), (0xEC808060, .mts m 16 3), (0xEC010060, .trap m 3),
    (0xEC018000, .tret m), (0xEC018020, .tretSkip m), (0xEC820020, .enrd m 16 1), (0xEC028060, .brk m 3)] := by decide +kernel

/-! ## Hypotheses met: words and steps -/

theorem witness_EncodingAndDecodingAgree :
    (Instr.add Mods.empty 8 7 7).wellFormed = true ∧ (Instr.add Mods.empty 8 7 7).encode = [0x044070E0] ∧
    (Instr.fma { m with pre := some ⟨7, true, true, .rtz, 127, true⟩ } 127 10 11).wellFormed = true ∧
    (Instr.fma { m with pre := some ⟨7, true, true, .rtz, 127, true⟩ } 127 10 11).encode = [0xFBE7FC00, 0x63F8A163] ∧
    controlWord 0x4C180000 = true ∧ (Instr.exit m 0 false).encode = [0x4C180000] ∧ (Instr.exit m 0 false).wellFormed = true ∧
    (match decodeAt 2 0x044070E0 [5] with
     | .ok (i, n) => decide (i = .add m 8 7 7 ∧ n = 1)
     | .error _ => false) = true := by decide +kernel

theorem witness_StepRunsDecodedInstruction :
    home.isStopped = false ∧ home.cur? = some ctx ∧ home.chain ctx = .ok [0x044070E0] ∧
    (match decodeAt ctx.t.pos 0x044070E0 (List.replicate (ctx.t.wordsLeft - 1) 0) with
     | .ok (i, n) => decide (i = .add m 8 7 7 ∧ n = 1)
     | .error _ => false) = true ∧
    (match decodeAt 0 0x048FFFFF [] with
     | .ok _ => false
     | .error _ => true) = true ∧
    (home.translate 0 0 0 thr.pc.toNat ⟨.fetch, false, .s⟩ = .ok ⟨0x10004, 16, false, false, false, false⟩ ∧
      home.ms.poisoned 0x10004 4 = false ∧ isMgmt 0x10004 = false ∧ 0 < thr.wordsLeft ∧ home.ms.pastWords 0 0x10004 = [] ∧ modKind 0x044070E0 = 0) ∧
    home.issuing.members = [2] ∧
    (let s : State := { home with issuing := Issue.idle, agenda := [.kick 0 0 1] }
     s.isStopped = false ∧ s.issuing.members = [] ∧ s.agenda = [.kick 0 0 1]) ∧
    (let s : State := { serving (packetQueue 0 false) (packet [(0, 2)]) with issuing := Issue.idle }
     s.isStopped = false ∧ s.issuing.members = [] ∧ s.agenda = [] ∧ s.due = some (.nop 5)) ∧
    (home.setReg 0xA0003008 2).isStopped = true ∧ (home.setReg 0xA0003008 2).agenda = [] := by
  refine ⟨by decide +kernel, home_cur, by decide +kernel, by decide +kernel, by decide +kernel, by decide +kernel, rfl,
    ⟨by decide +kernel, rfl, rfl⟩, ⟨by decide +kernel, rfl, rfl, by decide +kernel⟩, by decide +kernel, rfl⟩

theorem witness_StepNeverStops :
    ∀ e ∈ ({ home with agenda := [.kick 0 0 1, .packageReset] } : State).agenda, e.enc = none ∧ ∀ r : Reject, e ≠ .illegalInsn r := by
  intro e he
  simp only [List.mem_cons, List.not_mem_nil, or_false] at he
  obtain rfl | rfl := he <;> exact ⟨rfl, fun _ h => by cases h⟩

/-- A step answers a next state. -/
def answers (r : Host.Outcome State Fault Refusal) : Bool :=
  match r with
  | .next _ => true
  | .fault _ | .refused _ => false

theorem witness_StepKeepsMemoryForm : home.memWf = true ∧ home.l1Wf ∧ answers (step home) = true :=
  ⟨home_wf.1, home_wf.2, by decide +kernel⟩

/-! ## The smoke test of well-formedness -/

/-- A vector prefix before EXIT, and a wide immediate before ADD. -/
theorem test_chain_refused :
    (Instr.exit { m with pre := some ⟨0, false, false, .rne, 0, false⟩ } 0 false).chainOk = false ∧
    (Instr.add { m with wide := some 0 } 8 7 7).chainOk = false ∧
    (Instr.exit { m with pre := some ⟨0, false, false, .rne, 0, false⟩ } 0 false).wellFormed = false := by decide +kernel

/-- A 64-bit operand in an odd register. -/
theorem test_block_refused :
    (Instr.add64 m 16 31 48).blocksOk = false ∧ (Instr.add64 m 16 31 48).wellFormed = false ∧
    (Instr.qput m 126 120).blocksOk = false ∧ (Instr.qput m 126 112).blocksOk = true := by decide +kernel

/-- A store that would extend its operand, and a wide format in a half-format conversion. -/
theorem test_combination_refused :
    (Instr.st m 16 32 .gl .s8 0).legal = false ∧ (Instr.st m 16 32 .gl .s8 0).wellFormed = false ∧
    (Instr.st m 16 32 .gl .b8 0).wellFormed = true := by decide +kernel

/-- Words that are no instruction: an unassigned major, a reserved field, a chain that ends without an instruction,
two prefixes, a wide immediate before ADD, and a control word that is not last. -/
theorem test_rejected :
    decodeTableWord 32 0 = none ∧ decodeTableWord 32 0x04820812 = none ∧ decodeTableWord 32 0xF8000000 = none ∧
    decodeTableWord 64 0x044070E0FC000001 = none ∧
    (match decodeAt 1 0x4C180000 [0x044070E0] with
     | .ok _ => none
     | .error r => some r) = some ⟨true, 4, 1, 0x4C180000⟩ ∧
    (match decodeAt 0 0xF8000000 [0xF8000000, 0x044070E0] with
     | .ok _ => none
     | .error r => some r) = some ⟨true, 1, 1, 0xF8000000⟩ := by decide +kernel

/-! ## Single steps -/

/-- The registers that a lane-class instruction of the thread is to write. -/
def laneOut (i : Instr) (l : List (Nat × Word)) : List (Nat × Word) :=
  match exec i (at' (thr.puts l)) with
  | .next s => ((s.thread? 2).map fun t => t.pend.flatMap fun p => p.regs).getD []
  | .fault _ | .refused _ => []

/-- Signed saturation, by a vector prefix. -/
def sat : Mods := { m with pre := some ⟨0, false, false, .fpcsr, 0, true⟩ }

/-- Byte counts by hand: of 0x00, 0x80, 0x01 and 0x00. -/
theorem test_byte_counts :
    laneOut (.clzX4 m 8 7) [(7, 0x00800100)] = [(8, 0x08000708)] ∧ laneOut (.ffsX4 m 8 7) [(7, 0x00800100)] = [(8, 0xFF0700FF)] ∧
    laneOut (.popcX4 m 8 7) [(7, 0x00800100)] = [(8, 0x00010100)] := by decide +kernel

/-- A halfword sum that wraps, and one that saturates. -/
theorem test_halfword_sums :
    laneOut (.addX2 m 8 7 6) [(7, 0x7FFF8000), (6, 0x0001FFFF)] = [(8, 0x80007FFF)] ∧
    laneOut (.addX2 sat 8 7 6) [(7, 0x7FFF8000), (6, 0x0001FFFF)] = [(8, 0x7FFF8000)] := by decide +kernel

/-- R124's order of operands where the destination is a source. -/
theorem test_sub_in_place : laneOut (.sub m 7 6 7) [(7, 1), (6, 0)] = [(7, 0xFFFFFFFF)] := by decide +kernel

/-- 1.0 + 2^-24 ties to even, and is rounded up when the prefix says so. -/
theorem test_fadd_rounds :
    laneOut (.fadd m 8 7 6) [(7, 0x3F800000), (6, 0x33800000)] = [(8, 0x3F800000)] ∧
    laneOut (.fadd { m with pre := some ⟨0, false, false, .rup, 0, false⟩ } 8 7 6) [(7, 0x3F800000), (6, 0x33800000)] =
      [(8, 0x3F800001)] := by decide +kernel

/-- 300 as an FP8 number of format E4M3 is 288. -/
theorem test_cvt_e4m3 : laneOut (.cvt m 8 7 .e4m3 .f32 0 0) [(7, 0x43960000)] = [(8, 0x79)] := by decide +kernel

/-- The words that the spec writes out run as the first instruction after reset. -/
theorem test_runs_after_reset :
    ∀ w ∈ [0x044070E0, 0xB0A04110, 0xD0A00000, 0xEC0100A0, 0x4C180000], answers (step (State.reset.withFetchWord 32 w)) = true := by
  decide +kernel

/-- A word that is replaced may still be fetched by a launch placed before (R56), and not by one placed after. -/
theorem test_fetch_past :
    (home.pocWrite 0x10004 (toBytes 4 5)).ms.pastWords 0 0x10004 = [0x044070E0] ∧
    (home.pocWrite 0x10004 (toBytes 4 5)).ms.pastWords 1 0x10004 = [] ∧
    (home.pocWrite 0x10004 (toBytes 4 5)).fetched 1 0x10004 = 5 := by decide +kernel

end Sys2Proof.Tests
end

section
/-! Compares, selects and predicate forms (R109, R111, R123 to R126): the model's relation and
floating-point compare against the order of the operands, what each form does when it meets its operands, the
predicates as a byte, and O5 from them. -/

namespace Sys2Proof.Machine

/-! ## The conditions of a compare -/

/-- The model's relation on exact values asks for nothing but their order (R124). -/
theorem relation_eq_holds (cd : Cond) (x y : Int) : relation cd x y = Claim.holds cd (some (compare x y)) := by
  cases ho : compare x y with
  | lt =>
    have hlt : x < y := compare_lt_iff_lt.1 ho
    cases cd <;> simp [relation, Claim.holds] <;> omega
  | eq =>
    obtain rfl : x = y := compare_eq_iff_eq.1 ho
    cases cd <;> simp [relation, Claim.holds]
  | gt =>
    have hgt : y < x := compare_gt_iff_gt.1 ho
    cases cd <;> simp [relation, Claim.holds] <;> omega

/-- The order of two floating-point operands; none when one of them is a NaN. -/
def fltOrder (x y : FVal) : Option Ordering := if x.isNan || y.isNan then none else some (compare x.key y.key)

/-- The NV condition of R109: a signalling NaN, or unordered operands under LT, LE, GT or GE. -/
def cmpInvalid (cd : Cond) (x y : FVal) : Bool :=
  x.isSnan || y.isSnan || ((fltOrder x y).isNone && (cd == .lt || cd == .le || cd == .gt || cd == .ge))

/-- The conditions at codes 0x2 to 0x5 are LT, LE, GT and GE. -/
theorem condSignalling_eq (cd : Cond) : condSignalling cd = (cd == .lt || cd == .le || cd == .gt || cd == .ge) := by
  cases cd <;> rfl

/-- A floating-point compare gives the condition on the order of its operands, and NV by R109. -/
theorem fltCompare_eq (cd : Cond) (x y : FVal) :
    fltCompare cd x y = (Claim.holds cd (fltOrder x y), FFlags.invalid (cmpInvalid cd x y)) := by
  unfold fltCompare cmpInvalid fltOrder
  rw [← condSignalling_eq]
  cases x.isNan || y.isNan with
  | true => cases cd <;> rfl
  | false => cases cd <;> simp [relation_eq_holds, Claim.holds]

/-- NV alone traps just when its enable is set (R111). -/
theorem fpTrap_invalid (w : Word) (b : Bool) :
    fpTrap w (FFlags.invalid b) = if b && w.getLsbD 6 then some .fpInvalid else none := by
  simp [fpTrap, FFlags.invalid, FFlags.clear]

/-! ## CMP and CMP_IMM -/

section
variable {s : State} {c : Ctx} {m : Mods} (p : Pred)

/-- An instruction that meets its operands and writes one predicate, without a flag. -/
theorem lane_ofPred {reads : List Blk} (h : s.Ready c m [] reads) (v : Bool) :
    s.lane c m [] [p] reads (LaneResult.ofPred p v) = s.laneDone c m (LaneResult.ofPred p v) :=
  lane_ready h [p] (fpTrap_clear _)

/-- CMP on integers (R124). -/
theorem exec_cmp_int (a b : Reg) (cd : Cond) {ty : CmpType} (hty : ty.float = false)
    (h : s.Ready c m [] [ty.blk a, ty.blk b]) :
    exec (.cmp m p a b cd ty) s = .next (s.laneDone c m (LaneResult.ofPred p
      (relation cd (s.intOperand c.t (cmpInt ty) a) (s.intOperand c.t (cmpInt ty) b)))) := by
  refine (run_cur h.cur _).trans ?_
  rw [hty]
  exact congrArg _ (lane_ofPred p h _)

/-- CMP_IMM (R124). -/
theorem exec_cmpImm (a : Reg) (cd : Cond) (ty : IntType) (k : BitVec 10) (h : s.Ready c m [] [ty.blk a]) :
    exec (.cmpImm m p a cd ty k) s = .next (s.laneDone c m (LaneResult.ofPred p
      (relation cd (s.intOperand c.t ty a) (intImmediate ty m k)))) :=
  (run_cur h.cur _).trans (congrArg _ (lane_ofPred p h _))

/-- A lane-class instruction that can raise NV alone: the NV trap with the flag in XINFO when NV is enabled, else its
predicate with the flag (R110, R111). -/
theorem lane_invalid {reads : List Blk} (h : s.Ready c m [] reads) (v nv : Bool) :
    s.lane c m [] [p] reads ⟨[], [(p, v)], FFlags.invalid nv, false⟩ =
      if nv && (s.csr c.t).getLsbD 6 then s.deliver c.t .fpInvalid 1
      else s.laneDone c m ⟨[], [(p, v)], FFlags.invalid nv, false⟩ := by
  have hf := fpTrap_invalid (s.csr c.t) nv
  by_cases ht : (nv && (s.csr c.t).getLsbD 6) = true
  · rw [if_pos ht] at hf ⊢
    obtain rfl : nv = true := (Bool.and_eq_true_iff.1 ht).1
    exact lane_traps h [p] hf
  · rw [if_neg ht] at hf ⊢
    exact lane_ready h [p] hf

/-- CMP on floating-point values (R109, R124). -/
theorem exec_cmp_float (a b : Reg) (cd : Cond) {ty : CmpType} (hty : ty.float = true)
    (h : s.Ready c m [] [ty.blk a, ty.blk b]) :
    exec (.cmp m p a b cd ty) s =
      let nv := cmpInvalid cd (s.fltOperand c.t ty a) (s.fltOperand c.t ty b)
      if nv && (s.csr c.t).getLsbD 6 then .next (s.deliver c.t .fpInvalid 1)
      else .next (s.laneDone c m ⟨[], [(p, Claim.holds cd (fltOrder (s.fltOperand c.t ty a) (s.fltOperand c.t ty b)))],
        FFlags.invalid nv, false⟩) := by
  refine (run_cur h.cur _).trans ?_
  rw [hty, if_pos rfl, fltCompare_eq, lane_invalid p h]
  exact apply_ite _ _ _ _

end

/-! ## SEL and the predicate forms -/

section
variable {s : State} {c : Ctx} {m : Mods}

/-- A form that meets its operands and writes registers alone, without a flag. -/
theorem lane_ofRegs {dst reads : List Blk} (h : s.Ready c m dst reads) (l : List (Nat × Word)) :
    s.lane c m dst [] reads (LaneResult.ofRegs l) = s.laneDone c m (LaneResult.ofRegs l) :=
  lane_ready h [] (fpTrap_clear _)

/-- SEL of registers (R125). -/
theorem exec_sel_one (ps : Pred) (n : Bool) (d a b : Reg) (h : s.Ready c m [one d] [one a, one b]) :
    exec (.sel m d a b ps n false) s =
      wrote s c m [(d.val, if s.pred c.t ps != n then s.reg32 c.t a else s.reg32 c.t b)] := by
  rw [← apply_ite (s.reg32 c.t)]
  exact (run_cur h.cur _).trans (congrArg _ (lane_ofRegs h _))

/-- SEL of pairs (R125). -/
theorem exec_sel_pair (ps : Pred) (n : Bool) (d a b : Reg) (h : s.Ready c m [pair d] [pair a, pair b]) :
    exec (.sel m d a b ps n true) s =
      wrote s c m (pairWrites d (if s.pred c.t ps != n then s.reg64 c.t a else s.reg64 c.t b)) := by
  rw [← apply_ite (s.reg64 c.t)]
  exact (run_cur h.cur _).trans (congrArg _ (lane_ofRegs h _))

/-- PAND, POR and PXOR (R126). -/
theorem predLogic_ready (p pa pb : Pred) (na nb : Bool) (f : Bool → Bool → Bool) (h : s.Ready c m [] []) :
    s.predLogic m p pa na pb nb f =
      .next (s.laneDone c m (LaneResult.ofPred p (f (s.pred c.t pa ^^ na) (s.pred c.t pb ^^ nb)))) :=
  (run_cur h.cur _).trans (congrArg _ (lane_ofPred p h _))

/-- P2G writes the byte of the predicates (R126). -/
theorem exec_p2g (d : Reg) (h : s.Ready c m [one d] []) :
    exec (.p2g m d) s = wrote s c m [(d.val, (s.predByte c.t).setWidth 32)] :=
  (run_cur h.cur _).trans (congrArg _ (int32_ready (srcs := []) h _))

/-- G2P writes p1 to p7 from the bits of the register (R126). -/
theorem exec_g2p (d : Reg) (h : s.Ready c m [] [one d]) :
    exec (.g2p m d) s = .next (s.laneDone c m
      ⟨[], upperPreds.map fun q => (q, (s.reg32 c.t d).getLsbD q.val), FFlags.clear, false⟩) :=
  (run_cur h.cur _).trans (congrArg _ (lane_ready h upperPreds (fpTrap_clear _)))

end

/-! ## The byte of the predicates -/

/-- A 1 shifted to one place stands at that place alone. -/
theorem getLsbD_one_shiftLeft (p q : Fin 8) : (1#8 <<< p.val).getLsbD q.val = decide (q = p) := by
  rw [← BitVec.twoPow_eq, BitVec.getLsbD_twoPow]
  simp [p.isLt, Fin.ext_iff, eq_comm]

/-- Setting the bits of a list of places that satisfy a test: a bit is set when it was, or when its place is such a
one. -/
theorem getLsbD_foldl_setBits (f : Fin 8 → Bool) (l : List (Fin 8)) (v : BitVec 8) (q : Fin 8) :
    (l.foldl (fun v (p : Fin 8) => if f p then v ||| (1#8 <<< p.val) else v) v).getLsbD q.val =
      (v.getLsbD q.val || (decide (q ∈ l) && f q)) := by
  induction l generalizing v with
  | nil => simp
  | cons p l ih =>
    have hstep : (if f p then v ||| (1#8 <<< p.val) else v).getLsbD q.val =
        (v.getLsbD q.val || (f p && decide (q = p))) := by
      cases f p with
      | true => rw [if_pos rfl, BitVec.getLsbD_or, getLsbD_one_shiftLeft, Bool.true_and]
      | false => simp
    rw [List.foldl_cons, ih, hstep]
    by_cases hqp : q = p
    · subst hqp
      cases f q <;> simp
    · simp [hqp]

/-- A bit of the byte of the predicates is the predicate of its number. -/
theorem getLsbD_predByte (s : State) (t : Thread) (q : Fin 8) : (s.predByte t).getLsbD q.val = s.pred t q := by
  rw [State.predByte, getLsbD_foldl_setBits]
  simp

/-- p0 reads true (R18). -/
@[simp] theorem pred_zero (s : State) (t : Thread) : s.pred t 0 = true := by
  simp [State.pred, Thread.rdPred]

/-- A bit of what P2G writes: a predicate, or 0 above the eighth. -/
theorem getLsbD_predByte_setWidth (s : State) (t : Thread) (k : Nat) (hk : k < 32) :
    ((s.predByte t).setWidth 32).getLsbD k = if h : k < 8 then s.pred t ⟨k, h⟩ else false := by
  rw [BitVec.getLsbD_setWidth, decide_eq_true hk, Bool.true_and]
  split
  next h => exact getLsbD_predByte s t ⟨k, h⟩
  next h => exact BitVec.getLsbD_of_ge _ _ (Nat.le_of_not_lt h)

/-! ## O5 -/

/-- Settles O5: every form completes with what its operands give, a compare by the order of its operands. -/
theorem compareAndSelectForms : Obligations.CompareAndSelectForms := by
  unfold Obligations.CompareAndSelectForms
  refine ⟨fun s c m p a b cd k => ⟨fun ty hty h => ?_, fun ty h => ?_, fun ty hty h => exec_cmp_float p a b cd hty h⟩,
    fun s c m p pa pb na nb d a b => ⟨exec_sel_one pa na d a b, fun h => ⟨_, rfl, exec_sel_pair pa na d a b h⟩,
      fun h i f hi => ?_, fun h => ⟨_, exec_p2g d h, ?_, getLsbD_predByte_setWidth s c.t⟩, exec_g2p d⟩⟩
  · rw [exec_cmp_int p a b cd hty h, relation_eq_holds]
  · rw [exec_cmpImm p a cd ty k h, relation_eq_holds]
  · simp only [List.mem_cons, Prod.mk.injEq, List.not_mem_nil, or_false] at hi
    obtain ⟨rfl, rfl⟩ | ⟨rfl, rfl⟩ | ⟨rfl, rfl⟩ := hi
    · exact predLogic_ready p pa pb na nb and h
    · exact predLogic_ready p pa pb na nb or h
    · exact predLogic_ready p pa pb na nb Bool.xor h
  · exact (getLsbD_predByte_setWidth s c.t 0 (by decide)).trans (pred_zero s c.t)

end Sys2Proof.Machine
end

section
/-! Immediate, bit-field, move and address forms (R118 to R121): what a form that writes a register, a pair or a
quad does when it meets its operands, the model's bit fields as bit vectors, and O3 from them. -/

namespace Sys2Proof.Machine

/-! ## Forms that write a register or a pair -/

section
variable {s : State} {c : Ctx} {m : Mods} {d : Reg}

/-- A meaning that writes one register completes with its value for the executing thread. -/
theorem run_int32 {srcs : List Reg} (h : s.Ready c m [one d] (srcs.map one)) (v : Ctx → Word) :
    (s.run fun x => s.int32 x m d srcs (v x)) = wrote s c m [(d.val, v c)] :=
  (run_cur h.cur _).trans (congrArg _ (int32_ready h _))

/-- A meaning that writes one pair completes with its value for the executing thread. -/
theorem run_int64 {srcs : List Reg} (h : s.Ready c m [pair d] (srcs.map pair)) (v : Ctx → DWord) :
    (s.run fun x => s.int64 x m d srcs (v x)) = wrote s c m [(d.val, lo32 (v c)), (d.val + 1, hi32 (v c))] :=
  (run_cur h.cur _).trans (congrArg _ (int64_ready h _))

/-- A meaning that writes registers alone, of any blocks, completes with its values for the executing thread. -/
theorem run_lane_ofRegs {dst reads : List Blk} (h : s.Ready c m dst reads) (l : Ctx → List (Nat × Word)) :
    (s.run fun x => s.lane x m dst [] reads (LaneResult.ofRegs (l x))) = wrote s c m (l c) :=
  (run_cur h.cur _).trans (congrArg _ (lane_ofRegs h _))

end

/-! ## Bit fields -/

/-- The field of BFEZ and BFES is the effective length of bits from POS (R119). -/
theorem fieldOf_eq (x : Word) (p l : Fin 32) : fieldOf x p l = (x.extractLsb' p.val (fieldLen p l)).toNat := by
  have hlen : p.val + fieldLen p l - 1 + 1 - p.val = fieldLen p l := by
    unfold fieldLen
    omega
  rw [fieldOf, bits, hlen, BitVec.extractLsb'_toNat, Nat.shiftRight_eq_div_pow]

/-- BFES extends the sign of the field. -/
theorem fieldSigned_eq (x : Word) (p l : Fin 32) :
    fieldSigned x p l = (x.extractLsb' p.val (fieldLen p l)).signExtend 32 := by
  obtain ⟨k, hk⟩ : ∃ k, fieldLen p l = k + 1 := ⟨fieldLen p l - 1, by unfold fieldLen; omega⟩
  rw [fieldSigned, fieldOf_eq, BitVec.signExtend, BitVec.toInt_eq_toNat_cond, hk, Nat.add_sub_cancel, Nat.pow_succ',
    Int.pow_succ']
  by_cases hneg : 2 ^ k ≤ (x.extractLsb' p.val (k + 1)).toNat
  · rw [if_pos hneg, if_neg (by omega)]
    push_cast
    rfl
  · rw [if_neg hneg, if_pos (by omega)]

/-- The mask of BFI covers the effective length of bits from POS. -/
theorem getLsbD_fieldMask (n p k : Nat) (hk : k < 32) :
    (BitVec.ofNat 32 ((2 ^ n - 1) * 2 ^ p)).getLsbD k = decide (p ≤ k ∧ k < p + n) := by
  rw [BitVec.getLsbD_ofNat, Nat.testBit_mul_two_pow, Nat.testBit_two_pow_sub_one]
  rw [Bool.eq_iff_iff]
  simp only [Bool.and_eq_true, decide_eq_true_eq]
  omega

/-- A bit of what BFI writes: inside the field one of SA's low bits, else the bit that DST held. -/
theorem getLsbD_fieldInsert (d x : Word) (p l : Fin 32) (k : Nat) (hk : k < 32) :
    (fieldInsert d x p l).getLsbD k =
      if p.val ≤ k ∧ k < p.val + fieldLen p l then x.getLsbD (k - p.val) else d.getLsbD k := by
  rw [fieldInsert, BitVec.getLsbD_or, BitVec.getLsbD_and, BitVec.getLsbD_and, BitVec.getLsbD_not,
    getLsbD_fieldMask _ _ _ hk, BitVec.getLsbD_shiftLeft]
  by_cases hin : p.val ≤ k ∧ k < p.val + fieldLen p l <;> simp [hin, hk]

/-! ## Scaled indices -/

/-- LEAS scales the signed index. -/
theorem ofInt_toInt_mul_two_pow (x : Word) (n : Nat) :
    BitVec.ofInt 64 (x.toInt * 2 ^ n) = x.signExtend 64 <<< n := by
  have hpow : BitVec.ofInt 64 (2 ^ n) = BitVec.twoPow 64 n := by
    apply BitVec.eq_of_toNat_eq
    rw [BitVec.toNat_twoPow, ← BitVec.toNat_ofNat, ← BitVec.ofInt_natCast]
    push_cast
    rfl
  rw [BitVec.shiftLeft_eq_mul_twoPow, BitVec.ofInt_mul, hpow, BitVec.signExtend]

/-- LEAZ scales the unsigned index. -/
theorem ofNat_toNat_mul_two_pow (x : Word) (n : Nat) :
    BitVec.ofNat 64 (x.toNat * 2 ^ n) = x.setWidth 64 <<< n := by
  apply BitVec.eq_of_toNat_eq
  simp [Nat.shiftLeft_eq]

/-! ## The bit-field, move and address forms -/

section
variable {s : State} {c : Ctx} {m : Mods} {d a b : Reg}

/-- BFEZ (R119). -/
theorem exec_bfez (p l : Fin 32) (h : s.Ready c m [one d] [one a]) :
    exec (.bfez m d a p l) s =
      wrote s c m [(d.val, ((s.reg32 c.t a).extractLsb' p.val (fieldLen p l)).setWidth 32)] := by
  rw [← BitVec.ofNat_toNat, ← fieldOf_eq]
  exact run_int32 (srcs := [a]) h _

/-- BFES (R119). -/
theorem exec_bfes (p l : Fin 32) (h : s.Ready c m [one d] [one a]) :
    exec (.bfes m d a p l) s =
      wrote s c m [(d.val, ((s.reg32 c.t a).extractLsb' p.val (fieldLen p l)).signExtend 32)] := by
  rw [← fieldSigned_eq]
  exact run_int32 (srcs := [a]) h _

/-- BFI (R119). -/
theorem exec_bfi (p l : Fin 32) (h : s.Ready c m [one d] [one a, one d]) :
    exec (.bfi m d a p l) s = wrote s c m [(d.val, fieldInsert (s.reg32 c.t d) (s.reg32 c.t a) p l)] :=
  run_int32 (srcs := [a, d]) h _

/-- MOVQ (R120). -/
theorem exec_movq (h : s.Ready c m [quad d] [quad a]) :
    exec (.movq m d a) s =
      wrote s c m ((List.range 4).map fun j => (d.val + j, c.t.rd s.tick s.freeCount (a.val + j))) := by
  rw [← toRegs_regN]
  exact run_lane_ofRegs h _

/-- LEAS (R121). -/
theorem exec_leas (sh : Fin 4) (h : s.Ready c m [pair d] [pair a, one b]) :
    exec (.leas m d a b sh) s =
      wrote s c m (pairWrites d (s.reg64 c.t a + (s.reg32 c.t b).signExtend 64 <<< sh.val)) := by
  rw [← ofInt_toInt_mul_two_pow]
  exact run_lane_ofRegs h _

/-- LEAZ (R121). -/
theorem exec_leaz (sh : Fin 4) (h : s.Ready c m [pair d] [pair a, one b]) :
    exec (.leaz m d a b sh) s =
      wrote s c m (pairWrites d (s.reg64 c.t a + (s.reg32 c.t b).setWidth 64 <<< sh.val)) := by
  rw [← ofNat_toNat_mul_two_pow]
  exact run_lane_ofRegs h _

end

/-! ## O3 -/

/-- Settles O3: an immediate form is the element operation of its register form on the immediate, and every other form
completes with the bit-vector value of its rule. -/
theorem immediateAndMoveForms : Obligations.ImmediateAndMoveForms := by
  unfold Obligations.ImmediateAndMoveForms
  refine ⟨fun s c m d a k => ⟨fun h i v hi => ?_, fun h i v hi => ?_⟩,
    fun s c m d a p l => ⟨fun h => ⟨exec_bfez p l h, exec_bfes p l h⟩,
      fun h => ⟨_, exec_bfi p l h, getLsbD_fieldInsert _ _ p l⟩⟩,
    fun s c m d a b k sh => ⟨fun h => run_int32 (srcs := []) h _, fun h => run_int64 (srcs := []) h _,
      fun h => ⟨run_int64 (srcs := [a]) h _, run_int64 (srcs := [a]) h _⟩, fun h => run_int32 (srcs := [a]) h _,
      exec_movq, fun h => ⟨exec_leas sh h, exec_leaz sh h⟩⟩⟩
  · rw [← elAdd_eq (by decide), ← elMul_eq (by decide), ← elSar_eq] at hi
    simp only [List.mem_cons, Prod.mk.injEq, List.not_mem_nil, or_false] at hi
    obtain ⟨rfl, rfl⟩ | ⟨rfl, rfl⟩ | ⟨rfl, rfl⟩ | ⟨rfl, rfl⟩ | ⟨rfl, rfl⟩ | ⟨rfl, rfl⟩ | ⟨rfl, rfl⟩ | ⟨rfl, rfl⟩ := hi
    all_goals exact run_int32 (srcs := [a]) h _
  · rw [← elAdd_eq (by decide), ← elMul_eq (by decide), ← elSar_eq] at hi
    simp only [List.mem_cons, Prod.mk.injEq, List.not_mem_nil, or_false] at hi
    obtain ⟨rfl, rfl⟩ | ⟨rfl, rfl⟩ | ⟨rfl, rfl⟩ | ⟨rfl, rfl⟩ | ⟨rfl, rfl⟩ | ⟨rfl, rfl⟩ | ⟨rfl, rfl⟩ | ⟨rfl, rfl⟩ := hi
    all_goals exact run_int64 (srcs := [a]) h _

end Sys2Proof.Machine
end

section
/-! Branches, calls, jumps and returns (R127 to R134), and the decision to eject (R132, R343): what each shared shape
does when its guard or its operands are known, and O14 from them. -/

namespace Sys2Proof.Machine

/-! ## Ejecting threads -/

section
variable (s : State) (die id : Nat)

/-- Where an ejection puts a thread: on its way to a context, or on its way home when it has trapped (R346, R351). -/
def State.ejectPlace : Place :=
  let p := s.eddyPick die
  if s.issuing.trapped.any fun x => x.1 == id then .recallWanted p.1 p.2 else .leaving p.1 p.2 0

/-- After an ejection a look-up finds the ejected thread in its new place, and every other thread as it was. -/
theorem thread?_eject (k : Nat) : (s.eject die id).thread? k =
    (s.thread? k).map fun t => if t.id == id then { t with place := s.ejectPlace die id } else t :=
  find?_map_key Thread.id (fun t => if t.id == id then { t with place := s.ejectPlace die id } else t)
    (fun _ => by split <;> rfl) k s.threads

/-- An ejection leaves every other thread. -/
theorem thread?_eject_of_ne {k : Nat} (h : k ≠ id) : (s.eject die id).thread? k = s.thread? k := by
  rw [thread?_eject]
  cases ht : s.thread? k with
  | none => rfl
  | some t =>
    obtain rfl : t.id = k := by simpa using List.find?_some ht
    simp [h]

/-- A thread that has not trapped at the branch leaves for a context when it is ejected (R346). -/
theorem thread?_eject_self {t : Thread} (ht : s.thread? id = some t)
    (hn : (s.issuing.trapped.any fun x => x.1 == id) = false) :
    ∃ e x, (s.eject die id).thread? id = some { t with place := .leaving e x 0 } := by
  obtain rfl : t.id = id := by simpa using List.find?_some ht
  refine ⟨(s.eddyPick die).1, (s.eddyPick die).2, ?_⟩
  rw [thread?_eject, ht, State.ejectPlace, hn]
  simp

end

/-- Further ejections keep an untrapped thread that leaves on its way. -/
theorem thread?_foldl_eject_of_leaving (die : Nat) {k : Nat} (l : List Nat) (s : State) {t : Thread}
    (hn : (s.issuing.trapped.any fun x => x.1 == k) = false)
    (ht : ∃ e x, s.thread? k = some { t with place := .leaving e x 0 }) :
    ∃ e x, (l.foldl (fun s id => s.eject die id) s).thread? k = some { t with place := .leaving e x 0 } := by
  induction l generalizing s with
  | nil => exact ht
  | cons id l ih =>
    refine ih (s.eject die id) hn ?_
    obtain ⟨e, x, ht⟩ := ht
    by_cases hk : k = id
    · subst hk
      exact thread?_eject_self s die k (t := { t with place := .leaving e x 0 }) ht hn
    · exact ⟨e, x, (thread?_eject_of_ne s die id hk).trans ht⟩

/-- Every untrapped thread of a list that is ejected leaves for a context. -/
theorem thread?_foldl_eject (die : Nat) {k : Nat} (l : List Nat) (s : State) {t : Thread} (hk : k ∈ l)
    (hn : (s.issuing.trapped.any fun x => x.1 == k) = false) (ht : s.thread? k = some t) :
    ∃ e x, (l.foldl (fun s id => s.eject die id) s).thread? k = some { t with place := .leaving e x 0 } := by
  induction l generalizing s with
  | nil => cases hk
  | cons id l ih =>
    by_cases h : k = id
    · subst h
      exact thread?_foldl_eject_of_leaving die l (s.eject die k) hn (thread?_eject_self s die k ht hn)
    · exact ih (s.eject die id) ((List.mem_cons.1 hk).resolve_left h) hn ((thread?_eject_of_ne s die id h).trans ht)

/-! ## The decision -/

/-- The members of the issue group that have executed the ejectable branch. -/
def State.voters (s : State) : List Nat := s.issuing.taken ++ s.issuing.stayed

/-- The side with fewer threads, the taken one on a tie (R343). -/
def State.fewer (s : State) : List Nat :=
  if s.issuing.taken.length ≤ s.issuing.stayed.length then s.issuing.taken else s.issuing.stayed

/-- THRESH of a thread's team (R342). -/
def State.threshOf (s : State) (id : Nat) : Option Nat := (s.ctx? id).map fun x => x.tm.ejt

/-- The least THRESH among the teams of the voters. -/
def State.leastThresh (s : State) : Nat := (s.voters.filterMap s.threshOf).min?.getD 0

/-- The threads of the smaller side have voted. -/
theorem fewer_subset_voters (s : State) : s.fewer ⊆ s.voters := by
  unfold State.fewer State.voters
  split
  · exact List.subset_append_left _ _
  · exact List.subset_append_right _ _

/-- The least THRESH is at most that of any voter. -/
theorem leastThresh_le {s : State} {id e : Nat} (hid : id ∈ s.voters) (he : s.threshOf id = some e) :
    s.leastThresh ≤ e := by
  have hmem : e ∈ s.voters.filterMap s.threshOf := List.mem_filterMap.2 ⟨id, hid, he⟩
  exact List.min?_getD_le_of_mem hmem

/-- What is at most every voter's THRESH is at most the least one. -/
theorem le_leastThresh {s : State} {n : Nat} (hne : s.voters ≠ [])
    (h : ∀ id ∈ s.voters, ∃ e, s.threshOf id = some e ∧ n ≤ e) : n ≤ s.leastThresh := by
  obtain ⟨id, hid⟩ := List.exists_mem_of_ne_nil _ hne
  obtain ⟨e, he, -⟩ := h id hid
  have hmem : e ∈ s.voters.filterMap s.threshOf := List.mem_filterMap.2 ⟨id, hid, he⟩
  obtain ⟨x, hx⟩ := Option.isSome_iff_exists.1 (List.isSome_min?_of_mem hmem)
  obtain ⟨k, hk, hkx⟩ := List.mem_filterMap.1 (List.min?_mem hx)
  obtain ⟨e', he', hle⟩ := h k hk
  rw [State.leastThresh, hx]
  exact (Option.some.inj (he'.symm.trans hkx)) ▸ hle

/-- The decision to eject, by the smaller side, the least THRESH and the free contexts (R343). -/
theorem decideEject_eq (s : State) (c : Ctx) : s.decideEject c =
    if c.l.det = true ∨ ¬(0 < s.fewer.length ∧ s.fewer.length ≤ s.leastThresh) then s
    else if s.eddyFree (s.vdPart c.l.dev) (coreDie c.tm.core) < s.fewer.length then
      s.countEddy (coreDie c.tm.core) fun e => { e with short := e.short + 1 }
    else s.fewer.reverse.foldl (fun s id => s.eject (coreDie c.tm.core) id) s := by
  unfold State.decideEject
  simp only [State.fewer, State.leastThresh, State.voters, State.threshOf, Bool.or_eq_true, Bool.not_eq_true',
    decide_eq_false_iff_not]
  rfl

/-- In deterministic mode, without a smaller side, or past the THRESH of a voter's team no thread is ejected. -/
theorem decideEject_stays {s : State} {c : Ctx}
    (h : c.l.det = true ∨ s.fewer = [] ∨ ∃ id ∈ s.voters, ∃ e, s.threshOf id = some e ∧ e < s.fewer.length) :
    s.decideEject c = s := by
  rw [decideEject_eq, if_pos]
  obtain hdet | hnil | ⟨id, hid, e, he, hlt⟩ := h
  · exact .inl hdet
  · exact .inr fun hp => absurd hp.1 (by simp [hnil])
  · exact .inr fun hp => absurd (hp.2.trans (leastThresh_le hid he)) (Nat.not_le.2 hlt)

/-- A smaller side within every THRESH is ejected when it fits, and counted in SHORT when it does not. -/
theorem decideEject_of_within {s : State} {c : Ctx} (hdet : c.l.det = false) (hne : s.fewer ≠ [])
    (hle : ∀ id ∈ s.voters, ∃ e, s.threshOf id = some e ∧ s.fewer.length ≤ e) : s.decideEject c =
    if s.eddyFree (s.vdPart c.l.dev) (coreDie c.tm.core) < s.fewer.length then
      s.countEddy (coreDie c.tm.core) fun e => { e with short := e.short + 1 }
    else s.fewer.reverse.foldl (fun s id => s.eject (coreDie c.tm.core) id) s := by
  have hvoters : s.voters ≠ [] := fun h => hne (List.subset_nil.1 (h ▸ fewer_subset_voters s))
  rw [decideEject_eq, if_neg]
  rintro (h | h)
  · exact absurd (hdet.symm.trans h) Bool.false_ne_true
  · exact h ⟨List.length_pos_iff.2 hne, le_leastThresh hvoters hle⟩

/-- What R132 and R343 let an issue group's ejectable branch come to: a group in the state u, its member's vote cast,
has the outcome r for the thread c. -/
def ejectOutcome (u : State) (c : Ctx) (r : Host.Outcome State Fault Refusal) : Prop :=
  (1 < u.issuing.members.length → r = .next u) ∧
  (u.issuing.members.length ≤ 1 →
    (c.l.det = true ∨ u.fewer = [] ∨ (∃ id ∈ u.voters, ∃ e, u.threshOf id = some e ∧ e < u.fewer.length) →
      r = .next u) ∧
    (c.l.det = false → u.fewer ≠ [] → (∀ id ∈ u.voters, ∃ e, u.threshOf id = some e ∧ u.fewer.length ≤ e) →
      (u.eddyFree (u.vdPart c.l.dev) (coreDie c.tm.core) < u.fewer.length →
        r = .next (u.countEddy (coreDie c.tm.core) fun e => { e with short := e.short + 1 })) ∧
      (u.fewer.length ≤ u.eddyFree (u.vdPart c.l.dev) (coreDie c.tm.core) →
        ∃ u', r = .next u' ∧ ∀ id ∈ u.fewer, (u.issuing.trapped.any fun x => x.1 == id) = false →
          ∀ t, u.thread? id = some t → ∃ e x, u'.thread? id = some { t with place := .leaving e x 0 })))

/-- The last member decides, and the members before it do not. -/
theorem ejectOutcome_of_last (u : State) (c : Ctx) :
    ejectOutcome u c (.next (if u.issuing.members.length ≤ 1 then u.decideEject c else u)) := by
  refine ⟨fun hmore => ?_, fun hlast => ?_⟩
  · rw [if_neg (Nat.not_le.2 hmore)]
  · rw [if_pos hlast]
    refine ⟨fun hstay => by rw [decideEject_stays hstay], fun hdet hne hle => ⟨fun hshort => ?_, fun hfits => ?_⟩⟩
    · rw [decideEject_of_within hdet hne hle, if_pos hshort]
    · refine ⟨_, rfl, fun id hid htrap t ht => ?_⟩
      rw [decideEject_of_within hdet hne hle, if_neg (Nat.not_lt.2 hfits)]
      exact thread?_foldl_eject _ _ u (List.mem_reverse.2 hid) htrap ht

/-! ## Branches -/

/-- The effect of a branch on its thread (R129, R131). -/
def State.branched (s : State) (c : Ctx) (m : Mods) (taken : Bool) (target : VAddr) : State :=
  if taken then s.commit c m 2 (c.t.jump target) else s.commit c m 1 (c.t.past m.words)

/-- The vote of a member of an issue group at an ejectable branch (R132). -/
def State.voted (u : State) (id : Nat) (taken : Bool) : State :=
  { u with issuing := if taken then { u.issuing with taken := id :: u.issuing.taken }
                      else { u.issuing with stayed := id :: u.issuing.stayed } }

section
variable {s : State} {c : Ctx} {m : Mods}

/-- Without the EJECT hint, or on an Eddy core, a branch has its effect alone (R345). -/
theorem branch_of_no_hint (h : m.sub ≠ 5 ∨ c.t.place ≠ .home) (taken : Bool) (target : VAddr) :
    s.branch c m taken target = s.branched c m taken target := by
  by_cases hsub : m.sub = 5
  · have hplace : c.t.place ≠ .home := h.resolve_left (not_not_intro hsub)
    exact (if_pos hsub).trans (if_neg hplace)
  · exact if_neg hsub

/-- With the hint at home the member votes, and the last one decides (R132). -/
theorem branch_of_hint (hsub : m.sub = 5) (hplace : c.t.place = .home) (taken : Bool) (target : VAddr) :
    s.branch c m taken target =
      let u := (s.branched c m taken target).voted c.t.id taken
      if u.issuing.members.length ≤ 1 then u.decideEject c else u := by
  refine (if_pos hsub).trans ((if_pos hplace).trans ?_)
  cases taken <;> rfl

/-- An instruction that branches with the hint at home comes to what R132 and R343 let its vote come to. -/
theorem ejectOutcome_of_branch (hsub : m.sub = 5) (hplace : c.t.place = .home) {taken : Bool} {target : VAddr}
    {r : Host.Outcome State Fault Refusal} (hr : r = .next (s.branch c m taken target)) :
    ejectOutcome ((s.branched c m taken target).voted c.t.id taken) c r := by
  rw [hr, branch_of_hint hsub hplace]
  exact ejectOutcome_of_last _ c

/-- BRA (R131). -/
theorem exec_bra (hc : s.cur? = some c) (p : Pred) (n : Bool) (k : BitVec 19) :
    exec (.bra m p n k) s = .next (s.branch c m (s.pred c.t p != n) (relTarget c.t m k)) :=
  run_cur hc _

/-- The compare-and-branch forms, each with its condition on the values of its registers (R131). -/
def compareForms (m : Mods) (a b : Reg) (o : BitVec 9) (x y : Word) : List (Instr × Bool) :=
  [(.beq m a b o, x == y), (.bne m a b o, x != y), (.blt m a b o, x.slt y), (.bge m a b o, y.sle x),
    (.bltu m a b o, x.ult y), (.bgeu m a b o, y.ule x)]

/-- A compare-and-branch whose registers pass their checks branches by its condition. -/
theorem compareBranch_ready {a b : Reg} (h : s.Ready' c [one a, one b]) (o : BitVec 9) (f : Word → Word → Bool) :
    s.compareBranch m a b o f = .next (s.branch c m (f (s.reg32 c.t a) (s.reg32 c.t b)) (relTarget c.t m o)) := by
  have hpass : c.passes [one a, one b] [one a, one b] = true := by simp [Ctx.passes, h.range, h.clean]
  exact (run_cur h.cur _).trans (congrArg _ (if_pos hpass))

/-- Every compare-and-branch form is a branch by its condition. -/
theorem exec_compareForms {a b : Reg} (h : s.Ready' c [one a, one b]) (o : BitVec 9) {i : Instr} {holds : Bool}
    (hi : (i, holds) ∈ compareForms m a b o (s.reg32 c.t a) (s.reg32 c.t b)) :
    exec i s = .next (s.branch c m holds (relTarget c.t m o)) := by
  simp only [compareForms, BitVec.sle_eq_not_slt, BitVec.ule_eq_not_ult, List.mem_cons, Prod.mk.injEq, List.not_mem_nil,
    or_false] at hi
  obtain ⟨rfl, rfl⟩ | ⟨rfl, rfl⟩ | ⟨rfl, rfl⟩ | ⟨rfl, rfl⟩ | ⟨rfl, rfl⟩ | ⟨rfl, rfl⟩ := hi
  · exact compareBranch_ready h o (· == ·)
  · exact compareBranch_ready h o (· != ·)
  · exact compareBranch_ready h o BitVec.slt
  · exact compareBranch_ready h o fun x y => !x.slt y
  · exact compareBranch_ready h o BitVec.ult
  · exact compareBranch_ready h o fun x y => !x.ult y

end

/-! ## Calls, jumps and returns -/

/-- The header after the clause lies past its header and its words (R48). -/
theorem nextHeader_eq (t : Thread) : t.nextHeader = t.cb + BitVec.ofNat 56 (4 * ((t.hdr.extractLsb' 9 3).toNat + 2)) := by
  rw [Thread.nextHeader, hdrLen_eq]

/-- A jump clears the low bits of its target by itself. -/
theorem jump_and_not_three (t : Thread) (a : VAddr) : t.jump (a &&& ~~~3) = t.jump a := by
  unfold Thread.jump
  rw [BitVec.and_assoc, show (~~~3 : VAddr) &&& ~~~3#56 = ~~~3#56 by decide]

section
variable {s : State} {c : Ctx} {m : Mods} {p : Pred} {n : Bool}

/-- A control word whose predicate does not hold goes on at the next word (R127, R129). -/
theorem run_guard_off (hc : s.cur? = some c) (hp : s.pred c.t p = n) (f : Ctx → State) :
    (s.run fun x => if s.guard x p n then f x else s.fallThrough x m) = .next (s.commit c m 1 (c.t.past m.words)) :=
  (run_cur hc _).trans (congrArg _ (if_neg (by simp [State.guard, hp])))

/-- A control word whose predicate holds takes its effect (R127). -/
theorem run_guard_on (hc : s.cur? = some c) (hp : s.pred c.t p ≠ n) (f : Ctx → State) :
    (s.run fun x => if s.guard x p n then f x else s.fallThrough x m) = .next (f c) :=
  (run_cur hc _).trans (congrArg _ (if_pos (by simpa [State.guard] using hp)))

/-- The thread after the push of the header that follows its clause (R134). -/
def Thread.pushed (t : Thread) (h : t.flow.depth < 8) : Thread :=
  { t with flow := { t.flow with rstk := t.flow.rstk.set t.flow.depth t.nextHeader, depth := t.flow.depth + 1 } }

/-- A call at a depth below 8 pushes its return address and goes to its target (R133, R134). -/
theorem callTo_of_lt (h : c.t.flow.depth < 8) (delay : Nat) (target : VAddr) :
    s.callTo c m delay target = s.commit c m delay ((c.t.pushed h).jump target) := by
  rw [State.callTo, if_neg (Nat.not_le.2 h), Flow.push, dif_pos h]
  rfl

/-- A call at depth 8 traps (R134). -/
theorem callTo_of_ge (h : 8 ≤ c.t.flow.depth) (delay : Nat) (target : VAddr) :
    s.callTo c m delay target = s.deliver c.t .rstackOver (target.setWidth 64) :=
  if_pos h

/-- A 64-bit target is no canonical address when it reaches 2^56 (R128). -/
theorem noncanon_eq (x : DWord) : noncanon x = decide (2 ^ 56 ≤ x.toNat) := by
  have hlt := x.isLt
  unfold noncanon bits
  rw [decide_eq_decide]
  omega

/-- A transfer to a canonical target in a register pair takes its effect (R128). -/
theorem indirect_of_lt {a : Reg} (h : s.Ready' c [pair a]) (hx : (s.reg64 c.t a).toNat < 2 ^ 56) (f : VAddr → State) :
    s.indirect c a f = f ((s.reg64 c.t a).setWidth 56) := by
  rw [State.indirect, checked_ready' h, noncanon_eq, if_neg (by simpa using hx)]

/-- A transfer to a target in a register pair that is no canonical address traps (R128). -/
theorem indirect_of_ge {a : Reg} (h : s.Ready' c [pair a]) (hx : 2 ^ 56 ≤ (s.reg64 c.t a).toNat) (f : VAddr → State) :
    s.indirect c a f = s.deliver c.t .addrNoncanon (s.reg64 c.t a) := by
  rw [State.indirect, checked_ready' h, noncanon_eq, if_pos (by simpa using hx)]

end

/-! ## O14 -/

/-- Settles O14: every form by the shared shape of its family, the branch with its vote, the call and the transfer to a
register pair. -/
theorem branchAndCallForms : Obligations.BranchAndCallForms := by
  unfold Obligations.BranchAndCallForms
  refine ⟨fun s c m p n a b k o hplain => ⟨fun hc => ?_, fun h i holds hi => ?_⟩,
    fun s c m p n a b k o hsub hplace => ⟨fun hc => ?_, fun h i holds hi => ?_⟩,
    fun s c m p n a k hc => ⟨fun hp i hi => ?_, fun hp => ⟨fun hd => ⟨?_, fun h hx => ?_⟩, fun h hx => ?_,
      fun hd hpos => ?_, fun hd => ⟨?_, fun h hx => ?_⟩, fun h hx i hi => ?_, fun hd => ?_⟩⟩⟩
  · exact (exec_bra hc p n k).trans (congrArg _ (branch_of_no_hint hplain _ _))
  · exact (exec_compareForms h o hi).trans (congrArg _ (branch_of_no_hint hplain _ _))
  · exact ejectOutcome_of_branch hsub hplace (exec_bra hc p n k)
  · exact ejectOutcome_of_branch hsub hplace (exec_compareForms h o hi)
  · simp only [List.mem_cons, List.not_mem_nil, or_false] at hi
    obtain rfl | rfl | rfl | rfl := hi <;> exact run_guard_off hc hp _
  · refine (run_guard_on hc hp _).trans ?_
    rw [callTo_of_lt hd, Thread.pushed, nextHeader_eq]
    rfl
  · refine (run_guard_on hc hp _).trans ?_
    rw [indirect_of_lt h hx, callTo_of_lt hd, jump_and_not_three, Thread.pushed, nextHeader_eq]
  · exact (run_guard_on hc hp _).trans (congrArg _ (indirect_of_lt h hx _))
  · refine (run_guard_on hc hp _).trans (congrArg _ ((if_neg hpos.ne').trans ?_))
    simp only [Vector.getElem?_eq_getElem hd, Option.getD_some]
  · exact (run_guard_on hc hp _).trans (congrArg _ (callTo_of_ge hd _ _))
  · exact (run_guard_on hc hp _).trans (congrArg _ ((indirect_of_lt h hx _).trans (callTo_of_ge hd _ _)))
  · simp only [List.mem_cons, List.not_mem_nil, or_false] at hi
    obtain rfl | rfl := hi <;> exact (run_guard_on hc hp _).trans (congrArg _ (indirect_of_ge h hx _))
  · exact (run_guard_on hc hp _).trans (congrArg _ (if_pos hd))

end Sys2Proof.Machine
end
